-- ==== Sys2Proof/Word.lean ====
section
/-!
DEFINITION. The word types of the part and the sparse list that holds a window of words.
-/
namespace Sys2Proof

/-- A register of the register space: 32 bits (R137, R524). -/
abbrev Word := BitVec 32

/-- A byte on a command port, in the trail or in a flash page. -/
abbrev Byte := BitVec 8

/-- A store of cells by key: keys strictly rising, and no cell equal to what an unlisted key reads as. -/
abbrev Sparse (α : Type) := List (Nat × α)

end Sys2Proof
end

