-- ==== Sys2Proof/Syntax.lean ====
section
/-!
DEFINITION. The commands of the block: one constructor of Instr per row of the table of operations and events,
and the types of their operands. The table gives no operands and no bits, so the operands are the model's:
a Waicon line carries its header and its parsed tokens, an event carries what the outside brings.
-/
namespace Sys2Proof

/-- The entry points that execute lines (R128). -/
inductive Ep where
  | cp0 | cp1 | mail
deriving DecidableEq, Repr

/-- A Ringlet node address, segment.position (chapter 0.5.2). -/
structure Node where
  seg : BitVec 8
  pos : BitVec 8
deriving DecidableEq, Repr

/-- Where a line that reached the mail entry point came from (R124): the origin node and its port; a broadcast line
draws no response (R127). -/
structure Origin where
  node  : Node
  port  : Ep
  bcast : Bool
deriving DecidableEq, Repr

/-- A completed line that passed the byte checks and parsed to a known verb.
tag: the tag's value (R118). fp: the fingerprint, the CRC-16 of the line without its tag (R118).
crc: the line carried a CRC suffix, which matched (R116). addr: the node address that it carried, the part's own or that of
the node that it is for (R108, R123).
origin: for a line of the mail entry point (R124).
objOk: the object is one of the verb's (R102). argOk: number and kind of the arguments fit the form (R141 ARG).
intOk: every number's integer part fits 64 bits (R103). -/
structure Line where
  ep     : Ep
  tag    : Option (BitVec 16) := none
  fp     : BitVec 16 := 0
  crc    : Bool := false
  addr   : Option Node := none
  origin : Option Origin := none
  objOk  : Bool := true
  argOk  : Bool := true
  intOk  : Bool := true
deriving DecidableEq, Repr

/-- The units of Table 4.2. -/
inductive MUnit where
  | ns | us | ms | s | uA | mA | A | mV | V | ohm | kohm | Hz | kHz | degC | percent | ppm
deriving DecidableEq, Repr

/-- A quantity (R103, R104): the number num / 10 ^ dec, and the unit when one is written. -/
structure Qty where
  num  : Int
  dec  : Nat := 0
  unit : Option MUnit := none
deriving DecidableEq, Repr

/-- A channel name gG.cC as written (R102): the numbers may lie outside the forms. -/
structure ChRef where
  g : Nat
  c : Nat
deriving DecidableEq, Repr

/-- The units of one group, in the bit order of SYS.GFENCEg (R73). -/
inductive GUn where
  | link | fe | mod | sar | sw | dac | di | latch | temp
deriving DecidableEq, Repr

/-- A unit of Table 1.1. -/
inductive Un where
  | sup | xo | pll | strap | cp0 | cp1 | safe | fabric | shadow | skip | ring0 | ring1
  | cvuL0 | cvuL1 | cvuL2 | cvuL3 | cvuC0 | cvuC1 | cvuF
  | pflash | rflash | trail | chrys
  | grp (g : Nat) (k : GUn)
deriving DecidableEq, Repr

/-- The channel modes of Table 5.2. -/
inductive Mode where
  | off | di | dic | doh | dof | aic | aiv | air | aoc | aov
deriving DecidableEq, Repr

/-- Verbs of a broadcast line (R127): sync names its groups; other stands for every verb that may not be broadcast, and says whether
a locked entry point refuses its form (Table 4.7) and whether it carries a password. -/
inductive BVerb where
  | kick | safe | sync (gs : List Nat) | other (locked secret : Bool)
deriving DecidableEq, Repr

/-- The object of a port command (R143): cp0 or cp1. -/
inductive PortSel where
  | cp0 | cp1
deriving DecidableEq, Repr

/-- The argument of ch safe (R165). -/
inductive SafeArg where
  | off | on | value (v : Qty) | hold (t : Qty)
deriving DecidableEq, Repr

/-- The value of ch set: on and off for a switch (R165), or a quantity for an analogue output (R259). -/
inductive SetArg where
  | on | off | qty (v : Qty)
deriving DecidableEq, Repr

/-- The object of safe release, safe get (R315). -/
inductive SafeObj where
  | dev | grp (g : Nat) | ch (r : ChRef)
deriving DecidableEq, Repr

/-- The raw edge polarity that fires a reflex (Table 7.1). -/
inductive Pol where
  | rising | falling | both
deriving DecidableEq, Repr

/-- How a hold of a set, clear or toggle action ends (R197). -/
inductive Rel where
  | command | follow | timed
deriving DecidableEq, Repr

/-- The three actions of skip act that take RELEASE (Table 7.7). -/
inductive SAct where
  | set | clear | toggle
deriving DecidableEq, Repr

/-- How an attempt to train a link ends: it succeeds, fails, or is not answered (R151, R310). -/
inductive Train where
  | success | failed | unanswered
deriving DecidableEq, Repr

/-- What a group brings to its bring-up (R59): the units that fail their self-test (Table 2.6), the channels whose
comparator starts at 1 (R540), and per channel the time in CLK_R periods that the latch has counted a HOLD (R154). -/
structure BringUp where
  fails : List GUn := []
  high  : List Nat := []
  holds : Sparse Nat := []
deriving DecidableEq, Repr

/-- The system-side self-tests at S4 (R45): the failed units by their bit of SYS.FENCE (R72), the CP0 test (R26),
and the pages of the record flash that do not read (16-bit keys bank, block, page). -/
structure SelfTest where
  failed : BitVec 20
  cp0    : Bool
  bad    : List Nat
deriving DecidableEq, Repr

/-- A split pair of Table 19.2. -/
inductive Pair where
  | clk | count (n : Nat) | edge (n : Nat) | aits (n : Nat) | mark (c : Nat) | div | rxstat (c e : Nat)
deriving DecidableEq, Repr

/-- The types of an RTD (R243). -/
inductive Rtd where
  | pt100 | pt1000 | ohm
deriving DecidableEq, Repr

/-- The notch of a filter (Table 10.2). -/
inductive Notch where
  | off | n50 | n60
deriving DecidableEq, Repr

/-- What a modulator gives its filter for an output (R265, R266): its latest bits, oldest first, which the sinc3 filter decimates, or
the code that the sinc3 filter has made of them. -/
inductive Stream where
  | bits (l : List Bool)
  | code (x : Int)
deriving DecidableEq, Repr

/-- What a filter takes at an output boundary (R265): the stream of the serving modulator; the quantity (nA, µV, or mΩ by Table 9.1
before LEADR is taken off) that full scale, 2^23 codes, stands for at the channel's front end, which no rule states; whether the
excitation or a sense input stood above 4.6 V through the period (R244); and the stream of the spare when it converts in parallel
(R277). -/
structure Measure where
  src   : Stream
  full  : Nat
  high  : Bool := false
  spare : Option Stream := none
deriving DecidableEq, Repr

/-- An item that the system end of a barrier link receives (R147): one whose check fails, a heartbeat, a sample of
the monitor scan (R297). downBad is an item whose check fails at the group end. -/
inductive LinkItem where
  | bad (g : Nat)
  | downBad (g : Nat)
  | heartbeat (g : Nat) (latchAct : Bool)
  | scan (g e : Nat) (code : BitVec 16)
deriving DecidableEq, Repr

/-- A frame as a Ringlet port receives it in a window (Tables 12.1, 12.2): the port of the controller, the slot in whose
window its delimiter or mark lies, the header fields with the HCHK byte, the cells, and the frame CRC. -/
structure Frame where
  port   : Nat
  slot   : Nat
  kind   : BitVec 4
  fslot  : BitVec 12
  source : Node
  len    : BitVec 8
  age    : BitVec 8
  seq    : BitVec 8
  hchk   : BitVec 8
  cells  : List Word
  crc    : Word
deriving DecidableEq, Repr

/-- The scrambled bits that a port of a controller receives in the window of a slot (R318, R321). -/
structure RxLine where
  port : Nat
  slot : Nat
  bits : List Bool
deriving DecidableEq, Repr

/-- A mark match of a controller outside its windows, and the frame behind it (R351, R390). -/
structure HuntMatch where
  ctl   : Nat
  frame : Frame
deriving DecidableEq, Repr

/-- A group whose supply is back (R58): kept says whether the supply of its latch stayed above 12 V. -/
structure SupplyUp where
  grp  : Nat
  kept : Bool
deriving DecidableEq, Repr

/-- A load at a switch output (R219): the current in mA that it draws without the limiter. -/
structure LimitLoad where
  ch : Nat
  mA : BitVec 16
deriving DecidableEq, Repr

/-- What each port of a controller has seen in the round that ends: the offset of the first non-idle bit outside every
span and window (R380), none for a clean round. -/
structure RoundEnd where
  noise0 : Option Nat := none
  noise1 : Option Nat := none
deriving DecidableEq, Repr

/-- The kinds of ring slot (Table 12.3). -/
inductive SlotKind where
  | round | data | event | mail | spare
deriving DecidableEq, Repr

/-- The kinds of ring map (Table 12.9). -/
inductive MapKind where
  | host | value | status | count | revokes
deriving DecidableEq, Repr

/-- The roles of ring role (Table 13.4). -/
inductive Role where
  | tk | follower | backup (k : Nat)
deriving DecidableEq, Repr

/-- The position modes of ring posm (Table 13.4). -/
inductive Posm where
  | hop | table | either
deriving DecidableEq, Repr

/-- What the ECC of a word of the profile flash or of the trail says of a read (R406, R455). -/
inductive Ecc where
  | ok | corrected | bad
deriving DecidableEq, Repr

/-- How a read of a record flash page goes (R445 to R447): the threshold set used, the largest number of bits corrected in a
codeword, and whether the page was uncorrectable. -/
structure PageRead where
  rt     : Nat := 0
  corr   : Nat := 0
  uncorr : Bool := false
deriving DecidableEq, Repr

/-- The keywords of rec trigger (Table 17.8), in the order of the bits of REC.TRIG. -/
inductive TrigName where
  | trip | fault | devsafe | grpsafe | age | fence | window | ring | reset | skip
deriving DecidableEq, Repr

/-- A capsule named by rec (R491). -/
inductive CapSel where
  | id (n : Nat) | trail
deriving DecidableEq, Repr

/-- The kinds of a divergence (R487). -/
inductive DivKind where
  | mark | osum | keyframe
deriving DecidableEq, Repr

/-- The classes of an output sum (R471). -/
inductive DivClass where
  | link | ring | port | event | flash
deriving DecidableEq, Repr

/-- A divergence as the comparisons find it (R487, R488). -/
structure Divergence where
  kind : DivKind
  cls  : DivClass := .link
  t    : BitVec 64
  rec_ : Word
  exp  : Word
  got  : Word
  addr : Word := 0
deriving DecidableEq, Repr

/-- What the injection of a record shows (R486, R487): the divergences that the comparisons find, in order, and whether the record is
the capsule's last, older words of its line following it. -/
structure Inject where
  divs : List Divergence := []
  last : Bool := false
deriving DecidableEq, Repr

/-- The checks of a completed line that execute nothing (R98, R100, R116, R141). -/
inductive LineErr where
  | char | toolong | overrun | crc | crcreq | nocrc | syntx | verb
deriving DecidableEq, Repr

/-- What the confirmation of a candidate finds (R352): whether every rule but that on SCHEDID passes, the second mark's
ROUND frame, and the arrival of the mark against its expected arrival in µs of the sleep timer, after a wake (R376). -/
structure Confirm where
  ok    : Bool
  frame : Frame
  delta : Int := 0
deriving DecidableEq, Repr
/-- The commands, in the order of the table. -/
inductive Instr where
  | powerOnReset -- R33
  | resetRelease (s1 s2 : BitVec 28) -- R41
  | xoQualified (late : Bool) -- R41
  | pllLock -- R76
  | pllLockTimeout -- R76
  | selfTestComplete (r : SelfTest) -- R45
  | s5ProfileLoad -- R422
  | s6GroupBringup (powered : BitVec 8) (r : List (Nat × BringUp)) -- R41
  | s7RingStart -- R54
  | s8Run -- R41
  | directoryScan (bad : List Nat) -- R482
  | brownOutVcore -- R34
  | brownOutVio -- R34
  | holdupLow -- R35
  | holdupLowClear -- R35
  | vanaOkChange (ok : Bool) -- R34
  | vdramOkChange (ok : Bool) -- R34
  | resetPin -- R56
  | xoLoss -- R61
  | unitFenced (u : Un) -- R309
  | devStatus (ln : Line) -- R65
  | devFence (ln : Line) -- R66
  | devUnit (ln : Line) (u : Un) -- R27
  | devReset (ln : Line) -- R67
  | rxByte (ep : Ep) (b : Byte) -- R98
  | typedByte (ep : Ep) (b : Byte) -- R112
  | linegap (ep : Ep) -- R99
  | typedHoldTimeout (ep : Ep) -- R113
  | eventLineSend (ep : Ep) -- R130
  | tagEntryExpiry (ep : Ep) (tag : BitVec 16) -- R120
  | remoteLineForward (ln : Line) (dst : Node) (text : List Byte) -- R123
  | remoteResponseArrival (ep : Ep) (id : Nat) (text : List Byte) -- R125
  | noreply (ep : Ep) (id : Nat) -- R126
  | broadcastLine (ln : Line) (v : BVerb) (text : List Byte) -- R127
  | portMode (ln : Line) (p : PortSel) (gen : Bool) -- R111
  | portCrc (ln : Line) (p : PortSel) (on : Bool) -- R143
  | portEvents (ln : Line) (p : PortSel) (on : Bool) -- R143
  | portEvstamp (ln : Line) (p : PortSel) (on : Bool) -- R143
  | portBaud (ln : Line) (p : PortSel) (rate : Nat) -- R143
  | portMailto (ln : Line) (p : PortSel) (t : Qty) -- R143
  | portStatus (ln : Line) (p : PortSel) -- R143
  | evGet (ln : Line) -- R144
  | evAck (ln : Line) (seq : Nat) -- R144
  | evClear (ln : Line) -- R144
  | kick (ln : Line) -- R132
  | wdogSet (ln : Line) (t : Qty) -- R132
  | wdogOff (ln : Line) -- R132
  | wdogGet (ln : Line) -- R144
  | wdogExpire -- R133
  | lock (ln : Line) -- R135
  | unlock (ln : Line) (pw : Option (BitVec 64)) -- R135
  | rd (ln : Line) (addr count : Nat) -- R137
  | wr (ln : Line) (addr value : Nat) -- R138
  | splitLowRead (ln : Line) (p : Pair) -- R139
  | splitHighRead (ln : Line) (p : Pair) -- R139
  | splitLowWrite (ln : Line) (p : Pair) (value : Word) -- R140
  | splitHighWrite (ln : Line) (p : Pair) (value : Word) -- R140
  | timeGet (ln : Line) -- R91
  | timeSet (ln : Line) (ticks : Nat) -- R86
  | timeTrim (ln : Line) (t : Qty) -- R84
  | timeSlew (ln : Line) (t : Qty) -- R85
  | slewComplete -- R85
  | heartbeatSend (g : Nat) (sys : Bool) -- R147
  | linkItemReceive (it : LinkItem) -- R147
  | linkSilent (g : Nat) -- R148
  | linkLost (g : Nat) -- R149
  | groupPowerFail (g : Nat) -- R150
  | groupPowered (x : SupplyUp) -- R58
  | groupBringupComplete (g : Nat) (r : BringUp) -- R59
  | retrainAttempt (g : Nat) (r : Train) -- R151
  | trainingSuccess (g : Nat) -- R151
  | holdExpire (n : Nat) -- R154
  | grpGet (ln : Line) (g : Nat) -- R164
  | grpRetrain (ln : Line) (g : Nat) (r : Train) -- R164
  | arm (ln : Line) -- R160
  | disarm (ln : Line) -- R161
  | chMode (ln : Line) (ch : ChRef) (m : Mode) (w4 : Bool) -- R162
  | modeActive (n : Nat) (raw : Bool) -- R162
  | chSafe (ln : Line) (ch : ChRef) (a : SafeArg) -- R165
  | chEts (ln : Line) (ch : ChRef) (on : Bool) -- R165
  | chSource (ln : Line) (ch : ChRef) (ring : Bool) -- R165
  | chSet (ln : Line) (ch : ChRef) (v : SetArg) -- R165
  | chGet (ln : Line) (ch : ChRef) -- R165
  | diThrType (ln : Line) (ch : ChRef) (t3 : Bool) -- R169
  | diThrProg (ln : Line) (ch : ChRef) (thr : Qty) (hyst : Option Qty) -- R169
  | diInvert (ln : Line) (ch : ChRef) (on : Bool) -- R170
  | diDebounce (ln : Line) (ch : ChRef) (t : Qty) -- R173
  | diWirebreak (ln : Line) (ch : ChRef) (on : Bool) -- R175
  | dicEdge (ln : Line) (ch : ChRef) (e : Pol) -- R177
  | dicCount (ln : Line) (ch : ChRef) -- R182
  | dicCountSet (ln : Line) (ch : ChRef) (v : Nat) -- R190
  | dicCountClear (ln : Line) (ch : ChRef) -- R190
  | dicPersist (ln : Line) (ch : ChRef) (a : Option (Qty × Option Nat)) -- R186
  | debounceConfirm (n : Nat) (level : Bool) (tstart : BitVec 64) -- R172
  | wirebreak (n : Nat) -- R175
  | wireok (n : Nat) -- R175
  | countItemSend (n : Nat) -- R179
  | dicCountItem (n : Nat) (count : BitVec 16) (edge : Option (BitVec 64)) -- R179
  | persistInterval (n : Nat) -- R186
  | tallySnapshotStart -- R425
  | tallySnapshotDone (bod : Bool) -- R425
  | reflexFire (n : Nat) (level : Bool) (t : BitVec 64) -- R195
  | reflexRevoke (n : Nat) -- R203
  | reflexHoldTimeout (n : Nat) -- R197
  | pulseEnd (n : Nat) -- R196
  | skipSrc (ln : Line) (k : Nat) (ch : ChRef) (p : Pol) -- R211
  | skipConfirm (ln : Line) (k : Nat) (t : Qty) -- R201
  | skipAct (ln : Line) (k : Nat) (a : SAct) (ch : ChRef) (r : Rel) (t : Qty) -- R196
  | skipActPulse (ln : Line) (k : Nat) (ch : ChRef) (high : Bool) (t : Qty) -- R196
  | skipActGsafe (ln : Line) (k : Nat) (g : Nat) -- R196
  | skipActStamp (ln : Line) (k : Nat) -- R196
  | skipNote (ln : Line) (k : Nat) (on : Bool) -- R211
  | skipEnable (ln : Line) (k : Nat) (on : Bool) -- R211
  | skipRelease (ln : Line) (k : Nat) -- R197
  | skipReportRevoked (ln : Line) (on : Bool) -- R208
  | skipGet (ln : Line) (k : Nat) -- R211
  | dofOverload (n : Nat) -- R209
  | overloadClear (n : Nat) -- R307
  | dofMismatch (n : Nat) -- R210
  | dofMismatchClear (n : Nat) -- R210
  | shortTrip (n : Nat) -- R219
  | currentLimit (x : LimitLoad) -- R219
  | limitTrip (n : Nat) -- R219
  | fuseTrip (n : Nat) (mA : BitVec 16) -- R222
  | inrushWindowClose (n : Nat) -- R221
  | tripRetry (n : Nat) -- R228
  | tripCleared (n : Nat) -- R227
  | openLoad (n : Nat) -- R229
  | openLoadClear (n : Nat) -- R229
  | undercurrent (n : Nat) -- R230
  | undercurrentClear (n : Nat) -- R230
  | dohRated (ln : Line) (ch : ChRef) (a : Qty) -- R216
  | dohWire (ln : Line) (ch : ChRef) (w : Qty) -- R223
  | dohWireCustom (ln : Line) (ch : ChRef) (k : Nat) -- R224
  | dohInrush (ln : Line) (ch : ChRef) (t m : Qty) -- R221
  | dohLimit (ln : Line) (ch : ChRef) (a : Qty) -- R220
  | dohRetry (ln : Line) (ch : ChRef) (on : Bool) -- R228
  | dohUndercurrent (ln : Line) (ch : ChRef) (a : Option Qty) -- R230
  | dohOltest (ln : Line) (ch : ChRef) (on : Bool) -- R229
  | tripClear (ln : Line) (ch : ChRef) -- R227
  | dohFuse (ln : Line) (ch : ChRef) -- R234
  | aicInlim (n : Nat) -- R238
  | aicInlimClear (n : Nat) -- R238
  | loopOff (n : Nat) -- R238
  | loopOn (n : Nat) -- R238
  | complySet (n : Nat) -- R248
  | complyClear (n : Nat) -- R248
  | aoDeviation (n : Nat) -- R253
  | aoDeviationClear (n : Nat) -- R253
  | aoReadback (n : Nat) -- R254
  | aoReadbackClear (n : Nat) -- R254
  | aicLoop (ln : Line) (ch : ChRef) (on : Bool) -- R259
  | airRtd (ln : Line) (ch : ChRef) (t : Rtd) -- R243
  | airExc (ln : Line) (ch : ChRef) (i : Qty) -- R242
  | airLeads (ln : Line) (ch : ChRef) (w3 : Bool) (r : Option Qty) -- R242
  | aiRngt (ln : Line) (ch : ChRef) (t : Qty) -- R245
  | aoDevCfg (ln : Line) (ch : ChRef) (p t : Qty) (report : Bool) -- R253
  | aoRbchkCfg (ln : Line) (ch : ChRef) (p t : Qty) -- R254
  | chReadback (ln : Line) (ch : ChRef) -- R259
  | conversionResult (n : Nat) (m : Measure) -- R265
  | resultBoundaryMissed (n : Nat) -- R269
  | syncBallEdge -- R275
  | syncEdge -- R272
  | rotationStepStart (g : Nat) -- R276
  | calComplete (g : Nat) (zero ref : Int) -- R278
  | rotConnect (g : Nat) -- R277
  | rotSettleDone (g : Nat) -- R277
  | handover (g : Nat) -- R279
  | recalComplete (g : Nat) (zero ref : Int) -- R277
  | modFail (g m : Nat) -- R282
  | xchkFail (g : Nat) -- R291
  | xchkClear (g : Nat) -- R291
  | convRate (ln : Line) (ch : ChRef) (r : Qty) (notch : Notch) -- R265
  | convWindow (ln : Line) (ch : ChRef) (lo hi : Qty) (hyst : Option Qty) (count : Option Nat) -- R284
  | convWindowOff (ln : Line) (ch : ChRef) -- R293
  | convWindowFault (ln : Line) (ch : ChRef) (out : Option ChRef) -- R286
  | convGet (ln : Line) (ch : ChRef) -- R293
  | convRotate (ln : Line) (g : Nat) (on : Bool) (step : Option Qty) -- R293
  | convRotateGet (ln : Line) (g : Nat) -- R293
  | convXchk (ln : Line) (g : Nat) (ch : Option ChRef) (lim : Option (Qty × Qty)) -- R291
  | convXchkGet (ln : Line) (g : Nat) -- R293
  | convScan (ln : Line) (g e : Nat) -- R297
  | convSyncBall (ln : Line) (g : Nat) (on : Bool) -- R271
  | convSyncRing (ln : Line) (g : Nat) (ring : Option Nat) (every : Option Nat) -- R274
  | sync (ln : Line) (gs : List Nat) -- R294
  | safePin -- R300
  | safePinHigh -- R300
  | vfLow (g : Nat) -- R298
  | vfOk (g : Nat) -- R298
  | vfHigh (g : Nat) -- R311
  | tempWarn (g : Nat) -- R301
  | tempOk (g : Nat) -- R301
  | tempTrip (g : Nat) -- R301
  | safeCmd (ln : Line) -- R315
  | safeRelease (ln : Line) (o : SafeObj) -- R305
  | safeReleaseAuto (ln : Line) (o : SafeObj) (on : Bool) -- R306
  | safeGet (ln : Line) (o : SafeObj) -- R315
  | roundMarkSend (c : Nat) (e : RoundEnd) -- R328
  | roundMarkAccept (c : Nat) (e : RoundEnd) -- R328
  | markMissed (c port : Nat) (nonIdle : Bool) (e : RoundEnd) -- R350
  | frameReceive (c : Nat) (x : RxLine) -- R330
  | rxWindowClose (c slot port : Nat) (nonIdle : Bool) -- R337
  | lageRoundTick (c : Nat) -- R337
  | slotAssembly (c slot : Nat) -- R334
  | slotLaunch (c slot : Nat) -- R328
  | ringdlyMeasure (c t : Nat) -- R329
  | ringStopped (c : Nat) -- R331
  | mailFrameReceive (c : Nat) (f : Frame) -- R344
  | mailFragmentTimeout (c : Nat) (origin : Node) -- R344
  | ringStart (ln : Line) (c : Option Nat) -- R331
  | ringStop (ln : Line) (c : Option Nat) -- R331
  | ringLine (ln : Line) (c : Nat) (long : Bool) -- R317
  | ringPeriod (ln : Line) (c : Nat) (t : Qty) -- R345
  | ringSlots (ln : Line) (c n : Nat) -- R345
  | ringMargin (ln : Line) (c n : Nat) -- R345
  | ringSlot (ln : Line) (c slot : Nat) (k : SlotKind) (owner : Node) (len start : Nat) (rx : Bool) -- R325
  | ringMap (ln : Line) (c slot cell : Nat) (k : MapKind) (ch : Option ChRef) -- R335
  | ringHop (ln : Line) (c i : Nat) (t : Qty) -- R341
  | ringTx (ln : Line) (c slot cell : Nat) (vs : List Nat) -- R345
  | ringCommit (ln : Line) (c slot : Nat) (len : Option Nat) -- R334
  | ringRx (ln : Line) (c slot : Nat) (cell count : Option Nat) -- R345
  | ringRoundev (ln : Line) (c : Nat) (n : Option Nat) -- R345
  | ringGet (ln : Line) (c : Nat) -- R345
  | chBind (ln : Line) (ch : ChRef) (c slot cell limit : Nat) -- R339
  | chBindGet (ln : Line) (ch : ChRef) -- R345
  | huntCandidate (x : HuntMatch) -- R351
  | candidateConfirm (c : Nat) (r : Confirm) -- R352
  | joinProbe (c : Nat) (dup : Bool) (busy : List Nat) -- R361
  | dupAddr (c : Nat) -- R362
  | tkListenEnd (c : Nat) -- R355
  | foreignMark (c : Nat) (backup : Bool) (rank : Nat) -- R356
  | tkTakeover (c : Nat) -- R357
  | ringWrap (c port : Nat) -- R363
  | portUp (c port : Nat) -- R363
  | ringUnwrap (c port : Nat) -- R364
  | cocoonEnter (c : Nat) -- R374
  | sleepTimerFire (c e : Nat) (r : List (Nat × BringUp)) -- R375
  | wakeMiss (c : Nat) -- R377
  | ringRole (ln : Line) (c : Nat) (r : Role) -- R381
  | ringSeg (ln : Line) (c n : Nat) -- R360
  | ringPosm (ln : Line) (c : Nat) (p : Posm) -- R360
  | ringPostab (ln : Line) (c e : Nat) (v : Option (BitVec 128 × Nat)) -- R360
  | ringBridge (ln : Line) (on : Bool) (bcast : Option Bool) -- R367
  | ringBridgeEntry (ln : Line) (e src slot cell count j dcell : Nat) -- R370
  | ringReachDown (ln : Line) (down : Bool) (seg : Nat) (on : Bool) -- R368
  | ringCocoon (ln : Line) (c : Nat) (t : Qty) (at_ : Option Nat) -- R373
  | ringRho (ln : Line) (c : Nat) (q : Qty) -- R375
  | ringSleepGet (ln : Line) (c : Nat) -- R381
  | ringPortGet (ln : Line) (c port : Nat) -- R380
  | ringPortClear (ln : Line) (c port : Nat) -- R380
  | knownAnswerTest (u : Un) (pass : Bool) -- R395
  | cvuGet (ln : Line) (u : Un) -- R398
  | cvuClear (ln : Line) (u : Un) -- R398
  | pflashSeqStep (ln : Line) (off : BitVec 22) (value : Word) -- R404
  | pflashSeqTimeout (b : Nat) -- R404
  | programWord (ln : Line) (off : BitVec 22) (high : Word) -- R406
  | eraseSector (ln : Line) (off : BitVec 22) -- R404
  | eraseBank (ln : Line) (pb1 : Bool) -- R417
  | enterPassword (ln : Line) (pb1 : Bool) (high : Word) -- R413
  | setPassword (ln : Line) (pb1 : Bool) (high : Word) -- R412
  | protectGroup (ln : Line) (pb1 : Bool) (k : BitVec 2) -- R414
  | clearStatus (ln : Line) (pb1 : Bool) -- R431
  | pflashOpComplete (b : Nat) (bod : Bool) -- R431
  | pflashFactoryCheck (uncorr : Bool) -- R309
  | profGet (ln : Line) -- R433
  | profWord (ln : Line) (addr : Nat) -- R433
  | profProgram (ln : Line) (addr : Nat) (v : BitVec 64) -- R433
  | profErase (ln : Line) (addr : Nat) -- R433
  | profEraseSlot (ln : Line) (b : Bool) -- R433
  | profWipe (ln : Line) (b : Nat) -- R433
  | profCrc (ln : Line) (b : Bool) -- R419
  | profSwap (ln : Line) (b : Bool) (crc : Nat) -- R423
  | profProtect (ln : Line) (k : Nat) -- R414
  | profPassword (ln : Line) (pw : Option (BitVec 64)) -- R412
  | tallySave (ln : Line) (ch : Option ChRef) -- R186
  | tallyGet (ln : Line) (ch : ChRef) -- R433
  | rflashGet (ln : Line) -- R458
  | rflashBlockGet (ln : Line) (bank block : Nat) -- R458
  | rflashRead (ln : Line) (bank block page : Nat) (r : PageRead) -- R445
  | rflashHex (ln : Line) (off : Nat) -- R458
  | rflashProgram (ln : Line) (bank block page : Nat) -- R442
  | rflashErase (ln : Line) (bank block : Nat) -- R442
  | rflashBad (ln : Line) (bank block : Nat) -- R451
  | rflashRetry (ln : Line) (set_ : Option (BitVec 3)) -- R446
  | rflashSync (ln : Line) -- R449
  | rflashOpComplete (bank : Nat) (fail : Bool) -- R441
  | tableWrite -- R449
  | trailScrub (word : Nat) (e : Ecc) -- R455
  | keyframe -- R469
  | osum -- R471
  | postWindowEnd -- R473
  | pendingCapsuleStart -- R474
  | replayStagingDone (damaged : Option Nat) -- R484
  | recordInject (r : Inject) -- R486
  | replayEnd (counts : List (Nat × BitVec 16)) -- R489
  | recOnOff (ln : Line) (on : Bool) -- R491
  | recKeyframe (ln : Line) (t : Qty) -- R469
  | recOsum (ln : Line) (t : Qty) -- R471
  | recWindow (ln : Line) (pre post : Qty) -- R473
  | recTriggerCfg (ln : Line) (t : TrigName) (on : Bool) -- R491
  | recClaim (ln : Line) (banks : List Nat) -- R476
  | recOverwrite (ln : Line) (on : Bool) -- R480
  | recFreeze (ln : Line) -- R472
  | recFreeTrail (ln : Line) -- R481
  | recGet (ln : Line) -- R491
  | recList (ln : Line) -- R491
  | recCapGet (ln : Line) (c : CapSel) -- R491
  | recCapErase (ln : Line) (id : Nat) -- R491
  | recReplay (ln : Line) (c : CapSel) (from_ : Option Nat) (fast nostop : Bool) -- R483
  | recReplayPause (ln : Line) -- R484
  | recReplayContinue (ln : Line) -- R484
  | recReplayStop (ln : Line) -- R484
  | recResult (ln : Line) -- R488
  | lineRefused (ln : Line) (e : LineErr) -- R116
  | keyframeComplete -- R469
  | currentLimitEnd (n : Nat) -- R219
  | vfHighEnd (g : Nat) -- R311
deriving DecidableEq, Repr

end Sys2Proof
end

