-- ==== Sys2Proof/Config.lean ====
section
/-!
DEFINITION. The free values: what the spec leaves open and the model does not choose. Each is a constant without a
body, applied to the operands it depends on or to the counter freeIdx of the state, so no proof can see what it is (assumption 6).
-/
namespace Sys2Proof.Config

/-- Whether a cut-off program of an upper page also loses its lower partner: "may also be lost" (R444, Table 16.3).
DESIGN CHOICE: assumption 76. -/
opaque losesPartner : Nat → Bool

/-- Byte i of a page or block left undefined by a cut-off operation or by a program against R439 (R439, R444).
DESIGN CHOICE: assumption 76. -/
opaque undefByte : Nat → Nat → BitVec 8

/-- Word i of a 64-bit profile flash word whose content the spec leaves open (chapter 15).
DESIGN CHOICE: assumption 76. -/
opaque undefWord : Nat → Nat → BitVec 64

/-- Word i of the spare area of a page that its BCH parity fills, by the number of the program (R436, R437: the code's
polynomial is not stated).
DESIGN CHOICE: assumption 108. -/
opaque parityWord : Nat → Nat → BitVec 32

/-- The factory trim that the system-side pipeline uses, word i of 512 (Table 17.3).
DESIGN CHOICE: assumption 6. -/
opaque trimWord : Nat → BitVec 32

/-- The junction temperature in 0.1 °C, by the free value that its stretch of running drew and its conversion number (R523).
DESIGN CHOICE: assumption 72. -/
opaque junctionTemp : Nat → Nat → BitVec 16

/-- The data a page delivers when no threshold set reads it: RT0 data uncorrected (R445), 32-bit word i.
DESIGN CHOICE: assumption 6. -/
opaque uncorrWord : Nat → Nat → BitVec 32

/-- What the scrambler of a Ringlet port holds when its line starts (R318), by the free value of the reset and the port.
DESIGN CHOICE: assumption 103. -/
opaque scrambler : Nat → Nat → BitVec 58

/-- A measured or computed value that no rule states.
DESIGN CHOICE: assumption 6. -/
opaque freeWord : Nat → BitVec 32

/-- The word of verdict that ends a LINE record (Table 17.1): the spec gives it one word and no coding. 0 stands for a
line that passed, n + 1 for a refusal with the n-th code of Table 4.5.
DESIGN CHOICE: assumption 75. -/
opaque lineVerdict : Nat → BitVec 32

end Sys2Proof.Config
end

