-- ==== Sys2Proof/Machine/State.lean ====
section
/-!
DEFINITION. The state of the block: plain data, holding everything the spec gives the part, and State.reset.
Registers live in one sparse store of words keyed by address (a word not listed reads as its reset value of
chapter 19); what the spec implies beside them stands in the named structures.
-/
namespace Sys2Proof.Machine

/-- Why a command stops the machine. No meaning raises it: the spec gives the part no machine stop (a failed unit is
fenced and the part goes on, R309; the loss of CP0 is the floor, R26). Raising it would be safe. -/
inductive Fault where
  | stuck
deriving DecidableEq, Repr

/-- Why a command has no meaning. notModelled is raised by an arm of exec whose meaning is not written yet (safe:
nothing can be proved of what such a command does). -/
inductive Refusal where
  | notModelled (mnemonic : String)
deriving DecidableEq, Repr

/-- The members of the family (Table 1.3). -/
inductive Member where
  | g1 | g2 | g4 | g8
deriving DecidableEq, Repr

/-- The error codes of Table 4.5. -/
inductive Code where
  | char | toolong | overrun | crc | crcreq | nocrc | syntx | verb | object | arg | unit | range | absent | noaddr
  | align | readonly | busybank | notstopped | armed | bound | mode | fenced | unpowered | starting | crawl | replay
  | disciplined | holdup | locked | nopassword | password | pwlock | tagreuse | noroute | mailfull | nobcast
  | localonly | noreply
deriving DecidableEq, Repr

/-- A value in a response or in the details of an event: a word, a decimal number, register contents (R106), a number
with a fixed count of decimals, the same with its sign, a 64-bit value, a list of words. -/
inductive FVal where
  | w (s : String)
  | n (v : Int)
  | hex (v : Word)
  | fx (v : Int) (dec : Nat)
  | sfx (v : Int) (dec : Nat)
  | bin (v : Nat)
  | ws (l : List String)
  | bytes (l : List Byte)
  | un (u : Un)
  | obj (g c : Nat)
  | nd (a : Node)
  | cause (b : Nat)
deriving DecidableEq, Repr

/-- One token of a response or of an event's details: an optional key, the value, an optional unit. -/
structure Fld where
  key  : String := ""
  val  : FVal
  unit : String := ""
deriving DecidableEq, Repr

/-- The final forms of a response (Table 4.3); errAt carries the slot number that R327 asks for. -/
inductive Resp where
  | ok
  | vals (l : List Fld)
  | err (c : Code)
  | errAt (c : Code) (slot : Nat)
deriving DecidableEq, Repr

/-- The object of an event (R311). -/
inductive Obj where
  | dev | grp (g : Nat) | ch (n : Nat) | unit (u : Un) | none
deriving DecidableEq, Repr

/-- The classes of events (Table 11.5 in its order, then those of the other chapters). -/
inductive Ev where
  | holdupLow | profileNone | safePin | wdogExpire | unitFenced | safeEnter | safeClear | safeRelease | safeHoldexp
  | linkLost | linkUp | groupUnpowered | groupPowered | vfLow | vfHigh | vfOk | tempWarn | tempTrip | tempOk
  | shortTrip | limitTrip | fuseTrip | thermalTrip | tripRetry | tripCleared | overload | dofMismatch | openLoad
  | undercurrent | wirebreak | wireok | loopOff | rtdOpen | rtdShort | underrange | overrange | aoDeviation
  | aoReadback | window | xchkFail | calMismatch | modFail | tallyFail | ageLimit
  | timeStep | timeSlewed | timeSlewcut
  | skip
  | ringJoined | ringStopped | ringRound | markLoss | schedMismatch | dupAddr | nopos | tkConflict | tkTakeover | tkYield
  | ringWrap | ringUnwrap | ringWake | wakeMiss | wakeOk | suspectUpstream | cocoonAbort
  | blockCrc
  | pflashDone | pflashEcc | profSwap
  | rflashDone | rflashEcc | rflashBad | rflashWorn | trailEcc
  | recTrigger | recDurable | recFull | recGap | recErased | replayDiv | replayEnd
deriving DecidableEq, Repr

/-- An event: its class, object and details (R311); own is the instant that it carries where that is not the end of its step:
the timestamp before a step of the time (R86, R144). -/
structure Event where
  cls : Ev
  obj : Obj
  det : List Fld := []
  own : Option (BitVec 64) := none
deriving DecidableEq, Repr

/-- An entry of the event queue (R129): sequence number, timestamp, and whether each port has sent it (R130). -/
structure EvEntry where
  seq   : BitVec 16
  ts    : BitVec 64
  ev    : Event
  sent0 : Bool := false
  sent1 : Bool := false
deriving DecidableEq, Repr

/-- The boot lines of Table 2.5. -/
inductive Boot where
  | s2 | s4 (fences : Nat) | s5 (prof : Nat) (gen : Option Nat) | s6 (powered populated : Nat) (armed : Bool)
  | s8 (full : Bool) | crawl (u : Un)
deriving DecidableEq, Repr

/-- An answer to a line: a response of this part, or the text a remote node sent (R125). -/
inductive Answer where
  | loc (r : Resp)
  | rem (a : Node) (text : List Byte)
deriving DecidableEq, Repr

/-- What a port sends. A response carries the address that the line carried (R108, R123), ~dup, and the CRC suffix. -/
inductive TxItem where
  | resp (addr : Option Node) (a : Answer) (dup crc : Bool)
  | event (e : EvEntry) (stamp crc : Bool)
  | boot (b : Boot) (crc : Bool)
  | echo (l : List Byte)
  | prompt
deriving DecidableEq, Repr

/-- A symbol of the receive FIFO: a byte, or the place where bytes were lost to an overflow (R98). -/
inductive RxSym where
  | b (v : Byte)
  | lost
deriving DecidableEq, Repr

/-- A tag cache entry (R118, R124): resp is none while the entry is pending. at is the instant of acceptance. -/
structure TagEntry where
  tag    : BitVec 16
  origin : Option Origin
  fp     : BitVec 16
  atRaw  : Nat
  resp   : Option Answer
deriving DecidableEq, Repr

/-- A remote line outstanding (R126): crc says that it carried a suffix (R117). -/
structure Outst where
  id   : Nat
  dst  : Node
  tag  : Option (BitVec 16)
  crc  : Bool
deriving DecidableEq, Repr

/-- The read shadow (R139): the pair, the high half, and whether it has been used. -/
structure RdShadow where
  pair : Pair
  high : Word
  used : Bool
deriving DecidableEq, Repr

/-- What MAIL says of a line beside its text (Table 12.7): its origin, the broadcast mark, and its tag. -/
structure MailHead where
  origin : Origin
  tag    : Option (BitVec 16)
deriving DecidableEq, Repr

/-- One entry point: CP0, CP1 or mail. heads: for each line in the FIFO of the mail entry point, what MAIL says of it (R124). tx is
what the port has sent, newest first. -/
structure Port where
  rx       : List RxSym := []
  heads    : List MailHead := []
  crSeen   : Bool := false
  dropping : Bool := false
  typed    : List Byte := []
  tags     : List TagEntry := []
  remote   : List Outst := []
  nextId   : Nat := 0
  unlocked : Bool := false
  rdShadow : Option RdShadow := none
  wrShadow : Option (Pair × Word) := none
  tx       : List TxItem := []
deriving DecidableEq, Repr

/-- The tag of the last tagged dev reset (R64): its entry point, its origin in the mail entry point, and the CLK_R periods that
earlier runs since have taken. due: its reset has not begun. -/
structure ResetTag where
  ep     : Ep
  origin : Option Origin
  tag    : BitVec 16
  ran    : Nat := 0
  due    : Bool := false
deriving DecidableEq, Repr

/-- The supervisor and the start-up sequencer (chapter 2). -/
structure Sup where
  inReset   : Bool := true
  porHeld   : Bool := true
  resetLow  : Bool := false
  vcoreOk   : Bool := false
  vioOk     : Bool := false
  safeLow   : Bool := false
  stage     : Nat := 0
  crawl     : Bool := false
  floor     : Bool := false
  xoLate    : Bool := false
  pllLock   : Bool := false
  vanaOk    : Bool := false
  vdramOk   : Bool := false
  holdupLow : Bool := false
  profSrc   : Nat := 0
  s2Held    : Bool := false
  armed     : Bool := false
  resetTag  : Option ResetTag := none
  vdramKept : Bool := false
deriving DecidableEq, Repr

/-- The timebase (chapter 3). raw counts CLK_R periods of 2.5 ns since S2. slew is the remainder in 2^-32 tick.
discBy is the controller that disciplines the timebase while disc stands (R83). sleep is the sleep timer (R89). tjBase is the free
value that the temperatures of SYS.TJ since the reset go by (R523). -/
structure Clk where
  raw     : Nat := 0
  ts      : BitVec 64 := 0
  frac    : BitVec 32 := 0
  slewing : Bool := false
  slew    : Int := 0
  ringT   : Int := 0
  disc    : Bool := false
  discBy  : Nat := 0
  sleep   : BitVec 40 := 0
  tjBase  : Nat := 0
deriving DecidableEq, Repr

/-- The command watchdog (R132): reload is the instant of the last reload. -/
structure Wdog where
  running : Bool := false
  reload  : Nat := 0
deriving DecidableEq, Repr

/-- Skipper's hold on an output (R197, R198): the reflex, the value it holds, the raw edge timestamp, the source level
after INVERT that fired it, and the ACT register at the fire. -/
structure SkipHold where
  k   : Nat
  val : Bool
  ts  : BitVec 64
  src : Nat
  lev : Bool
  act : Word
deriving DecidableEq, Repr

/-- A run-ahead action of a fire: the reflex, its ACT register at the fire, whether the action executed (R200). -/
structure FireAct where
  k    : Nat
  act  : Word
  exec : Bool
deriving DecidableEq, Repr

/-- A fire that awaits confirmation (R203): the level after INVERT that fired, the raw edge timestamp, the run-ahead
actions. -/
structure Fire where
  level : Bool
  ts    : BitVec 64
  acts  : List FireAct
deriving DecidableEq, Repr

/-- What the spec implies of a channel's conversion: outputs since the filter started (R268), the last two outputs of the sinc3 filter,
which the notch filter takes (R267), the sums and numbers of the samples of its scan entries in the output period, which it delivers
with the modulators fenced (R287), output periods that stand against OPEN and SHORT (R244), the time in CLK_M cycles for which the results have met a change of UNDER and OVER (R245),
the change that the window comparator counts and its count (R284), the instant of the latest change of the driven code
and the outputs since (R252). -/
structure ConvAux where
  outs   : Nat := 0
  x1     : Int := 0
  x2     : Int := 0
  priSum : Int := 0
  priNum : Nat := 0
  secSum : Int := 0
  secNum : Nat := 0
  openN  : Nat := 0
  shortN : Nat := 0
  under  : Option Nat := none
  above  : Option Nat := none
  winTo  : Nat := 0
  winN   : Nat := 0
  codeAt : Nat := 0
  codeN  : Nat := 0
deriving DecidableEq, Repr

/-- What the group safe latch holds for a channel (R146, R154): SAFE and HOLD as they were loaded last, and the value it holds while
it acts on its own with kind HOLD (none: nothing captured, or expired). -/
structure LatchCh where
  safe : Word := 0
  max  : BitVec 16 := 0
  held : Option (BitVec 16) := none
deriving DecidableEq, Repr

/-- What the spec implies of a channel beside its registers: the mode whose circuits its front end has enabled, OFF while a mode
change is under way (Table 5.4), whether the stored mode has been applied since the last reset (R162, R539), what the latch holds
for it, the timestamp of the latest valid value in its result slot (R18), the comparator, t_start of the filter's run (R172), the group's
16-bit count with the t_start of its last counted edge and the count's base (R178, R179), the last snapshot and whether one has been
taken since the last application of DIC (R186), the hold (R154), Skipper's hold and fire, the heat of
the fuse model (none: the start of R225), the retry instants (R228), a trip clear that waits (R227), whether the controller of the binding has entered RUN since AGE was
set (R306), and the total age of the binding (R338, R339). -/
structure ChanAux where
  applied   : BitVec 4 := 0
  isApplied : Bool := false
  latch     : LatchCh := {}
  slotTs    : BitVec 64 := 0
  raw       : Bool := false
  run       : Option (BitVec 64) := none
  edgeSeen  : Bool := false
  cnt16     : BitVec 16 := 0
  edgeTs    : Option (BitVec 64) := none
  base      : BitVec 16 := 0
  baseOk    : Bool := false
  snapCount : BitVec 64 := 0
  snapAt    : Nat := 0
  snapped   : Bool := false
  held      : BitVec 16 := 0
  holdAt    : Nat := 0
  holding   : Bool := false
  hold      : Option SkipHold := none
  fire      : Option Fire := none
  heat      : Option Rat := none
  retries   : List Nat := []
  clearReq  : Bool := false
  rejoined  : Bool := false
  bindAge   : Nat := 0
  conv      : ConvAux := {}
deriving DecidableEq, Repr

/-- The calibration of a modulator: its offset O and gain G (R278). -/
structure ModCal where
  off  : Rat := 0
  gain : Rat := 1
deriving DecidableEq, Repr

/-- What the spec implies of a group's conversion: the calibration of each modulator, the channel that the next rotation
step visits first, the agreeing pairs of COMPARE (R279), the last two sinc3 outputs of the spare (R267), the scan frames begun and the
entry that the scan converts next (R297, R273), the sum and number of the samples of entry 34 in the output period of the
cross-check and its last difference in % of full scale (R291), and the frames for which entries 35 and 36 have stood out
(R290). -/
structure GrpConv where
  cals   : Sparse ModCal := []
  next   : Nat := 0
  pairs  : Nat := 0
  spare1 : Int := 0
  spare2 : Int := 0
  frames : Nat := 0
  scanAt : Nat := 0
  xSum   : Int := 0
  xNum   : Nat := 0
  xDiff  : Rat := 0
  zeroN  : Nat := 0
  refN   : Nat := 0
deriving DecidableEq, Repr

/-- What the spec implies of a group beside its registers: the field supply at the group (R15) and whether its latch acts on its own
(R17, R148), the instants of the training attempts that failed (R151) and the unanswered ones (R310), the bring-up in progress,
the items discarded at the group end (R147), whether the spare recalibrates at the next bring-up (R281), and whether VFg has been
reported high (R311). -/
structure GrpAux where
  vf        : Bool := false
  acts      : Bool := false
  fails     : List Nat := []
  unanswered : Nat := 0
  lost      : Bool := false
  applied   : Bool := false
  bringing  : Bool := false
  powerup   : Bool := false
  disc      : Nat := 0
  hbDisc    : Nat := 0
  recal     : Bool := false
  vfHigh    : Bool := false
  conv      : GrpConv := {}
deriving DecidableEq, Repr

/-- What the unlisted words of a page or of HBUF read as: ones, or free values: of undefined content (R439, R444, and HBUF at reset
by Table 19.10), of a page delivered uncorrected (R445). -/
inductive Fill where
  | ones | undef (k : Nat) | uncorr (k : Nat)
deriving DecidableEq, Repr

/-- A page of the record flash (R435): the 32-bit words of its data area and spare. prog marks a page programmed since its
block was erased; par numbers its BCH parity, free values (R436, R437). -/
structure Page where
  words : Sparse Word := []
  fill  : Fill := .ones
  prog  : Bool := false
  par   : Nat := 0
deriving DecidableEq, Repr

/-- Who started a record flash operation (R452). -/
inductive Owner where
  | host | chrys | table
deriving DecidableEq, Repr

/-- One copy of the bad-block table and erase counters in a table page (Table 16.5). -/
structure TblCopy where
  blk  : Nat
  page : Nat
  seq  : Word
  bad  : BitVec 512
  fact : BitVec 512
  cnt  : Sparse (BitVec 16)
deriving DecidableEq, Repr

/-- A record flash operation in progress on a bank: a program of a page with its image, or an erase of a block. idx is the
capsule page that Chrysalis copies, tbl the table copy that the table writer stores. -/
structure RfOp where
  erase : Bool
  block : Nat
  page  : Nat := 0
  owner : Owner
  img   : Page := {}
  idx   : Option Nat := none
  tbl   : Option TblCopy := none
deriving DecidableEq, Repr

/-- The record flash (chapter 16). pages is keyed by (64 bank + block) 256 + page, cnt and nextPg by 64 bank + block; nextPg
is the page after the highest programmed. due marks a table write that is due (R449). -/
structure RFlash where
  pages  : Sparse Page := []
  ops    : Sparse (Option RfOp) := []
  hbuf   : Page := { fill := .undef 0 }
  copies : List TblCopy := [{ blk := 0, page := 0, seq := 0, bad := 0, fact := 0, cnt := [] }]
  cnt    : Sparse (BitVec 16) := []
  bad    : BitVec 512 := 0
  fact   : BitVec 512 := 0
  due    : Bool := false
  nextPg : Sparse Nat := [(0, 1)]
deriving DecidableEq, Repr

/-- A keyframe in the trail: its number, the line it starts in, its instants, and whether KFEND is written (R469). -/
structure Kf where
  num  : Nat
  line : Nat
  lseq : BitVec 32
  raw  : Nat
  ts   : BitVec 64
  done : Bool
deriving DecidableEq, Repr

/-- What Chrysalis does in one claimed bank while it copies (R476, R480): the stripe whose block it writes, that block, whether
it is erased, the page written next, and the images to be written again after a failure. -/
structure CapBank where
  stripe : Nat := 0
  block  : Option Nat := none
  erased : Bool := false
  page   : Nat := 0
  redo   : List Page := []
deriving DecidableEq, Repr

/-- A capsule being frozen, copied, or held in the trail (R472 to R481). first is the line of its first keyframe, flseq its
LSEQ; lines, kfs and tend stand once the span has ended (post = false); sent counts the capsule pages started, blocks lists
the blocks used as 64 bank + block, lcrc is the running CRC-32C of the lines. -/
structure Cap where
  id      : Nat
  trig    : Nat
  trigObj : BitVec 16
  trigCnt : Nat := 0
  ttrig   : BitVec 64
  tstart  : BitVec 64
  tend    : BitVec 64
  win     : Word
  epoch   : Byte
  first   : Nat
  flseq   : BitVec 32
  lines   : Nat := 0
  kfs     : Nat := 0
  post    : Bool := true
  sent    : Nat := 0
  gap     : Bool := false
  atReset : Bool := false
  repl    : Bool := false
  lcrc    : Nat := 0xFFFFFFFF
  banks   : Sparse CapBank := []
  blocks  : List Nat := []
deriving DecidableEq, Repr

/-- A capsule directory entry (R482). -/
inductive CapSt where
  | durable | opened | damaged
deriving DecidableEq, Repr

/-- A capsule of the directory: its state, what its header says (R491), the block of its first page, all its blocks. -/
structure DirEnt where
  id     : Nat
  st     : CapSt
  trig   : Nat := 0
  obj    : BitVec 16 := 0xFFFF
  ttrig  : BitVec 64 := 0
  pages  : Nat := 0
  kfs    : Nat := 0
  gen    : Option Nat := none
  groups : Nat := 0
  step   : Byte := 0
  lines  : Nat := 0
  proflen : Nat := 0
  start  : Nat := 0
  blocks : List Nat := []
deriving DecidableEq, Repr

/-- A trigger held as pending (R474). -/
structure Trg where
  kind : Nat
  obj  : BitVec 16
  ts   : BitVec 64
  raw  : Nat
deriving DecidableEq, Repr

/-- A record as it stands in the trail (R468): KIND, SRC, FLAG, DT and the payload. -/
structure TrRec where
  kind    : Nat
  src     : Nat
  flag    : Nat
  dt      : Nat
  payload : List Word
deriving DecidableEq, Repr

/-- The replayed pipeline (R484, R486): the registers that its starting keyframe loads, and the input records injected since, each
with the pipeline's cycle at its injection, counted in raw ticks from the starting keyframe, the latest first. -/
structure Pipe where
  start  : Sparse Word := []
  inputs : List (Nat × TrRec) := []
deriving DecidableEq, Repr

/-- A replay in progress (R484): the capsule (none: the one held in the trail), its first keyframe, the options, the raw
count at parking, the time that the watchdog had run, the offset in the recording area of the next record to be injected and its
ordinal, the instant of the record before it, the pipeline's cycle and the raw count at which it stood there (both counted from the
starting keyframe), the replayed pipeline, and the events that wait for the live queue with the ports they were sent on. -/
structure Replay where
  id     : Option Nat
  from_  : Nat
  fast   : Bool
  nostop : Bool
  raw    : Nat
  wdRun  : Nat
  next   : Nat := 0
  ord    : Nat := 0
  at_    : Nat := 0
  cyc    : Nat := 0
  since  : Nat := 0
  pipe   : Pipe := {}
  events : List EvEntry := []
deriving DecidableEq, Repr

/-- Chrysalis (chapter 17) and the trail (R454): 64-bit words of the recording area by offset / 8, those known to be
uncorrectable, and the instant of the last one met; the epoch and its place in the trail; keyframes; the profile of the epoch;
capsules and their directory; replay. -/
structure Chrys where
  trail   : Sparse (BitVec 64) := []
  trailBad : List Nat := []
  badAt   : Option Nat := none
  run     : Bool := false
  lastAt  : Nat := 0
  lastTs  : BitVec 64 := 0
  line    : Nat := 0
  word    : Nat := 0
  lseq    : BitVec 32 := 0
  epoch   : Byte := 0
  kfNum   : Nat := 0
  kfs     : List Kf := []
  kfData  : List Word := []
  secIdx  : Nat := 0
  secBytes : Nat := 0
  secLast : Nat := 0
  gapFrom : Nat := 0
  prof    : List Word := []
  profCrc : BitVec 16 := 0
  cap     : Option Cap := none
  pend    : Option Trg := none
  trailCap : Option Cap := none
  scanned : Bool := false
  dir     : List DirEnt := []
  erasing : List (Nat × List Nat) := []
  cursor  : Sparse Nat := []
  replay  : Option Replay := none
  unread  : Bool := false
deriving DecidableEq, Repr

/-- A 64-bit word of the profile flash with its two check fields (R406). -/
structure PWord where
  data : BitVec 64 := 0xFFFFFFFFFFFFFFFF
  f1   : Bool := false
  f2   : Bool := false
  ecc  : Ecc := .ok
deriving DecidableEq, Repr

/-- An operation in progress in a profile bank (R404, R412, R423, R425). Addresses are offsets in the 4 MiB. prof marks an
erase that a prof form started; a swap runs through its three steps, with both banks busy. -/
inductive PfKind where
  | program (a : Nat) (v : BitVec 64)
  | eraseSector (a : Nat) (rest : List Nat) (prof : Bool)
  | eraseBank (prof : Bool)
  | setPw (v : BitVec 64)
  | protect (k : Nat)
  | swap (stage slot : Nat) (crc : BitVec 16) (gen : Nat)
  | tally (n : Nat) (v : BitVec 64) (a : Nat) (seq : BitVec 16)
  | ladderErase (n : Nat) (v : BitVec 64) (a : Nat) (seq : BitVec 16)
deriving DecidableEq, Repr

/-- The sequencer of a bank (R404): step 0 is IDLE, then 1 to 3; at step 3 the command byte, the target of a program
and the held low word. -/
structure PfSeq where
  step : Nat := 0
  cmd  : Nat := 0
  addr : Nat := 0
  low  : Option Word := none
deriving DecidableEq, Repr

/-- The index entry of a ladder (R429): the persisted value if one is committed, the active sector, the next free pair,
and whether the last snapshot failed. -/
structure Ladder where
  value  : Option (BitVec 16 × BitVec 64) := none
  sector : Nat := 0
  next   : Nat := 0
  failed : Bool := false
deriving DecidableEq, Repr

/-- The profile flash (chapter 15): words by offset / 8, the operation and the sequencer of each bank, the lines that wait
for an operation to answer, the index of the ladders, and the snapshots that wait in order of trigger. -/
structure PFlash where
  words : Sparse PWord := []
  ops   : Sparse (Option PfKind) := []
  seqs  : Sparse PfSeq := []
  who   : Sparse (Option Line) := []
  index : Sparse Ladder := []
  queue : List (Nat × BitVec 64) := []
deriving DecidableEq, Repr

/-- A MAIL fragment (Table 12.7): dest is none for a broadcast, second marks FRAG. reset: when it has been sent, the reset of a dev
reset begins (R67). -/
structure MailFrag where
  dest   : Option Node
  origin : Node
  tag    : Option (BitVec 16)
  text   : List Byte
  last   : Bool
  second : Bool
  port   : Ep
  dup    : Bool
  resp   : Bool
  reset  : Bool := false
deriving DecidableEq, Repr

/-- A first fragment that waits for its second (R344). -/
structure Part where
  frag  : MailFrag
  round : Nat
deriving DecidableEq, Repr

/-- A frame put out by a port of a controller, with the CLK_R count at which it began to leave: an own one, or one passed on (R319).
The port of the frame is the one that it left by. -/
structure Sent where
  at_   : Nat
  frame : Frame
deriving DecidableEq, Repr

/-- A frame as it is assembled for its launch (Tables 12.1, 12.2). -/
structure TxFrame where
  slot   : Nat
  kind   : Nat
  source : Node
  len    : Nat
  age    : Nat
  seq    : Nat
  cells  : List Word
deriving DecidableEq, Repr

/-- An owned slot (R334, R336): a commit since the last assembly, content committed and not sent since (R323), its LEN, AGE, SEQ, a
commit since the controller left RUN, the cells of SEND, and the frame assembled for the next launch. -/
structure TxSlot where
  commit : Bool := false
  owed   : Bool := false
  len    : Nat := 0
  age    : Nat := 0
  seq    : Nat := 0
  since  : Bool := false
  send   : List Word := []
  ready  : Option TxFrame := none
deriving DecidableEq, Repr

/-- A port of a controller (R363, R380): rounds of the last 16 in which a counter rose, newest first, and whether one has
risen in this round. -/
structure RingPort where
  hist : List Bool := []
  rose : Bool := false
deriving DecidableEq, Repr

/-- What the spec implies of a Ringlet controller beside its registers. pos and fixed: the position (R360, R361); fromSt
and cands: the state it came from and the candidates tracked (R351); begun: a round has begun since the position was fixed
(R349); probe: the position searched; mute: nothing is sent in this round (R330); stop: 0 none, 1 to be announced, 2 the
last round (R331); round: the current round number; marks: those accepted in RUN; meas: N_meas; markAt, markTs, prev: the
last mark and the last accepted ROUND (R333); misId: the differing SCHEDID last received (R326); bkWait: the listening began through S7 or ring start (R357); sleep: the
entry round and M of a Cocoon (R373); wake: the round awaited after one, its M, and the count at which the timer fired (R375); good: the found wakes in a row with
a small correction (R376); huntAt: the CLK_R count at which the header of the last mark match examined had passed (R390). -/
structure RingAux where
  pos    : Nat := 0
  fixed  : Bool := false
  hop    : Bool := false
  fromSt : Nat := 1
  cands  : Nat := 0
  begun  : Bool := false
  probe  : Nat := 0
  mute   : Bool := false
  stop   : Nat := 0
  round  : Word := 0
  marks  : Nat := 0
  meas   : Nat := 0
  markAt : Option Nat := none
  markTs : BitVec 64 := 0
  prev   : Option (BitVec 64 × Nat) := none
  misId  : Option Word := none
  bkWait : Bool := false
  sleep  : Option (Word × Nat) := none
  wake   : Option (Word × Nat × Nat) := none
  good   : Nat := 0
  huntAt : Option Nat := none
  slots  : Sparse TxSlot := []
  queue  : List MailFrag := []
  parts  : List Part := []
  port0  : RingPort := {}
  port1  : RingPort := {}
  tx     : List Sent := []
deriving DecidableEq, Repr

/-- The machine. pending is the queue of waiting commands, first in first out. evNew holds the events of the step that
runs (flushed into evq in the order of R312 when it ends). freeIdx counts the free values drawn. syncs holds the sync edges
set, each with its strobe edge and the mask of its groups (R272). -/
structure State where
  pending : List Instr := []
  member  : Member := .g8
  uid     : BitVec 128 := 0
  freeIdx : Nat := 1
  regs    : Sparse Word := []
  sup     : Sup := {}
  clk     : Clk := {}
  cp0     : Port := {}
  cp1     : Port := {}
  mail    : Port := {}
  evq     : List EvEntry := []
  evNext  : BitVec 16 := 0
  evNew   : List Event := []
  wdog    : Wdog := {}
  pwFails : Nat := 0
  session : Bool := false
  chn     : Sparse ChanAux := []
  grp     : Sparse GrpAux := []
  rf      : RFlash := {}
  pf      : PFlash := {}
  chrys   : Chrys := {}
  syncs   : List (Nat × Nat) := []
  ring    : Sparse RingAux := []
  kat     : Sparse Nat := []
  s5regs  : Sparse Word := []
deriving DecidableEq, Repr

/-- The machine right after power is applied: held in power-on reset (R33), S0, every register at its reset value.
DESIGN CHOICE: assumption 3. -/
def State.reset : State := { regs := [(0x28, 1)] }

end Sys2Proof.Machine
end

