-- ==== Sys2Proof/Machine/Basic.lean ====
section
/-!
DEFINITION. Bit fields, the sparse stores, the address map of chapter 19 with its reset values, and the accessors of
registers, channels and groups.
-/
namespace Sys2Proof.Machine

/-! ### Bit fields -/

/-- The field of w bits at bit lo, as a number. -/
def bits (x : Word) (lo w : Nat) : Nat := (x.toNat >>> lo) % 2 ^ w

/-- Bit i. -/
def bit (x : Word) (i : Nat) : Bool := x.getLsbD i

/-- x with the field of w bits at bit lo replaced by v modulo 2 ^ w. -/
def setBits (x : Word) (lo w v : Nat) : Word :=
  (x &&& ~~~(BitVec.ofNat 32 ((2 ^ w - 1) <<< lo))) ||| BitVec.ofNat 32 ((v % 2 ^ w) <<< lo)

/-- x with bit i set to b. -/
def setBit (x : Word) (i : Nat) (b : Bool) : Word := setBits x i 1 b.toNat

/-- A field read as a two's complement number of w bits. -/
def sext (w v : Nat) : Int := if v < 2 ^ (w - 1) then (v : Int) else (v : Int) - 2 ^ w

/-- A number as a word, modulo 2 ^ 32. -/
def word (v : Nat) : Word := BitVec.ofNat 32 v

/-- An integer as a word in two's complement. -/
def wordI (v : Int) : Word := BitVec.ofInt 32 v

/-- v held between lo and hi. -/
def clamp (lo hi v : Nat) : Nat := if v < lo then lo else if hi < v then hi else v

/-- v held between lo and hi, signed. -/
def clampI (lo hi v : Int) : Int := if v < lo then lo else if hi < v then hi else v

/-- The quotient rounded up. -/
def ceilDiv (a b : Nat) : Nat := (a + b - 1) / b

/-! ### Sparse stores -/

/-- What a store with default d holds at key k. -/
def sget {α : Type} (d : α) : Sparse α → Nat → α
  | [], _ => d
  | (i, v) :: m, k => if i = k then v else sget d m k

/-- A store without the cell of key k. -/
def sdel {α : Type} : Sparse α → Nat → Sparse α
  | [], _ => []
  | (i, v) :: m, k => if i = k then m else (i, v) :: sdel m k

/-- A store with the cell (k, v) put in its place in the rising order. -/
def sput {α : Type} : Sparse α → Nat → α → Sparse α
  | [], k, v => [(k, v)]
  | (i, x) :: m, k, v =>
    if k < i then (k, v) :: (i, x) :: m
    else if i = k then (k, v) :: m
    else (i, x) :: sput m k v

/-- A store with value v at key k, whose unlisted value is d: the canonical form is kept. -/
def sset {α : Type} [DecidableEq α] (d : α) (m : Sparse α) (k : Nat) (v : α) : Sparse α :=
  if v = d then sdel m k else sput m k v

/-- The canonical form: keys strictly rising, no cell equal to what an unlisted key reads as. -/
def swf {α : Type} [DecidableEq α] (d : Nat → α) : Sparse α → Bool
  | [] => true
  | [(k, v)] => decide (v ≠ d k)
  | (k, v) :: (k', v') :: m => decide (v ≠ d k) && decide (k < k') && swf d ((k', v') :: m)

/-! ### The member -/

/-- Field groups (Table 1.3). -/
def Member.groups : Member → Nat
  | .g1 => 1 | .g2 => 2 | .g4 => 4 | .g8 => 8

/-- Channels (Table 1.3). -/
def Member.channels (m : Member) : Nat := 16 * m.groups

/-- Ringlet ports (Table 1.3). -/
def Member.ports : Member → Nat
  | .g1 => 2 | .g2 => 2 | .g4 => 4 | .g8 => 4

/-- Ringlet controllers (Table 1.3). -/
def Member.rings (m : Member) : Nat := m.ports / 2

/-- Skipper reflexes (Table 1.3, R212). -/
def Member.reflexes : Member → Nat
  | .g1 => 8 | .g2 => 12 | .g4 => 20 | .g8 => 32

/-- Banks of the record flash (Table 16.1). -/
def Member.banks (m : Member) : Nat := m.groups

/-- The recording area of the trail in bytes (Table 16.6). -/
def Member.trailSize : Member → Nat
  | .g1 => 0xF00000 | .g2 => 0x1F00000 | .g4 => 0x3F00000 | .g8 => 0x7F00000

/-- SYS.ID (R29, Table 1.5). -/
def Member.sysId : Member → Word
  | .g1 => 0x504C1221 | .g2 => 0x504C2221 | .g4 => 0x504C4421 | .g8 => 0x504C8421

/-- The member's name (R65). -/
def Member.name : Member → String
  | .g1 => "PLY-G1" | .g2 => "PLY-G2" | .g4 => "PLY-G4" | .g8 => "PLY-G8"

/-! ### Addresses (chapter 19) -/

/-- Register o of channel n (R533). -/
def chA (n o : Nat) : Nat := 0x10000000 + 0x1000000 * (n / 16) + 0x1000 * (n % 16) + o

/-- Register o of the common registers of group g (R533). -/
def grA (g o : Nat) : Nat := 0x10000000 + 0x1000000 * g + 0x100000 + o

/-- The cause register of group g (R316). -/
def aSafeGrp (g : Nat) : Nat := 0x30010 + 4 * g
/-- The cause register of channel n (R316). -/
def aSafeCh (n : Nat) : Nat := 0x30100 + 4 * n
/-- The safe state of channel n (R316). -/
def aChst (n : Nat) : Nat := 0x30300 + 4 * n
/-- SYS.GFENCEg (R73). -/
def aGfence (g : Nat) : Nat := 0x40 + 4 * g
/-- Reflex register o of reflex k (R212). -/
def skA (k o : Nat) : Nat := 0x60100 + 0x20 * k + o
/-- Ringlet register o of controller c (Table 19.7). -/
def rgA (c o : Nat) : Nat := 0x50000 + 0x100 * c + o

/-- The reset word of a channel register. Offsets from 0x140 hold the DOH set, from 0x240 the AI set and from 0x340
the AO set, moved by 0x100, 0x200 and 0x300 so that every set has a home of its own (R530). -/
def chReset (c o : Nat) : Word :=
  if o = 0x008 then 0x64 else
  if o = 0x014 then 0x2 else
  if o = 0x040 then 0x0A000000 else
  if o = 0x044 then 0x4E20 else
  if o = 0x140 then 0x1414000A else
  if o = 0x144 then 0x50 else
  if o = 0x148 then 0x100 else
  if o = 0x244 then 0x32 else
  if o = 0x340 then 0x0064000A else
  if o = 0x344 then 0x0064000A else
  if o = 0x080 then 0x5 else
  if o = 0x084 then word (0x40000 * c) else
  if o = 0x088 then 0x10000 else 0

/-- The reset word of a group common register (Table 19.11). -/
def grReset (o : Nat) : Word :=
  if o = 0x0C then 0x8000 else
  if o = 0x40 then 0x10000 else
  if o = 0x44 then 0x100A else
  if o = 0x48 then 0x80 else
  if o = 0x54 then 0x00640510 else
  if o = 0x58 then 0x4 else 0

/-- The reset word of a register of the system blocks (Tables 19.3 to 19.10). -/
def sysReset (a : Nat) : Word :=
  if a = 0x34 then 0x8000 else
  if a = 0x20000 then 0x03E80000 else
  if a = 0x20010 then 0x03E80030 else
  if a = 0x30004 then 0x00010001 else
  if a = 0x50008 ∨ a = 0x50108 then 0x10000 else
  if a = 0x5000C ∨ a = 0x5010C then 0x3E8 else
  if a = 0x50048 ∨ a = 0x50148 then 0x64 else
  if 0x50800 ≤ a ∧ a < 0x50C00 ∧ a % 8 = 4 then 0x3 else
  if 0x60100 ≤ a ∧ a < 0x60500 ∧ a % 0x20 = 8 then 0x1 else
  if a = 0x70000 then 0x3 else
  if a = 0x70008 then 0x13F else
  if a = 0x7000C then 0x0005001E else
  if a = 0x70010 ∨ a = 0x70014 then 0x3E8 else 0

/-- What a register reads as after reset, by its key in the store (R529). -/
def resetWord (k : Nat) : Word :=
  if k < 0x10000000 then sysReset k
  else if k < 0x18000000 then
    (if k % 0x1000000 < 0x10000 then chReset (k % 0x1000000 / 0x1000) (k % 0x1000)
     else if 0x100000 ≤ k % 0x1000000 then grReset (k % 0x1000000 - 0x100000) else 0)
  else 0

/-! ### Register accessors -/

/-- The stored register at key k. -/
def State.reg (s : State) (k : Nat) : Word := sget (resetWord k) s.regs k

/-- The state with the register at key k set. -/
def State.setReg (s : State) (k : Nat) (v : Word) : State := { s with regs := sset (resetWord k) s.regs k v }

/-- A field of a register. -/
def State.fld (s : State) (k lo w : Nat) : Nat := bits (s.reg k) lo w

/-- The state with a field of a register set. -/
def State.setFld (s : State) (k lo w v : Nat) : State := s.setReg k (setBits (s.reg k) lo w v)

/-- A bit of a register. -/
def State.flag (s : State) (k i : Nat) : Bool := bit (s.reg k) i

/-- The state with a bit of a register set or cleared. -/
def State.setFlag (s : State) (k i : Nat) (b : Bool) : State := s.setFld k i 1 b.toNat

/-- The state with 1 added to the 32-bit counter at key k, modulo 2 ^ 32. DEDUCED: assumption 68. -/
def State.count (s : State) (k : Nat) : State := s.setReg k (s.reg k + 1)

/-- The channel's implied state. -/
def State.ch (s : State) (n : Nat) : ChanAux := sget {} s.chn n

/-- The state with the channel's implied state replaced. -/
def State.setCh (s : State) (n : Nat) (a : ChanAux) : State := { s with chn := sset {} s.chn n a }

/-- The group's implied state. -/
def State.gr (s : State) (g : Nat) : GrpAux := sget {} s.grp g

/-- The state with the group's implied state replaced. -/
def State.setGr (s : State) (g : Nat) (a : GrpAux) : State := { s with grp := sset {} s.grp g a }

/-- The state of an entry point. -/
def State.port (s : State) : Ep → Port
  | .cp0 => s.cp0
  | .cp1 => s.cp1
  | .mail => s.mail

/-- The state with an entry point replaced. -/
def State.setPort (s : State) (e : Ep) (p : Port) : State :=
  match e with
  | .cp0 => { s with cp0 := p }
  | .cp1 => { s with cp1 := p }
  | .mail => { s with mail := p }

/-- Draws a free value's index. -/
def State.draw (s : State) : State := { s with freeIdx := s.freeIdx + 1 }

/-- f applied to the state for each number of a list, first to last. -/
def forAll (l : List Nat) (f : Nat → State → State) (s : State) : State := l.foldl (fun t n => f n t) s

/-- The channels of group g. -/
def grpChans (g : Nat) : List Nat := (List.range 16).map (16 * g + ·)

/-- Every channel of the member. -/
def State.chans (s : State) : List Nat := List.range s.member.channels

/-- Every group of the member. -/
def State.groups (s : State) : List Nat := List.range s.member.groups

end Sys2Proof.Machine
end

