-- ==== Sys2Proof/Machine/Crc.lean ====
section
/-!
DEFINITION. The four algorithms of the check-value units (R385, Table 14.1), over byte lists.
-/
namespace Sys2Proof.Machine

/-- n steps of an unreflected register of w bits with the given polynomial. -/
def crcShl (w poly : Nat) : Nat → Nat → Nat
  | 0, r => r
  | n + 1, r => crcShl w poly n (if r < 2 ^ (w - 1) then 2 * r else (2 * r % 2 ^ w) ^^^ poly)

/-- n steps of a reflected register with the given reflected polynomial. -/
def crcShr (poly : Nat) : Nat → Nat → Nat
  | 0, r => r
  | n + 1, r => crcShr poly n (if r % 2 = 0 then r / 2 else (r / 2) ^^^ poly)

/-- An unreflected CRC of w bits, each byte most significant bit first. -/
def crcMsb (w poly init : Nat) (l : List Byte) : Nat :=
  l.foldl (fun r b => crcShl w poly 8 (r ^^^ (b.toNat * 2 ^ (w - 8)))) init

/-- A reflected 32-bit CRC, initial all ones, with the final inversion. -/
def crcLsb (poly : Nat) (l : List Byte) : Nat :=
  (l.foldl (fun r b => crcShr poly 8 (r ^^^ b.toNat)) 0xFFFFFFFF) ^^^ 0xFFFFFFFF

/-- The header check HCHK: CRC-8, polynomial 0x2F, initial 0xFF (R385). -/
def crc8 (l : List Byte) : Nat := crcMsb 8 0x2F 0xFF l

/-- The CRC suffix and the tag fingerprint: CRC-16, polynomial 0x1021, initial 0xFFFF (R115, R118). -/
def crc16 (l : List Byte) : Nat := crcMsb 16 0x1021 0xFFFF l

/-- The frame CRC: CRC-32, polynomial 0x04C11DB7 reflected (R385). -/
def crc32 (l : List Byte) : Nat := crcLsb 0xEDB88320 l

/-- The block CRC: CRC-32C, polynomial 0x1EDC6F41 reflected (R385). -/
def crc32c (l : List Byte) : Nat := crcLsb 0x82F63B78 l

/-- The four bytes of a word, least significant first. -/
def wordBytes (x : Word) : List Byte := [x.extractLsb' 0 8, x.extractLsb' 8 8, x.extractLsb' 16 8, x.extractLsb' 24 8]

/-- The bytes of a list of words, each least significant byte first. -/
def wordsBytes (l : List Word) : List Byte := l.foldr (fun x r => wordBytes x ++ r) []

/-- Four bytes as a word, least significant first. -/
def leWord (a b c d : Byte) : Word := (d ++ c ++ b ++ a : BitVec 32)

/-- A byte list as words, least significant byte first, padded with zero bytes. -/
def bytesWords : List Byte → List Word
  | [] => []
  | [a] => [leWord a 0 0 0]
  | [a, b] => [leWord a b 0 0]
  | [a, b, c] => [leWord a b c 0]
  | a :: b :: c :: d :: r => leWord a b c d :: bytesWords r

/-- The low and high word of a 64-bit value. -/
def halves (x : BitVec 64) : List Word := [x.extractLsb' 0 32, x.extractLsb' 32 32]

end Sys2Proof.Machine
end

