-- ==== Sys2Proof/Machine/Trail.lean ====
section
/-!
DEFINITION. The record stream of Chrysalis in the trail (R463 to R468), and the capsule that a trigger starts
(R472 to R475, R481).
-/
namespace Sys2Proof.Machine

/-- Puts an event into the events of this step; they are queued in the order of R312 when the step ends. -/
def State.emit (c : Ev) (o : Obj) (d : List Fld) (s : State) : State :=
  { s with evNew := s.evNew ++ [{ cls := c, obj := o, det := d }] }

/-- A word of an event's details. -/
def fw (x : String) : Fld := { val := .w x }
/-- A number of an event's details. -/
def fn (x : Nat) : Fld := { val := .n x }

/-! ### Tokens of value lines -/

/-- key=word. -/
def kw (k x : String) : Fld := { key := k, val := .w x }
/-- key=number. -/
def kn (k : String) (x : Nat) : Fld := { key := k, val := .n x }
/-- key=on or off. -/
def kb (k : String) (b : Bool) : Fld := { key := k, val := .w (if b then "on" else "off") }
/-- key=yes or no. -/
def ky (k : String) (b : Bool) : Fld := { key := k, val := .w (if b then "yes" else "no") }
/-- key=number with decimals. -/
def kx (k : String) (v : Int) (d : Nat) (u : String := "") : Fld := { key := k, val := .fx v d, unit := u }

/-- key=number with its sign and decimals. -/
def ks (k : String) (v : Int) (d : Nat) (u : String := "") : Fld := { key := k, val := .sfx v d, unit := u }

/-- REC.STAT. -/
def aRecStat : Nat := 0x70004

/-- Lines of the recording area (R454). -/
def State.trailLines (s : State) : Nat := s.member.trailSize / 64

/-- Bytes of the capsule stream before its lines (Table 17.3). -/
def State.capLead (s : State) : Nat := 1024 + 2048 + 4 * s.chrys.prof.length

/-- The capsule pages of which every earlier one is copied: the lowest in progress, else those started. -/
def State.copied (s : State) (c : Cap) : Nat :=
  s.rf.ops.foldl (fun n (x : Nat × Option RfOp) =>
    match x.2 with
    | some o => (match o.idx with | some j => min n j | none => n)
    | none => n) c.sent

/-- Whether line l is one of count lines from first, in a ring of total lines. -/
def lineIn (first count total l : Nat) : Bool := decide ((l + total - first % total) % total < count)

/-- Whether a line is protected: not yet copied, or held in the trail (R478, R481). -/
def State.lineProtected (s : State) (l : Nat) : Bool :=
  (match s.chrys.cap with
   | some c =>
     let copied := (s.copied c * 16380 - s.capLead) / 64
     let have_ := if c.post then (s.chrys.lseq - c.flseq).toNat else c.lines
     lineIn (c.first + copied) (have_ - copied) s.trailLines l
   | none => false) ||
  (match s.chrys.trailCap with
   | some c => lineIn c.first c.lines s.trailLines l
   | none => false)

/-- Writes a 64-bit word of the recording area; FILL follows the highest offset written (R457). -/
def State.trailPut (s : State) (i : Nat) (v : BitVec 64) : State :=
  let t := { s with chrys := { s.chrys with trail := sset 0 s.chrys.trail i v } }
  if t.fld 0x70F08 0 32 < 8 * (i + 1) then t.setReg 0x70F08 (word (8 * (i + 1))) else t

/-- Begins a line: its header word (R467). Recording pauses where the line is protected (R478). -/
def State.beginLine (s : State) : State :=
  if s.lineProtected s.chrys.line then
    { s.setFlag aRecStat 7 true with chrys := { s.chrys with gapFrom := s.clk.raw } }
  else
    let h : BitVec 64 := BitVec.ofNat 64
      (s.chrys.lseq.toNat + (s.fld 0x70020 0 8) * 2 ^ 40 + 0xC4A7 * 2 ^ 48)
    let t := s.trailPut (8 * s.chrys.line) h
    { t with chrys := { t.chrys with word := 1, kfs := t.chrys.kfs.filter (·.line ≠ s.chrys.line) } }

/-- Writes one word of the record stream; head marks the head word of a record (R467, R468). -/
def State.putStream (head : Bool) (v : BitVec 64) (s0 : State) : State :=
  let s := if s0.chrys.word = 0 then s0.beginLine else s0
  if s.flag aRecStat 7 then s else
    let c := s.chrys
    let h := sget 0 c.trail (8 * c.line)
    let t := if head && decide (h.toNat / 2 ^ 32 % 8 = 0) then
        s.trailPut (8 * c.line) (h + BitVec.ofNat 64 (c.word * 2 ^ 32)) else s
    let t := t.trailPut (8 * c.line + c.word) v
    let t := { t with chrys := { t.chrys with secBytes := t.chrys.secBytes + 8 } }
    if c.word < 7 then { t with chrys := { t.chrys with word := c.word + 1 } }
    else if c.line + 1 < t.trailLines then
      { t with chrys := { t.chrys with word := 0, line := c.line + 1, lseq := c.lseq + 1 } }
    else
      let t := t.setReg 0x70F08 (word t.member.trailSize)
      { t with chrys := { t.chrys with word := 0, line := 0, lseq := c.lseq + 1 } }

/-- The payload of a record as 64-bit words, padded with zeros (R468). -/
def pairUp : List Word → List (BitVec 64)
  | [] => []
  | [a] => [(0#32 ++ a : BitVec 64)]
  | a :: b :: r => (b ++ a : BitVec 64) :: pairUp r

/-- Closes the second that REC.RATE measures (R493). -/
def State.rateTick (s : State) : State :=
  let sec := s.clk.raw / 400000000
  if sec = s.chrys.secIdx then s
  else { s with chrys := { s.chrys with
    secLast := if sec = s.chrys.secIdx + 1 then s.chrys.secBytes else 0, secBytes := 0, secIdx := sec } }

/-- Writes a record while an epoch runs and recording is not paused (R462, R463, R468). KFDATA, KFEND and WAKE carry
DT = 0 and do not move the instant that the next DT counts from. -/
def State.record (kind src flag : Nat) (payload : List Word) (s : State) : State :=
  if s.chrys.run && !s.flag aRecStat 7 then
    let still := kind = 0x22 ∨ kind = 0x23 ∨ kind = 0x0A
    let dt := if still then 0 else s.clk.raw - s.chrys.lastAt
    let head : BitVec 64 := BitVec.ofNat 64
      (kind % 256 + (src % 256) * 2 ^ 8 + (payload.length % 256) * 2 ^ 16 + (flag % 256) * 2 ^ 24 + (dt % 2 ^ 32) * 2 ^ 32)
    let s := s.rateTick
    let s := if still then s else { s with chrys := { s.chrys with lastAt := s.clk.raw, lastTs := s.clk.ts } }
    (pairUp payload).foldl (fun t v => t.putStream false v) (s.putStream true head)
  else s

/-- A payload of n words whose coding the spec does not state: free values. DESIGN CHOICE: assumption 48. -/
def State.recordFree (kind src flag n : Nat) (s : State) : State :=
  (s.record kind src flag ((List.range n).map fun i => Config.freeWord (s.freeIdx + i)))
    |> fun t => { t with freeIdx := t.freeIdx + n }

/-- The keyframe a capsule starts at (R473): the newest complete one at or before the trigger instant minus PRE, else
the oldest complete one still in the trail, else the first one. -/
def pickKf (kfs : List Kf) (limit : Nat) : Option Kf :=
  match kfs.find? (fun k => k.done && decide (k.raw ≤ limit)) with
  | some k => some k
  | none =>
    match (kfs.filter (·.done)).getLast? with
    | some k => some k
    | none => kfs.getLast?

/-- Starts a capsule for a trigger (R473, R476): its number is one above the highest found (R482). -/
def State.startCapsule (tr : Trg) (s : State) : State :=
  let id := s.fld 0x70024 0 32 + 1
  let pre := s.fld 0x7000C 0 16
  match pickKf s.chrys.kfs (tr.raw - pre * 400000000) with
  | none => s
  | some k =>
    let c : Cap :=
      { id := id, trig := tr.kind, trigObj := tr.obj, ttrig := tr.ts, tstart := k.ts, tend := tr.ts, win := s.reg 0x7000C
        epoch := s.chrys.epoch, first := k.line, flseq := k.lseq }
    let s := (s.setReg 0x70024 (word id)).setFld aRecStat 3 2 1
    { s with chrys := { s.chrys with cap := some c } }.emit .recTrigger (.unit .chrys) [fn id, fn tr.kind]

/-- A trigger that starts no capsule: TRIGLOST counts it, REC_TRIGGER is queued without a number (R474, R481, R492). -/
def State.trigLost (kind : Nat) (s : State) : State :=
  (s.setFld aRecStat 16 16 (min 0xFFFF (s.fld aRecStat 16 16 + 1))).emit .recTrigger (.unit .chrys) [fw "-", fn kind]

/-- A trigger (R472, R474, R481): kind is the bit of REC.TRIG, or 0x1F for freeze. -/
def State.trigger (kind : Nat) (obj : BitVec 16) (s0 : State) : State :=
  if !s0.chrys.run then s0 else
    let s := s0.record 0x2D 0 0 [word kind, obj.setWidth 32]
    if s.chrys.trailCap.isSome then s.trigLost kind else
    match s.chrys.cap with
    | none => s.startCapsule { kind := kind, obj := obj, ts := s.clk.ts, raw := s.clk.raw }
    | some c =>
      if c.post then { s with chrys := { s.chrys with cap := some { c with trigCnt := min 255 (c.trigCnt + 1) } } }
      else if s.chrys.pend.isSome then s.trigLost kind
      else { s.setFlag aRecStat 5 true with
        chrys := { s.chrys with pend := some { kind := kind, obj := obj, ts := s.clk.ts, raw := s.clk.raw } } }

end Sys2Proof.Machine
end

