-- ==== Sys2Proof/Machine/Ops.lean ====
section
/-!
DEFINITION. The shared operations: events, units and fences, modes, safe causes, the output selector, Skipper's holds,
the timebase, and taking a reset.
-/
namespace Sys2Proof

/-- The bit of a group unit in SYS.GFENCEg (R73). -/
def GUn.bit : GUn → Nat
  | .link => 0 | .fe => 1 | .mod => 2 | .sar => 3 | .sw => 4 | .dac => 5 | .di => 6 | .latch => 7 | .temp => 8

/-- The fence bit of a unit: register and bit (R72, R73); the SUP, the XO and CP0 have none. -/
def Un.fenceBit : Un → Option (Nat × Nat)
  | .sup => none | .xo => none | .cp0 => none
  | .pll => some (0x30, 0) | .strap => some (0x30, 1) | .cp1 => some (0x30, 2) | .fabric => some (0x30, 3)
  | .shadow => some (0x30, 4) | .skip => some (0x30, 5) | .ring0 => some (0x30, 6) | .ring1 => some (0x30, 7)
  | .cvuL0 => some (0x30, 8) | .cvuL1 => some (0x30, 9) | .cvuL2 => some (0x30, 10) | .cvuL3 => some (0x30, 11)
  | .cvuC0 => some (0x30, 12) | .cvuC1 => some (0x30, 13) | .cvuF => some (0x30, 14) | .pflash => some (0x30, 15)
  | .rflash => some (0x30, 16) | .trail => some (0x30, 17) | .chrys => some (0x30, 18) | .safe => some (0x30, 19)
  | .grp g k => some (0x40 + 4 * g, k.bit)

/-- The unit order of R534. -/
def Un.order : Un → Nat
  | .sup => 0 | .xo => 1 | .pll => 2 | .strap => 3 | .cp0 => 4 | .cp1 => 5 | .safe => 6 | .fabric => 7 | .shadow => 8
  | .skip => 9 | .ring0 => 10 | .ring1 => 11 | .cvuL0 => 12 | .cvuL1 => 13 | .cvuL2 => 14 | .cvuL3 => 15
  | .cvuC0 => 16 | .cvuC1 => 17 | .cvuF => 18 | .pflash => 19 | .rflash => 20 | .trail => 21 | .chrys => 22
  | .grp g k => 23 + 9 * g + k.bit

/-- The source number of a FENCE record (Table 17.1). -/
def Un.fenceSrc : Un → Nat
  | .grp g k => 0x40 + 16 * g + k.bit
  | u => match u.fenceBit with
    | some (_, b) => b
    | none => 0xFF

/-- The global index of a channel. -/
def ChRef.n (r : ChRef) : Nat := 16 * r.g + r.c

/-- The code of a mode. -/
def Mode.code : Mode → Nat
  | .off => 0 | .di => 1 | .dic => 2 | .doh => 3 | .dof => 4 | .aic => 5 | .aiv => 6 | .air => 7 | .aoc => 8 | .aov => 9

end Sys2Proof

namespace Sys2Proof.Machine

/-! ### Units (R72, R73, R534) -/

/-- The system units in the order of R534. -/
def sysUnits : List Un :=
  [.sup, .xo, .pll, .strap, .cp0, .cp1, .safe, .fabric, .shadow, .skip, .ring0, .ring1, .cvuL0, .cvuL1, .cvuL2, .cvuL3,
   .cvuC0, .cvuC1, .cvuF, .pflash, .rflash, .trail, .chrys]

/-- The units of a group in the order of R534. -/
def grpUnits (g : Nat) : List Un :=
  [GUn.link, .fe, .mod, .sar, .sw, .dac, .di, .latch, .temp].map (Un.grp g)

/-- Every unit of the member in the order of R534. -/
def State.units (s : State) : List Un := sysUnits ++ s.groups.flatMap grpUnits

/-- Whether the member has the unit (Table 1.3, R27). -/
def State.hasUnit (s : State) : Un → Bool
  | .ring1 => decide (s.member.rings = 2)
  | .cvuL2 => decide (s.member.rings = 2)
  | .cvuL3 => decide (s.member.rings = 2)
  | .grp g _ => decide (g < s.member.groups)
  | _ => true

/-- Whether a unit is fenced; a fenced CP0 is the floor (R26). -/
def State.fenced (s : State) (u : Un) : Bool :=
  match u with
  | .cp0 => s.sup.floor
  | u => match u.fenceBit with
    | some (a, b) => s.flag a b
    | none => false

/-- Whether a unit of a group is fenced. -/
def State.gFenced (s : State) (g : Nat) (k : GUn) : Bool := s.fenced (.grp g k)

/-- The number of fenced units (R65). -/
def State.fenceCount (s : State) : Nat := (s.units.filter (s.fenced ·)).length

/-- Whether the part gives no clocked service: held in reset, before S2, or at the floor. -/
def State.dead (s : State) : Bool := s.sup.inReset || decide (s.sup.stage < 2) || s.sup.floor

/-- Whether a controller is in COCOON, where the PLL, the links and the ports stand still (R374). -/
def State.asleep (s : State) : Bool := decide (s.fld 0x50000 0 4 = 6) || decide (s.fld 0x50100 0 4 = 6)

/-- Whether the part runs outside crawl mode, from S8 (R41). -/
def State.running (s : State) : Bool := !s.dead && !s.sup.crawl && decide (s.sup.stage = 8)

/-! ### Events (R129, R312) -/

/-- Within one object: condition events of Table 11.5, SAFE_ENTER, SAFE_CLEAR, SAFE_RELEASE, then other chapters. -/
def Ev.kind : Ev → Nat
  | .safeEnter => 1
  | .safeClear => 2
  | .safeRelease => 3
  | e => if e.ctorIdx ≤ Ev.ageLimit.ctorIdx then 0 else 4

/-- The rank of an object: device, groups, channels, units (R312); time events rank at device scope. -/
def Obj.rank : Obj → Nat
  | .dev => 0
  | .grp g => 1000 + g
  | .ch n => 2000 + n
  | .unit u => 3000 + u.order
  | .none => 4000

/-- The reflex number of a skip event, which ranks several of one step (R312); 0 of every other event. -/
def Event.reflex (e : Event) : Nat :=
  match e.cls, e.det with
  | .skip, { val := .n k, .. } :: _ => k.toNat
  | _, _ => 0

/-- The place of an event in its cycle (R312). -/
def Event.rank (e : Event) : Nat :=
  ((match e.cls with
   | .timeStep => 0 | .timeSlewed => 0 | .timeSlewcut => 0
   | .skip => 3000 + Un.skip.order
   | _ => e.obj.rank) * 10000 + e.cls.kind * 1000 + e.cls.ctorIdx) * 100 + e.reflex

/-- Inserts an event before the first that does not rank ahead of it. -/
def evInsert (e : Event) : List Event → List Event
  | [] => [e]
  | x :: l => if x.rank < e.rank then x :: evInsert e l else e :: x :: l

/-- The events of a cycle in queue order; equal ranks keep their order. -/
def evSort : List Event → List Event
  | [] => []
  | e :: l => evInsert e (evSort l)

/-- Queues one event: sequence number and timestamp, the event's own where it carries one; a full queue drops its oldest entry and
sets OVF (R129). -/
def State.pushEvent (s : State) (e : Event) : State :=
  let x : EvEntry := { seq := s.evNext, ts := e.own.getD s.clk.ts, ev := e }
  if s.evq.length < 256 then { s with evq := s.evq ++ [x], evNext := s.evNext + 1 }
  else { s.setFlag 0x20020 9 true with evq := s.evq.tail ++ [x], evNext := s.evNext + 1 }

/-- The object of a trigger in a capsule header (Table 17.4). -/
def Obj.trig : Obj → BitVec 16
  | .ch n => BitVec.ofNat 16 n
  | .grp g => BitVec.ofNat 16 (0x100 + g)
  | .unit (.grp g k) => BitVec.ofNat 16 (0x200 + 0x40 + 16 * g + k.bit)
  | .unit u => match u.fenceBit with
    | some (_, b) => BitVec.ofNat 16 (0x200 + b)
    | Option.none => 0xFFFF
  | _ => 0xFFFF

/-- The bit of REC.TRIG that an event answers to (Table 17.8). -/
def Event.trigBit (e : Event) : Option Nat :=
  match e.cls, e.det with
  | .shortTrip, _ => some 0 | .limitTrip, _ => some 0 | .fuseTrip, _ => some 0 | .thermalTrip, _ => some 0
  | .safeEnter, { val := .cause b, .. } :: _ =>
    if b = 12 then some 1
    else if b = 2 ∨ b = 3 ∨ b = 4 then some 2
    else if b = 6 ∨ b = 9 ∨ b = 10 ∨ b = 11 then some 3
    else none
  | .ageLimit, _ => some 4
  | .unitFenced, _ => some 5
  | .window, _ => some 6
  | .markLoss, _ => some 7 | .tkTakeover, _ => some 7 | .wakeMiss, _ => some 7 | .suspectUpstream, _ => some 7
  | .skip, _ => some 9
  | _, _ => none

/-- The lowest selected trigger bit among events, with its object (R472, R474). -/
def State.pickTrig (s : State) : List Event → Option (Nat × BitVec 16)
  | [] => none
  | e :: l =>
    let r := s.pickTrig l
    match e.trigBit with
    | some b =>
      if s.flag 0x70008 b then
        match r with
        | some (b', o') => if b' < b then some (b', o') else some (b, e.obj.trig)
        | none => some (b, e.obj.trig)
      else r
    | none => r

/-- Ends a step: an event selected in REC.TRIG freezes a capsule, then the events of the step enter the queue in the
order of R312. DEDUCED: assumption 10. -/
def State.flush (s : State) : State :=
  match s.evNew with
  | [] => s
  | l =>
    let t := match s.pickTrig l with
      | some (b, o) => s.trigger b o
      | none => s
    (evSort t.evNew).foldl State.pushEvent { t with evNew := [] }

/-- The outcome of every meaning: the next state, its events queued. -/
def done (s : State) : Host.Outcome State Fault Refusal := .next s.flush

/-! ### Modes (Table 5.2) -/

/-- The stored mode of a channel. -/
def State.mode (s : State) (n : Nat) : Nat := s.fld (chA n 0) 0 4

/-- DOH, DOF, AOC and AOV are the output modes (R299). -/
def isOut (m : Nat) : Bool := decide (m = 3 ∨ m = 4 ∨ m = 8 ∨ m = 9)
/-- DI and DIC. -/
def isDi (m : Nat) : Bool := decide (m = 1 ∨ m = 2)
/-- AIC, AIV and AIR. -/
def isAi (m : Nat) : Bool := decide (m = 5 ∨ m = 6 ∨ m = 7)
/-- AOC and AOV. -/
def isAo (m : Nat) : Bool := decide (m = 8 ∨ m = 9)

/-- STAT of a channel. -/
def aStat (n : Nat) : Nat := chA n 0x14
/-- GSTAT of a group. -/
def aGstat (g : Nat) : Nat := grA g 0

/-- Whether a group is reported powered (GSTAT[0]). -/
def State.powered (s : State) (g : Nat) : Bool := s.flag (aGstat g) 0
/-- Whether a group's link is up (GSTAT[1]). -/
def State.linkUp (s : State) (g : Nat) : Bool := s.flag (aGstat g) 1

/-- Whether the stored mode of a channel is active at the group (R162, R539). -/
def State.active (s : State) (n : Nat) : Bool :=
  (s.ch n).isApplied && decide ((s.ch n).applied.toNat = s.mode n)

/-! ### Safe causes (Table 11.1) -/

/-- The causes of the three scopes on a channel: the HELD bits. -/
def State.heldOn (s : State) (n : Nat) : Nat :=
  s.fld 0x30004 0 16 ||| s.fld (aSafeGrp (n / 16)) 0 16 ||| s.fld (aSafeCh n) 0 16

/-- The state of a channel, Table 11.2. -/
def State.chst (s : State) (n : Nat) : Nat := s.fld (aChst n) 0 2

/-- Whether an output channel is in safe state (R299). -/
def State.inSafe (s : State) (n : Nat) : Bool := isOut (s.mode n) && decide (s.chst n ≠ 0)

/-- The highest code of an analogue output mode (R247). -/
def aoMax (m : Nat) : Nat := if m = 8 then 64000 else 56000

/-- A code held to the mode's maximum (R247). -/
def aoClamp (m : Nat) (v : BitVec 16) : BitVec 16 := BitVec.ofNat 16 (min (aoMax m) v.toNat)

/-- A held value as a mode drives it: a code held to its maximum, or a switch on for any value but 0. -/
def heldAs (m : Nat) (v : BitVec 16) : BitVec 16 := if isAo m then aoClamp m v else if v = 0 then 0 else 1

/-- Whether R153 puts OFF in the place of ON: the DOH holds FENCE because sar or sw of its group is fenced. -/
def State.onBarred (s : State) (n : Nat) : Bool :=
  s.flag (aSafeCh n) 13 && (s.gFenced (n / 16) .sar || s.gFenced (n / 16) .sw)

/-- The value that SAFE drives (Table 5.1, R153, R304): OFF in EXPIRED, whatever the kind is then (Table 11.2). DEDUCED:
assumption 83. -/
def State.safeVal (s : State) (n : Nat) : BitVec 16 :=
  let w := s.reg (chA n 4)
  let m := s.mode n
  if s.chst n = 2 then 0 else
  match bits w 0 2 with
  | 1 => if m = 3 ∧ !s.onBarred n then 1 else 0
  | 2 => if isAo m then aoClamp m (w.extractLsb' 16 16) else 0
  | 3 => if (s.ch n).holding then heldAs m (s.ch n).held else 0
  | _ => 0

/-- The mode whose circuits the front end of a channel has enabled. -/
def State.feMode (s : State) (n : Nat) : Nat := (s.ch n).applied.toNat

/-- The value that the group safe latch drives on its own (R146, R148, R17): OFF where nothing has been loaded. -/
def State.latchVal (s : State) (n : Nat) : BitVec 16 :=
  let l := (s.ch n).latch
  let m := s.feMode n
  match bits l.safe 0 2 with
  | 1 => if m = 3 then 1 else 0
  | 2 => if isAo m then aoClamp m (l.safe.extractLsb' 16 16) else 0
  | 3 => heldAs m (l.held.getD 0)
  | _ => 0

/-- Whether a DOH is held off by a trip, or a DOF by an overload (R219, R209): rank 0. -/
def State.prot (s : State) (n : Nat) : Bool :=
  (decide (s.mode n = 3) || decide (s.mode n = 4)) && s.flag (aStat n) 16

/-- Whether a limiter acts at rank 0 without turning the output off (Table 1.2): INLIMIT of a DOH (R219), COMPLY of an AOV
(R249). -/
def State.limits (s : State) (n : Nat) : Bool :=
  (decide (s.mode n = 3) && s.flag (aStat n) 24) || (decide (s.mode n = 9) && s.flag (aStat n) 18)

/-- What the output selector selects (R20, Table 1.2): the rank and the value. A terminal is undriven without the group's field
supply, with its latch or, for an analogue output, its DACs fenced, and while the front end has no output mode enabled (R15,
Table 2.8, Table 5.4). While the latch acts on its own it stands for SAFE. -/
def State.selects (s : State) (n : Nat) : Nat × BitVec 16 :=
  let g := n / 16
  let m := s.feMode n
  if !isOut m || !(s.gr g).vf || s.gFenced g .latch || (isAo m && s.gFenced g .dac) then (4, 0)
  else if s.prot n then (3, 0)
  else if (s.gr g).acts then (2, s.latchVal n)
  else if s.chst n ≠ 0 then (2, s.safeVal n)
  else match (s.ch n).hold with
    | some h => (1, if h.val then 1 else 0)
    | none => (0, if isAo m then aoClamp m ((s.reg (chA n 0xC)).extractLsb' 0 16) else (s.reg (chA n 0xC)).extractLsb' 0 1 |>.setWidth 16)

/-- The output as DRIVE codes it (R20, R166): BY, and the value at the terminal. A limiter that acts is the highest rank, and the
value is that of the rank which it limits. -/
def State.drive (s : State) (n : Nat) : Nat × BitVec 16 :=
  let x := s.selects n
  if x.1 ≠ 4 ∧ s.limits n = true then (3, x.2) else x

/-- Whether the gate of a DOH is commanded on. -/
def State.gate (s : State) (n : Nat) : Bool := decide (s.mode n = 3) && decide ((s.drive n).2 ≠ 0)

/-- Whether a window comparator raises WINDOW on channel n (R286): WEN, WACT, WTGT and the band of WIN.STAT. The target
of a window may lie in any group. -/
def State.windowOn (s : State) (n : Nat) : Bool :=
  s.chans.any fun m =>
    isAi (s.mode m) && s.flag (chA m 0x88) 0 && s.flag (chA m 0x88) 1 &&
    decide (s.fld (chA m 0x88) 4 7 = n) && decide (s.fld (chA m 0x98) 0 2 ≠ 0)

/-- Whether a channel fault of Table 11.3 stands for a channel. -/
def State.faultStands (s : State) (n : Nat) : Bool :=
  let m := s.mode n
  let x := s.reg (aStat n)
  (decide (m = 3) && bit x 16 && bit x 20) || (decide (m = 4) && bit x 16) ||
  (isAo m && ((bit x 16 && !s.flag (chA n 0x340) 8) || bit x 17 || s.flag (grA (n / 16) 0x58) 0)) || s.windowOn n

/-- The detail that names a cause. -/
def fcause (b : Nat) : Fld := { val := .cause b }

/-- The condition of a held cause ends (R311): SAFE_CLEAR. -/
def clearCause (k b : Nat) (o : Obj) (s : State) : State :=
  if s.fenced .safe || !s.flag k (16 + b) then s
  else (s.setFlag k (16 + b) false).emit .safeClear o [fcause b]

/-- Whether the driver of an analogue output is disabled (R255): a safe value of OFF, an expired HOLD, a fenced DAC. -/
def State.aoOff (s : State) (n : Nat) : Bool :=
  match (s.selects n).1 with
  | 4 => true
  | 2 =>
    if (s.gr (n / 16)).acts then
      match bits (s.ch n).latch.safe 0 2 with
      | 2 => false
      | 3 => (s.ch n).latch.held.isNone
      | _ => true
    else
      match s.fld (chA n 4) 0 2 with
      | 2 => decide (s.chst n = 2)
      | 3 => decide (s.chst n = 2) || !(s.ch n).holding
      | _ => true
  | _ => false

/-- A change of the driven code of an analogue output: the readbacks are excluded until they settle (R252). -/
def State.codeMoved (t : State) (n : Nat) : State :=
  let a := t.ch n
  (t.setCh n { a with conv := { a.conv with codeAt := t.clk.raw, codeN := 0 } }).setFlag (aStat n) 19 true

/-- With the driver of an analogue output disabled DEV is cleared, and its fault with it (R255). -/
def State.devOff (t : State) (n : Nat) : State :=
  if t.aoOff n && t.flag (aStat n) 16 then
    let u := t.setFlag (aStat n) 16 false
    if u.faultStands n then u else clearCause (aSafeCh n) 12 (.ch n) u
  else t

/-- What follows a change of the output selector. The inrush window follows the gate (R221): it opens at an off-to-on
transition and closes at a transition to off, where the limiter becomes inactive. The settling of an analogue output starts again
with a change of its code alone (R252). -/
def State.gateMoved (s t : State) (n : Nat) : State :=
  if isAo (t.mode n) then (if (s.drive n).2 = (t.drive n).2 then t else t.codeMoved n).devOff n
  else if !s.gate n && t.gate n then t.setFlag (aStat n) 23 true
  else if s.gate n && !t.gate n then (t.setFlag (aStat n) 23 false).setFlag (aStat n) 24 false
  else t

/-- Runs f and lets the inrush windows and the readback checks of the channels follow the output selector. -/
def withGates (l : List Nat) (f : State → State) (s : State) : State :=
  let t := f s
  l.foldl (fun u n => s.gateMoved u n) t

/-- Captures the held value of a HOLD and starts its time (R303, R536). -/
def State.capture (n : Nat) (v : BitVec 16) (s : State) : State :=
  s.setCh n { s.ch n with held := v, holdAt := s.clk.raw, holding := true }

/-- A channel that moves from no held cause to one enters SAFE and applies its safe value (R303). -/
def enterSafe (n : Nat) (s : State) : State :=
  if isOut (s.mode n) && decide (s.chst n = 0) && decide (s.heldOn n ≠ 0) then
    let v := (s.drive n).2
    let t := if s.fld (chA n 4) 0 2 = 3 then s.capture n v else s
    (t.setFld (aChst n) 0 2 1).setFlag (aStat n) 0 true
  else s

/-- A channel whose last cause has gone moves to RUN (R304). -/
def leaveSafe (n : Nat) (s : State) : State :=
  if decide (s.chst n ≠ 0) && (decide (s.heldOn n = 0) || !isOut (s.mode n)) then
    ((s.setCh n { s.ch n with holding := false }).setFld (aChst n) 0 2 0).setFlag (aStat n) 0 false
  else s

/-- The output channels of a list in safe state. -/
def State.safeCount (s : State) (l : List Nat) : Nat := (l.filter (s.inSafe ·)).length

/-- Holds cause b in the register at key k (R302, R303): SAFE_ENTER is queued when it is held or becomes present again.
With SAFE fenced no cause is held (R50). -/
def holdCause (k b : Nat) (o : Obj) (l : List Nat) (s : State) : State :=
  if s.fenced .safe || s.flag k (16 + b) then s
  else withGates l (forAll l enterSafe)
    (((s.setFlag k b true).setFlag k (16 + b) true).emit .safeEnter o [fcause b])

/-- Holds a cause that is never present after being set (Table 11.1). DEDUCED: assumption 24. -/
def pulseCause (k b : Nat) (o : Obj) (l : List Nat) (s : State) : State := clearCause k b o (holdCause k b o l s)

/-- Removes a cause: the channels that hold no other move to RUN (R304). -/
def dropCause (k b : Nat) (l : List Nat) (s : State) : State :=
  if s.flag k b then
    withGates l (forAll l leaveSafe) ((s.setFlag k b false).setFlag k (16 + b) false)
  else s

/-- Holds a device cause. -/
def holdDev (b : Nat) (s : State) : State := holdCause 0x30004 b .dev s.chans s
/-- Holds a group cause. -/
def holdGrp (b g : Nat) (s : State) : State := holdCause (aSafeGrp g) b (.grp g) (grpChans g) s
/-- Holds a channel cause; input channels and OFF hold none (R299). -/
def holdCh (b n : Nat) (s : State) : State :=
  if isOut (s.mode n) then holdCause (aSafeCh n) b (.ch n) [n] s else s

/-- The removal of FENCE, FAULT or AGE from a channel. -/
def dropCh (b n : Nat) (s : State) : State := dropCause (aSafeCh n) b [n] s

/-- Whether the row of a fenced unit in Table 2.8 holds the channel safe (R51): port 1 of a controller receives its cells while WRAPUP
is set (R363). -/
def State.fenceHolds (s : State) (n : Nat) : Bool :=
  let g := n / 16
  let m := s.mode n
  isOut m &&
  (s.sup.floor || s.fenced .pll || s.fenced .fabric || s.fenced .safe ||
   s.gFenced g .link || s.gFenced g .latch || s.gFenced g .fe ||
   (decide (m = 3) && (s.gFenced g .sar || s.gFenced g .sw || (s.fenced .shadow && decide (s.fld (chA n 0x140) 8 3 = 6)))) ||
   (isAo m && (s.gFenced g .mod || s.gFenced g .sar || s.gFenced g .dac)) ||
   (s.flag (aSafeCh n) 30 && (if s.flag (0x50800 + 8 * n) 18
      then s.fenced .ring1 || s.fenced .cvuL2 || (s.fenced .cvuL3 && s.flag 0x50144 5)
      else s.fenced .ring0 || s.fenced .cvuL0 || (s.fenced .cvuL1 && s.flag 0x50044 5))))

/-- Holds FENCE on every channel of a list that a fenced unit holds safe. -/
def holdFence (l : List Nat) (s : State) : State :=
  forAll l (fun n t => if t.fenceHolds n then holdCh 13 n t else t) s

/-! ### Channel faults (Table 11.3) -/

/-- FAULT follows the channel faults (R307). -/
def refreshFault (n : Nat) (s : State) : State :=
  if s.faultStands n then holdCh 12 n s else clearCause (aSafeCh n) 12 (.ch n) s

/-! ### Skipper's holds (R197, R198) -/

/-- Ends the hold on an output: it takes the next rank down (R23). -/
def endHold (n : Nat) (s : State) : State :=
  withGates [n] (fun t => t.setCh n { t.ch n with hold := none }) s

/-- Ends every hold of a reflex. -/
def endHoldsOf (k : Nat) (s : State) : State :=
  forAll s.chans (fun n t => match (t.ch n).hold with
    | some h => if h.k = k then endHold n t else t
    | none => t) s

/-- The target of an ACT register as a record or an event shows it. -/
def actTarget (a : Word) : Nat := bits a 4 7

/-- The payload of a mark of Skipper (Table 17.2): reflex, target, raw edge timestamp. -/
def skipMark (k : Nat) (a : Word) (ts : BitVec 64) : List Word := [word k, word (actTarget a)] ++ halves ts

/-- The action names of Table 7.2. -/
def actName (a : Word) : String :=
  match bits a 0 3 with
  | 0 => "set" | 1 => "clear" | 2 => "toggle" | 3 => "pulse" | 4 => "gsafe" | _ => "stamp"

/-- A skip event (R208): reflex, action, target, raw edge ticks, outcome. -/
def skipEvent (k : Nat) (a : Word) (ts : BitVec 64) (outcome : String) (s : State) : State :=
  let kind := bits a 0 3
  let tgt : Fld := if kind ≤ 3 then { val := .obj (actTarget a / 16) (actTarget a % 16) }
    else if kind = 4 then fw ("g" ++ toString (actTarget a / 16)) else fw "-"
  s.emit .skip (.unit .skip) [fn k, fw (actName a), tgt, fn ts.toNat, fw outcome]

/-- Whether a confirmed or committed action queues its event (R208). -/
def actNotes (a : Word) : Bool := decide (bits a 0 3 = 5) || (decide (bits a 0 3 ≤ 3) && bit a 14)

/-- Revokes the pending fire of a channel (R203, R207): each of its actions is counted and recorded, its hold ends. -/
def revokeFire (n : Nat) (s : State) : State :=
  match (s.ch n).fire with
  | none => s
  | some f =>
    let t := (s.setCh n { s.ch n with fire := none }).count (chA n 0x64)
    f.acts.foldl (fun u x =>
      let u := (u.count (skA x.k 0x14)).record 0x27 0 0 (skipMark x.k x.act f.ts)
      let u := if x.exec && u.flag 0x60004 0 then skipEvent x.k x.act f.ts "revoked" u else u
      match (u.ch (actTarget x.act)).hold with
      | some h => if h.k = x.k ∧ h.ts = f.ts ∧ h.src = n ∧ bits x.act 0 3 ≤ 3 then endHold (actTarget x.act) u else u
      | none => u) t

/-- A source group that can confirm nothing more: its pending fires are revoked and the holds on its outputs end
(R197, §7.3.5). DEDUCED: assumption 47. -/
def skipLost (g : Nat) (s : State) : State :=
  forAll (grpChans g) endHold (forAll (grpChans g) revokeFire s)

/-! ### The timebase (R79, R82, R83) -/

/-- The effective T (R83): 0 in crawl and before lock, the discipline's, or the host's trim with any slew term. -/
def State.effT (s : State) : Int :=
  if !s.sup.pllLock then 0
  else if s.clk.disc then s.clk.ringT
  else (s.reg 0x10010).toInt + (if s.clk.slewing then (if 0 ≤ s.clk.slew then 214748 else -214748) else 0)

/-- One CLK_R cycle (R79, R82, R85). Until PLL lock a root edge advances the timestamp by 16. The slew is cut to its
remainder in its last cycle. DEDUCED: assumption 22. -/
def State.tick (s : State) : State :=
  if s.dead then s
  else if s.asleep then s
  else if !s.sup.pllLock then
    { s with clk := { s.clk with raw := s.clk.raw + 16, ts := s.clk.ts + 16 } }
  else
    let host : Int := if s.clk.disc then s.clk.ringT else (s.reg 0x10010).toInt
    let term : Int := if s.clk.slewing && !s.clk.disc then clampI (-214748) 214748 s.clk.slew else 0
    let ends := s.clk.slewing && !s.clk.disc && decide (s.clk.slew.natAbs < 214748)
    let sum : Int := (s.clk.frac.toNat : Int) + host + term
    let carry : Int := if 2 ^ 32 ≤ sum then 1 else if sum < 0 then -1 else 0
    let t := { s with clk := { s.clk with
      raw := s.clk.raw + 1
      ts := s.clk.ts + BitVec.ofInt 64 (1 + carry)
      frac := BitVec.ofInt 32 sum
      slew := s.clk.slew - term
      slewing := s.clk.slewing && !ends } }
    if ends then t.emit .timeSlewed .none [] else t

/-- Ends a slew, its remainder lost. -/
def State.endSlew (s : State) : State := { s with clk := { s.clk with slew := 0, slewing := false } }

/-- Steps the timestamp (R86): F cleared, STEPPED set, the slew ended, TSTEP recorded, time step queued. The entry carries the
timestamp before the step, as the example of R144 shows it. DEDUCED: assumption 84. -/
def State.stepTime (v : BitVec 64) (s : State) : State :=
  let old := s.clk.ts
  let t := s.record 0x2A 0 0 (halves old ++ halves v)
  let t := { t with clk := { t.clk with ts := v, frac := 0, slew := 0, slewing := false } }.setFlag 0x10000 7 true
  { t with evNew := t.evNew ++ [{ cls := .timeStep, obj := .none, det := [fn old.toNat, fn v.toNat], own := some old }] }

/-- Ends the discipline of the timebase (R88): T reverts to CLK.HOSTTRIM. -/
def State.endDisc (s : State) : State := { s with clk := { s.clk with disc := false } }

/-- Sets STALE in the result slots of a list of channels (R149, Table 2.8); the readbacks of an analogue output are then excluded
(R252). -/
def setStale (l : List Nat) (s : State) : State :=
  forAll l (fun n t =>
    let t := t.setFlag (chA n 0x84) 16 true
    if isAo (t.mode n) then t.setFlag (aStat n) 19 true else t) s

/-! ### Crawl mode, the floor, and fencing (R26, R48, R309) -/

/-- The state of a Ringlet controller (R346). -/
def State.ringSt (s : State) (c : Nat) : Nat := s.fld (rgA c 0) 0 4

/-- Puts a controller in OFF; the discipline of the timebase by it ends (R83, R88). -/
def ringOff (c : Nat) (s : State) : State :=
  let t := s.setFld (rgA c 0) 0 8 0
  if s.clk.disc && decide (s.clk.discBy = c) then t.endDisc else t

/-- The latch of a group takes SAFE and HOLD of its channels while the link is up (R146), with OFF for an ON that R153 bars. -/
def loadLatch (g : Nat) (s : State) : State :=
  if s.linkUp g then
    forAll (grpChans g) (fun n t =>
      let w := t.reg (chA n 4)
      let w := if bits w 0 2 = 1 ∧ t.onBarred n = true then setBits w 0 2 0 else w
      t.setCh n { t.ch n with latch := { safe := w, max := (t.reg (chA n 8)).setWidth 16 } }) s
  else s

/-- The latch of a powered group begins to act on its own (R148, R154): it captures the terminal value of every channel whose kind
is HOLD and has not expired, and LATCHACT is set. -/
def latchAlone (g : Nat) (s : State) : State :=
  if !(s.gr g).vf || (s.gr g).acts then s else
    withGates (grpChans g) (fun t =>
      let t := forAll (grpChans g) (fun n u =>
        let a := u.ch n
        let v := if bits a.latch.safe 0 2 = 3 ∧ isOut (s.feMode n) = true ∧ s.chst n ≠ 2 then some (s.drive n).2 else none
        u.setCh n { a with latch := { a.latch with held := v } }) t
      (t.setGr g { t.gr g with acts := true }).setFlag (aGstat g) 2 true) s

/-- Every link and transmitter stops (R48, R26): the links go down, the latches act on their own, the controllers stop. -/
def stopLinks (s : State) : State :=
  let t := forAll s.groups (fun g u => (latchAlone g u).setFlag (aGstat g) 1 false) s
  ringOff 1 (ringOff 0 t)

/-- A sent item of a port. -/
def State.send (e : Ep) (x : TxItem) (s : State) : State :=
  s.setPort e { s.port e with tx := x :: (s.port e).tx }

/-- Whether a boot line or event line carries a CRC suffix (R42, R117): generated mode with CRCQ = 1, or CRCOUT. -/
def State.lineCrc (s : State) (e : Ep) : Bool :=
  let k := if e = .cp1 then 0x20010 else 0x20000
  s.flag k 0 && (s.flag 0x24 14 || s.flag k 1) && !s.fenced (if e = .cp1 then .cvuC1 else .cvuC0)

/-- Sends a boot line on CP0 (R42); with a fenced check-value unit no suffix is sent (R396). -/
def State.boot (b : Boot) (s : State) : State :=
  s.send .cp0 (.boot b (s.flag 0x20000 0 && s.flag 0x24 14 && !s.fenced .cvuC0))

/-- CP0CFG as crawl mode sets it (R48): the strapped mode, and the strapped rate or 1 Mbaud for 3 M and 12 M. -/
def State.crawlCfg (s : State) : Word :=
  let b := s.fld 0x24 15 3
  setBits (setBits (s.reg 0x20000) 0 1 (s.fld 0x24 13 1)) 4 3 (if 6 ≤ b then 5 else b)

/-- Enters crawl mode because of a fenced unit (R48, R90): the clocks run at 1/16, F is cleared, a slew ends without its
event, the links and transmitters stop, Chrysalis stops, CP0 takes its strapped mode and its crawl rate, the held S2 line is sent
before the crawl line (R42). -/
def enterCrawl (u : Un) (s : State) : State :=
  if s.sup.crawl then s else
    let t := { s with
      sup := { s.sup with crawl := true, pllLock := false }
      clk := { s.clk with frac := 0, slew := 0, slewing := false, disc := false }
      chrys := { s.chrys with run := false } }
    let t := stopLinks t
    let t := t.setReg 0x20000 t.crawlCfg
    let t := if t.sup.s2Held then { t.boot .s2 with sup := { t.sup with s2Held := false } } else t
    t.boot (.crawl u)

/-- CP0 fails (R26): the floor. -/
def enterFloor (s : State) : State :=
  stopLinks { s with sup := { s.sup with floor := true }, chrys := { s.chrys with run := false } }

/-- The channels of a fenced unit: those of its group, or every channel. -/
def State.unitChans (s : State) : Un → List Nat
  | .grp g _ => grpChans g
  | _ => s.chans

/-- What the fencing of a unit stops beside Table 2.8's causes: Skipper's holds and fires (R197, 7.3.7), a group's
measurements (R167, R301), a controller (R349), recording (R462), a group's modes and links. -/
def fenceStops (u : Un) (s : State) : State :=
  match u with
  | .skip =>
    let t := forAll s.chans (fun n v =>
      match (v.ch n).fire with
      | some f =>
        let v := f.acts.foldl (fun w x => w.record 0x28 0 0 (skipMark x.k x.act f.ts ++ [3])) v
        v.setCh n { v.ch n with fire := none }
      | none => v) s
    forAll t.chans endHold t
  | .ring0 => ringOff 0 s
  | .ring1 => ringOff 1 s
  | .shadow => ringOff 1 (ringOff 0 s)
  | .trail => { s with chrys := { s.chrys with run := false } }
  | .chrys => { s with chrys := { s.chrys with run := false } }
  | .grp g .sar => ((s.setReg (grA g 0x0C) 0x8000).setReg (grA g 0x10) 0).setFlag (aGstat g) 3 false
  | .grp g .temp => (s.setReg (grA g 0x0C) 0x8000).setFlag (aGstat g) 3 false
  | .grp g .link =>
    setStale (grpChans g) (skipLost g ((latchAlone g s).setFlag (aGstat g) 1 false))
  | .grp g .di => setStale ((grpChans g).filter fun n => isDi (s.mode n)) (forAll (grpChans g) revokeFire s)
  | _ => s

/-- Fences a unit (R45, R46, R309): its bit is set, FENCE is recorded and held by the channels of Table 2.8, and crawl
mode or the floor is entered where R48 or R26 says. run marks a run-time check, which queues UNIT_FENCED. -/
def fenceUnit (run : Bool) (u : Un) (s : State) : State :=
  if s.fenced u || !s.hasUnit u then s else
  match u with
  | .sup => s
  | .xo => s
  | .cp0 =>
    let t := s.record 0x07 u.fenceSrc 0 []
    let t := if run then t.emit .unitFenced (.unit u) [{ val := .un u }] else t
    enterFloor (holdFence s.chans { t with sup := { t.sup with floor := true } })
  | u =>
    match u.fenceBit with
    | none => s
    | some (a, b) =>
      let t := s.record 0x07 u.fenceSrc 0 []
      let t := withGates (t.unitChans u) (fun t => t.setFlag a b true) t
      let t := if run then t.emit .unitFenced (.unit u) [{ val := .un u }] else t
      let t := fenceStops u t
      let t := if u = .safe then t else holdFence (t.unitChans u) t
      let t := match u with
        | .grp g _ => loadLatch g t
        | _ => t
      if u = .pll ∨ u = .fabric ∨ u = .safe then enterCrawl u t else t

/-! ### Taking a reset (R55 to R57, Table 2.9) -/

/-- A word whose program is cut off (Table 15.4): the old data, the new data or a mixture, the field just used possibly
incomplete, the word possibly uncorrectable. -/
def PWord.cutProgram (w : PWord) (v : BitVec 64) (free : Nat) : PWord :=
  let x := Config.undefWord free 0
  let y := Config.undefWord free 1
  { data := (w.data &&& v) ||| (x &&& w.data)
    f1 := w.f1 || y.getLsbD 0
    f2 := w.f2 || (w.f1 && y.getLsbD 0)
    ecc := if y.getLsbD 1 then .bad else if y.getLsbD 2 then .corrected else .ok }

/-- Whether an offset of the profile flash holds an A word of a ladder (R424). -/
def isLadderA (a : Nat) : Bool :=
  decide (a % 16 < 8) && ((decide (0x100000 ≤ a) && decide (a < 0x180000)) || (decide (0x300000 ≤ a) && decide (a < 0x380000)))

/-- A word whose erase is cut off (Table 15.4): undefined data. The A word of a ladder is left without its second field, so that no
snapshot reads as committed that none wrote (R189, R426). DEDUCED: assumption 106. -/
def PWord.cutErase (a free : Nat) : PWord :=
  let y := Config.undefWord free 1
  { data := Config.undefWord free 0, f1 := y.getLsbD 0, f2 := y.getLsbD 1 && !isLadderA a
    ecc := if y.getLsbD 2 then .bad else if y.getLsbD 3 then .corrected else .ok }

/-- The seal word of a slot (R418). -/
def sealA (slot : Nat) : Nat := if slot = 0 then 0x3FFF8 else 0x23FFF8

/-- The words of an operation that is cut off (R410, Table 15.4). -/
def PfKind.cut (k : PfKind) (bank free : Nat) (m : Sparse PWord) : Sparse PWord :=
  let prog (a : Nat) (v : BitVec 64) (m : Sparse PWord) : Sparse PWord :=
    sset {} m (a / 8) ((sget {} m (a / 8)).cutProgram v (free + a))
  let erase (a : Nat) (m : Sparse PWord) : Sparse PWord :=
    (List.range 512).foldl (fun m i => sset {} m (a / 8 + i) (PWord.cutErase (a + 8 * i) (free + a + 8 * i))) m
  match k with
  | .program a v => prog a v m
  | .eraseSector a _ _ => erase a m
  | .eraseBank _ => (List.range 512).foldl (fun m i =>
      let a := 0x200000 * bank + 0x1000 * i
      if a < 0x3FC000 then erase a m else m) m
  | .setPw v => prog 0x3FB000 v (prog 0x1FF000 v m)
  | .protect k => prog ((if k < 4 then 0x1FF010 else 0x3FB010) + 8 * (k % 4)) 0 m
  | .swap st sl _ _ =>
    if st = 2 then prog (sealA sl) 0 m
    else if st = 3 then
      let a := sealA (1 - sl)
      prog a (((sget {} m (a / 8)).data.extractLsb' 0 48).setWidth 64) m
    else m
  | .tally _ _ a _ => prog (a + 8) 0 (prog a 0 m)
  | .ladderErase _ _ a _ => erase (a / 4096 * 4096) m

/-- Profile flash operations cut by a reset leave their targets as Table 15.4 states; a response that waits is not sent.
DESIGN CHOICE: assumption 76. -/
def PFlash.cutOff (p : PFlash) (free : Nat) : PFlash :=
  let one (m : Sparse PWord) (b : Nat) : Sparse PWord :=
    match sget none p.ops b with
    | none => m
    | some k => k.cut b free m
  { words := one (one p.words 0) 1 }

/-- A record flash operation cut by a reset leaves its page or block undefined, and may lose the lower partner of an
upper page (R444, Table 16.3). DESIGN CHOICE: assumption 76. -/
def RFlash.cutOff (r : RFlash) (free : Nat) : RFlash :=
  let one (q : RFlash) (b : Nat) : RFlash :=
    match sget none q.ops b with
    | none => q
    | some o =>
      let key (p : Nat) := (64 * b + o.block) * 256 + p
      let spoil (x : RFlash) (p : Nat) : RFlash :=
        { x with pages := sset {} x.pages (key p) { fill := .undef (free + key p), prog := true } }
      if o.erase then
        let q := if b = 0 then { q with copies := q.copies.filter fun c => c.blk ≠ o.block } else q
        (List.range 256).foldl spoil q
      else
        let x := spoil q o.page
        if o.page % 2 = 1 ∧ 5 ≤ o.page ∧ Config.losesPartner (free + key o.page) then spoil x (o.page - 5) else x
  let q := (List.range 8).foldl one r
  { pages := q.pages, copies := q.copies, nextPg := q.nextPg, hbuf := { fill := .undef (free + 0x800000) } }

/-- What a port keeps over a reset: what it has sent. -/
def Port.reset (p : Port) : Port := { tx := p.tx }

/-- What a channel keeps over a reset of the system side, at its group: the level at its terminal, the mode that its front end has
enabled, and what the latch holds for it (Table 2.9). -/
def ChanAux.reset (a : ChanAux) : ChanAux := { raw := a.raw, applied := a.applied, latch := a.latch }

/-- What a group keeps over a reset of the system side: its supply, and its latch acting on its own (Table 2.9). -/
def GrpAux.reset (a : GrpAux) : GrpAux := { vf := a.vf, acts := a.acts }

/-- What a controller leaves behind at a reset: the record of the frames that it has put out. -/
def RingAux.reset (a : RingAux) : RingAux := { tx := a.tx }

/-- Begins a reset with the cause of bit b of SYS.RSTCAUSE (R55, R57, R70). Power-on sets bit 0 alone, clears the
lockout and the kept tag, and loses the trail; every other source sets its bit and leaves the others. The barrier links fall silent
with the clocks, and the latches act on their own (R61, R148). DEDUCED: assumption 85. -/
def takeReset (b : Nat) (s0 : State) : State :=
  let s := if b = 3 then s0.record 0x05 2 0 [] else s0
  let s := if b = 3 ∨ b = 4 then s.record 0x2F 0 0 [word b] else s
  let s := forAll s.groups latchAlone s
  let cause : Word := if b = 0 then 1 else setBit (s.reg 0x28) b true
  { pending := s.pending
    ring := (s.ring.map fun x => (x.1, x.2.reset)).filter fun x => x.2 ≠ {}
    member := s.member
    uid := s.uid
    freeIdx := s.freeIdx + 0x1000000
    clk := { tjBase := s.freeIdx }
    regs := sset (resetWord 0x28) [] 0x28 cause
    sup := { vcoreOk := s.sup.vcoreOk, vioOk := s.sup.vioOk, safeLow := false, resetLow := s.sup.resetLow
             vanaOk := s.sup.vanaOk, vdramOk := s.sup.vdramOk, holdupLow := s.sup.holdupLow
             porHeld := decide (b ≤ 2), inReset := true
             resetTag := if b = 0 then none else s.sup.resetTag.map fun x =>
               if x.due then { x with due := false } else { x with ran := x.ran + s.clk.raw }
             vdramKept := decide (3 ≤ b) && s.sup.vdramOk }
    cp0 := s.cp0.reset
    cp1 := s.cp1.reset
    mail := s.mail.reset
    pwFails := if b = 0 then 0 else s.pwFails
    chn := (s.chn.map fun c => (c.1, c.2.reset)).filter fun c => c.2 ≠ {}
    grp := (s.grp.map fun c => (c.1, c.2.reset)).filter fun c => c.2 ≠ {}
    rf := s.rf.cutOff s.freeIdx
    pf := s.pf.cutOff s.freeIdx
    chrys := if b = 0 then { lseq := s.chrys.lseq, epoch := s.chrys.epoch } else
      { trail := s.chrys.trail, trailBad := s.chrys.trailBad, line := s.chrys.line, word := s.chrys.word
        lseq := s.chrys.lseq, epoch := s.chrys.epoch, lastAt := s.chrys.lastAt, lastTs := s.chrys.lastTs
        kfs := s.chrys.kfs } }

end Sys2Proof.Machine
end

