-- ==== Sys2Proof/Machine/Text.lean ====
section
/-!
DEFINITION. The text of a response (R106 to R108): what a MAIL fragment carries of it.
-/
namespace Sys2Proof.Machine

/-- A number with a fixed count of decimals. -/
def fixText (v : Int) (d : Nat) : String :=
  let a := v.natAbs
  let s := toString (a % 10 ^ d)
  (if v < 0 then "-" else "") ++ toString (a / 10 ^ d) ++
    (if d = 0 then "" else "." ++ String.ofList (List.replicate (d - s.length) '0') ++ s)

/-- A hexadecimal digit. -/
def hexDigit (n : Nat) : Char := if n < 10 then Char.ofNat (48 + n) else Char.ofNat (55 + n)

/-- The last n hexadecimal digits of a number. -/
def hexText : Nat → Nat → List Char
  | 0, _ => []
  | n + 1, v => hexText n (v / 16) ++ [hexDigit (v % 16)]

/-- Register contents: 0x and eight digits in two groups (R106). -/
def regText (v : Word) : String :=
  "0x" ++ String.ofList (hexText 4 (v.toNat / 65536)) ++ "_" ++ String.ofList (hexText 4 v.toNat)

/-- A node address: two uppercase digits, a dot, two uppercase digits (R125). -/
def nodeText (a : Node) : String := String.ofList (hexText 2 a.seg.toNat ++ ['.'] ++ hexText 2 a.pos.toNat)

/-- A channel in canonical form (R102). -/
def chText (g c : Nat) : String := "g" ++ toString g ++ ".c" ++ (if c < 10 then "0" else "") ++ toString c

/-- The name of a unit of a group (Table 1.1). -/
def gunText : GUn → String
  | .link => "link" | .fe => "fe" | .mod => "mod" | .sar => "sar" | .sw => "sw" | .dac => "dac" | .di => "di"
  | .latch => "latch" | .temp => "temp"

/-- The name of a unit (Table 1.1). -/
def unText : Un → String
  | .sup => "sup" | .xo => "xo" | .pll => "pll" | .strap => "strap" | .cp0 => "cp0" | .cp1 => "cp1" | .safe => "safe"
  | .fabric => "fabric" | .shadow => "shadow" | .skip => "skip" | .ring0 => "ring0" | .ring1 => "ring1"
  | .cvuL0 => "cvu.l0" | .cvuL1 => "cvu.l1" | .cvuL2 => "cvu.l2" | .cvuL3 => "cvu.l3"
  | .cvuC0 => "cvu.c0" | .cvuC1 => "cvu.c1" | .cvuF => "cvu.f" | .pflash => "pflash" | .rflash => "rflash"
  | .trail => "trail" | .chrys => "chrys"
  | .grp g k => "g" ++ toString g ++ "." ++ gunText k

/-- The keywords of the causes (Table 11.1). -/
def causeName : Nat → String
  | 0 => "startup" | 1 => "disarmed" | 2 => "pin" | 3 => "wdog" | 4 => "cmd" | 5 => "replay" | 6 => "link"
  | 7 => "unpowered" | 8 => "group_powerup" | 9 => "vflow" | 10 => "temp" | 11 => "skip" | 12 => "fault" | 13 => "fence"
  | _ => "age"

/-- Bytes as pairs of hexadecimal digits. -/
def bytesText (l : List Byte) : String := String.ofList (l.flatMap fun b => hexText 2 b.toNat)

/-- The text of a value. -/
def FVal.text : FVal → String
  | .w s => s
  | .n v => toString v
  | .hex v => regText v
  | .fx v d => fixText v d
  | .sfx v d => (if 0 ≤ v then "+" else "") ++ fixText v d
  | .bin v => toString v
  | .ws l => ",".intercalate l
  | .bytes l => bytesText l
  | .un u => unText u
  | .obj g c => chText g c
  | .nd a => nodeText a
  | .cause b => causeName b

/-- The text of a token: a standalone value has one space before its unit, a field has none (R106). -/
def Fld.text (f : Fld) : String :=
  if f.key = "" then f.val.text ++ (if f.unit = "" then "" else " " ++ f.unit)
  else f.key ++ "=" ++ f.val.text ++ f.unit

/-- The word of a code (Table 4.5). -/
def codeText : Code → String
  | .char => "CHAR" | .toolong => "TOOLONG" | .overrun => "OVERRUN" | .crc => "CRC" | .crcreq => "CRCREQ" | .nocrc => "NOCRC"
  | .syntx => "SYNTAX" | .verb => "VERB" | .object => "OBJECT" | .arg => "ARG" | .unit => "UNIT" | .range => "RANGE"
  | .absent => "ABSENT" | .noaddr => "NOADDR" | .align => "ALIGN" | .readonly => "READONLY" | .busybank => "BUSYBANK"
  | .notstopped => "NOTSTOPPED" | .armed => "ARMED" | .bound => "BOUND" | .mode => "MODE" | .fenced => "FENCED"
  | .unpowered => "UNPOWERED" | .starting => "STARTING" | .crawl => "CRAWL" | .replay => "REPLAY"
  | .disciplined => "DISCIPLINED" | .holdup => "HOLDUP" | .locked => "LOCKED" | .nopassword => "NOPASSWORD"
  | .password => "PASSWORD" | .pwlock => "PWLOCK" | .tagreuse => "TAGREUSE" | .noroute => "NOROUTE"
  | .mailfull => "MAILFULL" | .nobcast => "NOBCAST" | .localonly => "LOCALONLY" | .noreply => "NOREPLY"

/-- The text of a response form (Table 4.3). -/
def Resp.text : Resp → String
  | .ok => "ok"
  | .vals l => "= " ++ " ".intercalate (l.map Fld.text)
  | .err c => "!E " ++ codeText c
  | .errAt c n => "!E " ++ codeText c ++ " " ++ toString n

/-- The bytes of a text. -/
def textBytes (s : String) : List Byte := s.toList.map fun c => BitVec.ofNat 8 c.toNat

end Sys2Proof.Machine
end

