-- ==== Sys2Proof/Machine/Mail.lean ====
section
/-!
DEFINITION. The Ringlet schedule (chapter 12.2.4), the own position and slots, and the MAIL queues (chapter 12.2.10).
-/
namespace Sys2Proof.Machine

/-- The implied state of a controller. -/
def State.rg (s : State) (c : Nat) : RingAux := sget {} s.ring c
/-- The state with a controller's implied state replaced. -/
def State.setRg (s : State) (c : Nat) (a : RingAux) : State := { s with ring := sset {} s.ring c a }

/-- The unit of a controller. -/
def ringUn (c : Nat) : Un := if c = 0 then .ring0 else .ring1
/-- The check-value unit of port p of controller c. -/
def cvuL (c p : Nat) : Un :=
  match 2 * c + p with
  | 0 => .cvuL0 | 1 => .cvuL1 | 2 => .cvuL2 | _ => .cvuL3

/-! ### The schedule (R325) -/

/-- A schedule entry. -/
structure Slot where
  start : Nat
  kind  : Nat
  len   : Nat
  rx    : Bool
  owner : Node
deriving DecidableEq, Repr

/-- The address of schedule entry s of controller c. -/
def aSched (c s : Nat) : Nat := 0x40010000 + 0x8000 * c + 8 * s
/-- The address of map descriptor i of ordinal j. -/
def aMap (c j i : Nat) : Nat := 0x40020000 + 0x4000 * c + 0x100 * j + 4 * i
/-- The address of FILL cell i of ordinal j. -/
def aFill (c j i : Nat) : Nat := 0x40030000 + 0x4000 * c + 0x100 * j + 4 * i
/-- The address of receive cell i of entry r. -/
def aRxCell (c r i : Nat) : Nat := 0x40040000 + 0x10000 * c + 0x100 * r + 4 * i
/-- The address of the receive status of entry r. -/
def aRxStat (c r : Nat) : Nat := 0x40060000 + 0x1000 * c + 0x10 * r

/-- Entry s of the schedule. -/
def State.slot (s : State) (c n : Nat) : Slot :=
  let w0 := s.reg (aSched c n)
  let w1 := s.reg (aSched c n + 4)
  { start := w0.toNat, kind := bits w1 0 4, len := bits w1 4 7, rx := bit w1 11
    owner := { seg := w1.extractLsb' 20 8, pos := w1.extractLsb' 12 8 } }

/-- NSLOT. -/
def State.nslot (s : State) (c : Nat) : Nat := s.fld (rgA c 0x10) 0 13
/-- PERIOD in µs. -/
def State.period (s : State) (c : Nat) : Nat := s.fld (rgA c 0x0C) 0 24
/-- LONG. -/
def State.long (s : State) (c : Nat) : Bool := s.flag (rgA c 8) 0
/-- N, the bit times of a round (R327). -/
def State.roundN (s : State) (c : Nat) : Nat := s.period c * (if s.long c then 25 else 100)

/-- The bit times that a slot occupies (R321). -/
def slotBits (x : Slot) : Nat := 32 * x.len + (if x.kind = 1 then 176 else 160)

/-! ### Roles and positions (R358, R360) -/

/-- ROLE: 1 timekeeper, 2 backup, else follower. -/
def State.role (s : State) (c : Nat) : Nat := s.fld (rgA c 0x40) 0 2
/-- RANK. -/
def State.rank (s : State) (c : Nat) : Nat := s.fld (rgA c 0x40) 2 2
/-- POSM. -/
def State.posm (s : State) (c : Nat) : Nat := s.fld (rgA c 0x40) 4 2
/-- SEG. -/
def State.seg (s : State) (c : Nat) : BitVec 8 := (s.reg (rgA c 0x40)).extractLsb' 8 8

/-- The position that the position table gives the part's unique ID (R360, R384). -/
def State.tablePos (s : State) (c : Nat) : Option Nat :=
  let a (e : Nat) : Nat := 0x4002C000 + 0x2000 * c + 0x20 * e
  let id (e : Nat) : BitVec 128 := s.reg (a e + 12) ++ s.reg (a e + 8) ++ s.reg (a e + 4) ++ s.reg (a e)
  match (List.range 256).find? fun e => s.flag (a e + 0x10) 8 && decide (id e = s.uid) with
  | some e => some (s.fld (a e + 0x10) 0 8)
  | none => none

/-- The position, where one is known: the timekeeper's 0, one fixed in JOIN, the position table's, a backup's rank. -/
def State.ringPos (s : State) (c : Nat) : Option Nat :=
  if s.role c = 1 then some 0
  else if (s.rg c).fixed then some (s.rg c).pos
  else match (if s.posm c = 0 then none else s.tablePos c) with
    | some p => some p
    | none => if s.role c = 2 then some (s.rank c) else none

/-- The address of a controller. -/
def State.ringAddr (s : State) (c : Nat) : Node := { seg := s.seg c, pos := BitVec.ofNat 8 ((s.ringPos c).getD 0) }

/-- Whether a controller sends the marks: a timekeeper, or a backup that acts as one (R358). -/
def State.sendsMarks (s : State) (c : Nat) : Bool := decide (s.role c = 1) || s.flag (rgA c 0x44) 4

/-- The slots of a node, ascending (R335). -/
def State.ownedBy (s : State) (c : Nat) (a : Node) : List Nat :=
  (List.range (s.nslot c)).filter fun n => decide ((s.slot c n).kind ≠ 5) && decide ((s.slot c n).owner = a)

/-- The own slots. -/
def State.owned (s : State) (c : Nat) : List Nat :=
  match s.ringPos c with
  | some p => s.ownedBy c { seg := s.seg c, pos := BitVec.ofNat 8 p }
  | none => []

/-- The ordinal of a slot among those of its owner (R335). -/
def State.ordinal (s : State) (c n : Nat) : Nat := ((s.ownedBy c (s.slot c n).owner).takeWhile (· ≠ n)).length

/-- Whether a slot is the node's own. -/
def State.isOwn (s : State) (c n : Nat) : Bool := (s.owned c).contains n

/-- The slots with RX set, ascending (R337). -/
def State.rxSlots (s : State) (c : Nat) : List Nat := (List.range (s.nslot c)).filter fun n => (s.slot c n).rx

/-- The number of a receive entry (R337). -/
def State.rxIdx (s : State) (c n : Nat) : Nat := ((s.rxSlots c).takeWhile (· ≠ n)).length

/-! ### MAIL (R342 to R344, R368) -/

/-- The own MAIL slots. -/
def State.mailSlots (s : State) (c : Nat) : List Nat := (s.owned c).filter fun n => decide ((s.slot c n).kind = 4)

/-- Whether a controller takes MAIL to send: in RUN with an own MAIL slot (R126). -/
def State.mailsOn (s : State) (c : Nat) : Bool :=
  decide (c < s.member.rings) && decide (s.ringSt c = 4) && decide (s.mailSlots c ≠ [])

/-- The fragment capacity C in bytes (R343). -/
def State.fragCap (s : State) (c : Nat) (dest : Option Node) : Nat :=
  match dest with
  | none => 128
  | some a =>
    if a.seg ≠ s.seg c then 128
    else min 248 (4 * (((s.mailSlots c).map fun n => (s.slot c n).len).foldl min 64 - 2))

/-- The fragments of a text (R343). -/
def State.fragments (s : State) (c : Nat) (f : MailFrag) : List MailFrag :=
  let k := s.fragCap c f.dest
  if f.text.length ≤ k then [{ f with last := true, second := false }]
  else [{ f with text := f.text.take k, last := false, second := false, reset := false },
        { f with text := f.text.drop k, last := true, second := true }]

/-- Whether BRIDGE is set: a part with two controllers (R367). -/
def State.bridging (s : State) : Bool := decide (s.member.rings = 2) && s.flag (rgA 1 0x40) 6

/-- A bit of REACH or DOWN (R384). -/
def State.segBit (s : State) (base : Nat) (g : BitVec 8) : Bool := s.flag (base + 4 * (g.toNat / 32)) (g.toNat % 32)

/-- The controller that a text for a node leaves by (R126, R368); none where it cannot be routed. -/
def State.route (s : State) (a : Node) : Option Nat :=
  match (List.range 2).find? fun c => s.mailsOn c && decide (s.seg c = a.seg) with
  | some c => some c
  | none =>
    if !s.segBit 0x4002A800 a.seg then none
    else if s.bridging then
      let c := if s.segBit 0x4002A820 a.seg then 0 else 1
      if s.mailsOn c then some c else none
    else (List.range 2).find? fun c => s.mailsOn c

/-- Adds to the discarded fragments of RING.MAILc, saturating. -/
def mailDiscard (c k : Nat) (s : State) : State :=
  s.setFld (rgA c 0x30) 16 16 (min 0xFFFF (s.fld (rgA c 0x30) 16 16 + k))

/-- Whether the queue of a controller takes a number of fragments more (R344). -/
def State.mailRoom (s : State) (c k : Nat) : Bool := decide ((s.rg c).queue.length + k ≤ 32)

/-- Queues fragments on a controller. -/
def mailPut (c : Nat) (l : List MailFrag) (s : State) : State :=
  s.setRg c { s.rg c with queue := (s.rg c).queue ++ l }

/-- Queues one fragment that a bridge forwards; at a full queue it is discarded and counted (R368). -/
def mailForward (c : Nat) (f : MailFrag) (s : State) : State :=
  if s.mailRoom c 1 then mailPut c [f] s else mailDiscard c 1 s

/-- Sends the response of a line of the mail entry point to its origin (R125); one that cannot be routed, or finds the
queue full, is lost. -/
def mailRespond (o : Origin) (tag : Option (BitVec 16)) (dup : Bool) (text : List Byte) (s : State) : State :=
  match s.route o.node with
  | none => s
  | some c =>
    let f : MailFrag := { dest := some o.node, origin := s.ringAddr c, tag := tag, text := text, last := true
                          second := false, port := o.port, dup := dup, resp := true }
    let l := s.fragments c f
    if s.mailRoom c l.length then mailPut c l s else mailDiscard c l.length s

end Sys2Proof.Machine
end

