-- ==== Sys2Proof/Machine/Operands.lean ====
section
/-!
DEFINITION. The operands of Waicon commands (quantities, channels, groups, reflexes, controllers) and the one way a line
is executed: the receive FIFO, the suffix and tag checks, the order of refusals of R541, the response and the tag cache.
-/
namespace Sys2Proof.Machine

/-! ### Quantities (R103 to R105, R543) -/

/-- The dimension of a unit (Table 4.2): time, current, voltage, resistance, frequency, temperature, ratio. -/
def dimOf : MUnit → Nat
  | .ns => 0 | .us => 0 | .ms => 0 | .s => 0
  | .uA => 1 | .mA => 1 | .A => 1
  | .mV => 2 | .V => 2
  | .ohm => 3 | .kohm => 3
  | .Hz => 4 | .kHz => 4
  | .degC => 5
  | .percent => 6 | .ppm => 6

/-- The size of a unit in the smallest unit of its dimension. -/
def scaleOf : MUnit → Nat
  | .ns => 1 | .us => 1000 | .ms => 1000000 | .s => 1000000000
  | .uA => 1 | .mA => 1000 | .A => 1000000
  | .mV => 1 | .V => 1000
  | .ohm => 1 | .kohm => 1000
  | .Hz => 1 | .kHz => 1000
  | .degC => 1
  | .percent => 10000 | .ppm => 1

/-- The quotient rounded to the nearest integer, halves away from zero (R105). -/
def roundDiv (a : Int) (b : Nat) : Int :=
  if 0 ≤ a then (((2 * a.natAbs + b) / (2 * b) : Nat) : Int) else -(((2 * a.natAbs + b) / (2 * b) : Nat) : Int)

/-- A quantity in steps: its value in the smallest unit of the dimension, times mul / div, rounded (R105). base is the
unit of a quantity written without one. -/
def qSteps (q : Qty) (base : MUnit) (mul div : Nat) : Int :=
  roundDiv (q.num * (scaleOf (q.unit.getD base) * mul : Nat)) (10 ^ q.dec * div)

/-- Whether the unit is of the wrong dimension (R104). -/
def qBad (q : Qty) (base : MUnit) : Bool := decide (dimOf (q.unit.getD base) ≠ dimOf base)

/-- Whether a value lies outside a range (R105). -/
def outside (v lo hi : Int) : Bool := decide (v < lo) || decide (hi < v)

/-! ### Objects (R102) -/

/-- The checks of a channel name (R102). DEDUCED: assumption 78. -/
def chObj (r : ChRef) (s : State) : List (Code × Bool) :=
  [(.object, decide (8 ≤ r.g) || decide (16 ≤ r.c)), (.absent, decide (s.member.groups ≤ r.g))]

/-- The checks of a group name (R102). -/
def grObj (g : Nat) (s : State) : List (Code × Bool) :=
  [(.object, decide (8 ≤ g)), (.absent, decide (s.member.groups ≤ g))]

/-- The checks of a reflex number (R193). -/
def skObj (k : Nat) (s : State) : List (Code × Bool) := [(.absent, decide (s.member.reflexes ≤ k))]

/-- The checks of a controller number (R24, R525). -/
def rgObj (c : Nat) (s : State) : List (Code × Bool) :=
  [(.object, decide (2 ≤ c)), (.absent, decide (s.member.rings ≤ c))]

/-! ### Refusals (R541) -/

/-- The order of the codes (R541); the codes that end the byte and tag checks come first. -/
def Code.rank : Code → Nat
  | .char => 0 | .toolong => 0 | .overrun => 0 | .crc => 0 | .crcreq => 0 | .nocrc => 0 | .syntx => 0 | .tagreuse => 0
  | .verb => 1 | .starting => 2 | .crawl => 2 | .object => 3 | .absent => 4 | .locked => 5 | .arg => 6 | .unit => 7
  | .mode => 8 | .replay => 9 | .armed => 10 | .notstopped => 10 | .disciplined => 10 | .fenced => 11 | .unpowered => 12
  | .bound => 13 | .range => 14 | _ => 15

/-- The first code that applies in the order of R541; codes of one rank in the order given. DEDUCED: assumption 8. -/
def pick : List (Code × Bool) → Option Code
  | [] => none
  | (c, b) :: l =>
    match b, pick l with
    | false, r => r
    | true, none => some c
    | true, some c' => if c'.rank < c.rank then some c' else some c

/-- The first code of a list, for a rule that gives its own order (R541). -/
def pickFirst : List (Code × Bool) → Option Code
  | [] => none
  | (c, b) :: l => if b then some c else pickFirst l

/-- Whether replay is active (R484). -/
def State.replaying (s : State) : Bool := decide (s.fld aRecStat 0 3 ≠ 0)

/-- Whether the password is set: field 1 of either password word is used (R411). -/
def State.pwSet (s : State) : Bool :=
  (sget {} s.pf.words (0x1FF000 / 8)).f1 || (sget {} s.pf.words (0x3FB000 / 8)).f1

/-- Whether an entry point is locked (R135). -/
def State.locked (s : State) (e : Ep) : Bool := s.pwSet && !(s.port e).unlocked

/-! ### Lines -/

/-- CMD.CPkCFG of a port. -/
def aCfg (e : Ep) : Nat := if e = .cp1 then 0x20010 else 0x20000
/-- CMD.CPkSTAT of a port. -/
def aPstat (e : Ep) : Nat := if e = .cp1 then 0x20014 else 0x20004
/-- The check-value unit of a port. -/
def cvuOf (e : Ep) : Un := if e = .cp1 then .cvuC1 else .cvuC0

/-- Whether a port is in generated mode. -/
def State.generated (s : State) (e : Ep) : Bool := s.flag (aCfg e) 0

/-- Whether an entry point takes lines: none in COCOON (R374), CP0 from S2, CP1 and mail from S8 (R44, R48, R26, Table 2.8). -/
def State.serves (s : State) (e : Ep) : Bool :=
  !s.asleep && match e with
  | .cp0 => !s.dead
  | .cp1 => s.running && !s.fenced .cp1
  | .mail => s.running

/-- Whether a line of the entry point waits for its operation: those behind it wait with it (R128, R433). -/
def State.waiting (s : State) (e : Ep) : Bool := s.pf.who.any fun x => decide (x.2.map (·.ep) = some e)

/-- CR or LF. -/
def isTerm (x : RxSym) : Bool := decide (x = .b 13) || decide (x = .b 10)

/-- The first completed line of a FIFO, and what follows it. -/
def splitLine : List RxSym → Option (List RxSym × List RxSym)
  | [] => none
  | x :: l => if isTerm x then some ([], l) else
    match splitLine l with
    | some (a, b) => some (x :: a, b)
    | none => none

/-- The bytes of symbols. -/
def symBytes : List RxSym → List Byte
  | [] => []
  | .b v :: l => v :: symBytes l
  | .lost :: l => symBytes l

/-- A separator: HT counts as a space (R96). -/
def isSep (b : Byte) : Bool := decide (b = 0x20) || decide (b = 9)

/-- A line with its suffix, and the space before it, removed (R391). -/
def stripSuffix (l : List Byte) : List Byte :=
  let a := l.takeWhile (· ≠ 0x2A)
  if a.length = l.length then l else (a.reverse.dropWhile isSep).reverse

/-- A line with its last token replaced by zero bytes (R464). -/
def zeroLast (l : List Byte) : List Byte :=
  let r := l.reverse
  let sp := r.takeWhile isSep
  let rest := r.dropWhile isSep
  let tok := rest.takeWhile (!isSep ·)
  (sp ++ tok.map (fun _ => 0) ++ rest.dropWhile (!isSep ·)).reverse

/-- Takes the completed line of the port from its FIFO, if one stands there, and returns its bytes. -/
def takeLine (e : Ep) (s : State) : List RxSym × State :=
  match splitLine (s.port e).rx with
  | some (a, b) => (a, s.setPort e { s.port e with rx := b, heads := (s.port e).heads.tail })
  | none => ([], s)

/-- The LINE record of a line released to the parser (Table 17.1), a secret zeroed (R464). DESIGN CHOICE: assumption 75. -/
def recLine (e : Ep) (secret : Bool) (l : List Byte) (verdict : Nat) (s : State) : State :=
  match e with
  | .mail => s
  | _ =>
    let b := stripSuffix l
    s.record 0x04 (if e = .cp1 then 1 else 0) 0
      (bytesWords (if secret then zeroLast b else b) ++ [Config.lineVerdict verdict])

/-- Whether a response carries a suffix when it is sent (R112, R117, R396): carried says that its line did. -/
def State.suffixed (s : State) (e : Ep) (carried : Bool) : Bool :=
  s.generated e && (s.flag 0x24 14 || carried || s.flag (aCfg e) 1) && !s.fenced (cvuOf e)

/-- Whether a response to the line carries a suffix. -/
def State.respCrc (s : State) (ln : Line) : Bool :=
  match ln.ep with
  | .mail => false
  | e => s.suffixed e ln.crc

/-- Whether a queued event has been sent on a port. -/
def EvEntry.sent (x : EvEntry) (e : Ep) : Bool := if e = .cp1 then x.sent1 else x.sent0
/-- The entry marked as sent on a port. -/
def EvEntry.mark (x : EvEntry) (e : Ep) : EvEntry :=
  if e = .cp1 then { x with sent1 := true } else { x with sent0 := true }

/-- Sends every queued event that the port has not sent, once, with EVENTS set (R130). -/
def sendEvents (e : Ep) (s : State) : State :=
  if e ≠ .mail ∧ s.flag (aCfg e) 2 then
    let out := s.evq.filter (fun x => !x.sent e)
    let t := { s with evq := s.evq.map (·.mark e) }
    out.foldl (fun u x => u.send e (.event x (s.flag (aCfg e) 3) (s.lineCrc e))) t
  else s

/-- The text of an answer. -/
def Answer.text : Answer → List Byte
  | .loc r => textBytes r.text
  | .rem _ t => t

/-- Sends a response; in typed mode the pending events and the prompt follow (R112, R113). The response of the mail entry
point leaves by MAIL (R125). A broadcast line of another node draws none (R127). -/
def respond (ln : Line) (a : Answer) (dup : Bool) (s : State) : State :=
  if (ln.origin.map (·.bcast)).getD false then s else
    let t := s.send ln.ep (.resp ln.addr a dup (s.respCrc ln))
    match ln.ep, ln.origin with
    | .mail, some o => mailRespond o ln.tag dup (Answer.text a) t
    | .mail, none => t
    | e, _ => if s.generated e then t else (sendEvents e t).send e .prompt

/-- What keys an entry of the mail entry point beside its tag (R124): the origin node and its port. -/
def Origin.key (o : Origin) : Node × Ep := (o.node, o.port)

/-- The entry of a tag, keyed in the mail entry point by origin too (R118, R124). -/
def findTag (ln : Line) (s : State) : Option TagEntry :=
  match ln.tag with
  | none => none
  | some g => (s.port ln.ep).tags.find? fun x => decide (x.tag = g) && decide (x.origin.map Origin.key = ln.origin.map Origin.key)

/-- Makes a tag entry (R119, R120): on a full cache the entry accepted earliest is evicted and TAGEVICT is set. -/
def addTag (ln : Line) (a : Option Answer) (s : State) : State :=
  match ln.tag with
  | none => s
  | some g =>
    let p := s.port ln.ep
    let full := decide (64 ≤ p.tags.length)
    let t := if full && decide (ln.ep ≠ .mail) then s.setFlag (aPstat ln.ep) 3 true else s
    let p := t.port ln.ep
    t.setPort ln.ep { p with
      tags := (if full then p.tags.tail else p.tags) ++
        [{ tag := g, origin := ln.origin, fp := ln.fp, atRaw := t.clk.raw, resp := a }] }

/-- The suffix checks that a parsed line can still fail (R116). core marks the lines of the crawl set; what refuses another on CP0 with
cvu.c0 fenced and CRCQ = 1 is CRCREQ. DESIGN CHOICE: assumption 98. -/
def suffixErr (ln : Line) (core : Bool) (s : State) : Option Code :=
  match ln.ep with
  | .mail => none
  | e =>
    if s.fenced (cvuOf e) then
      if ln.crc then some .nocrc
      else if e = .cp0 ∧ s.flag 0x24 14 ∧ !core then some .crcreq else none
    else if s.generated e ∧ s.flag 0x24 14 ∧ !ln.crc then some .crcreq
    else none

/-- What a verb and object need: locked marks the forms a locked entry point refuses (R142), core the crawl set (R49),
replay the forms refused during replay (R485), secret a password token (R464). -/
structure Form where
  locked : Bool := true
  core   : Bool := false
  replay : Bool := true
  secret : Bool := false
deriving DecidableEq, Repr

/-- The checks that every form meets (R541). -/
def baseChecks (ln : Line) (f : Form) (s : State) : List (Code × Bool) :=
  [(.crawl, s.sup.crawl && !f.core),
   (.starting, !s.sup.crawl && decide (s.sup.stage < 8) && !f.core),
   (.object, !ln.objOk),
   (.locked, f.locked && s.locked ln.ep),
   (.arg, !ln.argOk),
   (.replay, f.replay && s.replaying),
   (.range, !ln.intOk)]

/-- Counts the check of a line's suffix that matched in its check-value unit (R397). -/
def countSuffix (ln : Line) (s : State) : State :=
  if ln.crc && decide (ln.ep ≠ .mail) then s.count (if ln.ep = .cp1 then 0x40054 else 0x40044) else s

/-- The state after a line has been taken from its FIFO. -/
def taken (ln : Line) (s : State) : State := (takeLine ln.ep s).2
/-- The bytes of the line taken. -/
def takenBytes (ln : Line) (s : State) : List Byte := symBytes (takeLine ln.ep s).1

/-- Answers a line and makes its tag entry. DEDUCED: assumption 9. -/
def answer (ln : Line) (r : Resp) (s : State) : State := respond ln (.loc r) false (addTag ln (some (.loc r)) s)

/-- What a command does after the stop bit of its response (R67, R111, R138, R143): nothing, for most. -/
def noPost (s : State) : State := s

/-- Takes a line through its checks: the tag cache decides first (R121), a refused line changes nothing else (R107), and a
line that passes goes on with go, which answers it. -/
def gateLine (ln : Line) (f : Form) (refusal : State → Option Code) (go : State → State) (s0 : State) : State :=
  if !s0.serves ln.ep || s0.waiting ln.ep then s0 else
    let bs := takenBytes ln s0
    let s := taken ln s0
    match suffixErr ln f.core s with
    | some c => respond ln (.loc (.err c)) false (recLine ln.ep f.secret bs (c.ctorIdx + 1) s)
    | none =>
      let s := recLine ln.ep f.secret bs 0 (countSuffix ln s)
      match findTag ln s with
      | some x =>
        if x.fp = ln.fp then
          match x.resp with
          | some a => respond ln a true s
          | none => s
        else respond ln (.loc (.err .tagreuse)) false s
      | none =>
        match refusal s with
        | some c => answer ln (.err c) s
        | none => go s

/-- Executes a line: one that passes runs eff, sends its response, and then runs post. DESIGN CHOICE: assumption 7. -/
def execLine (ln : Line) (f : Form) (refusal : State → Option Code) (eff : State → State × Resp)
    (s0 : State) (post : State → State := noPost) : State :=
  gateLine ln f refusal (fun s => let r := eff s; post (answer ln r.2 r.1)) s0

/-- A line that answers on the completion of an operation (R433): its tag entry is pending meanwhile (R119). -/
def startLine (ln : Line) (f : Form) (checks : State → List (Code × Bool)) (go : State → State) (s : State) : State :=
  gateLine ln f (fun t => pick (baseChecks ln f t ++ checks t)) (fun t => go (addTag ln none t)) s

/-- The response of a line that has waited for its operation. -/
def finishLine (ln : Line) (r : Resp) (s : State) : State :=
  let fill (x : TagEntry) : TagEntry :=
    if decide (ln.tag = some x.tag) && decide (x.origin.map Origin.key = ln.origin.map Origin.key) && x.resp.isNone then { x with resp := some (.loc r) }
    else x
  respond ln (.loc r) false (s.setPort ln.ep { s.port ln.ep with tags := (s.port ln.ep).tags.map fill })

/-- A line under the order of R541. -/
def runLine (ln : Line) (f : Form) (checks : State → List (Code × Bool)) (eff : State → State × Resp) (s : State)
    (post : State → State := noPost) : State :=
  execLine ln f (fun t => pick (baseChecks ln f t ++ checks t)) eff s post

/-- A form of effect that answers ok. -/
def okay (f : State → State) (s : State) : State × Resp := (f s, .ok)

/-- A form that reads and answers a value line. -/
def value (f : State → List Fld) (s : State) : State × Resp := (s, .vals (f s))

end Sys2Proof.Machine
end

