-- ==== Sys2Proof/Machine/Flags.lean ====
section
/-!
DEFINITION. The status flags of a channel (Table 5.7 and the mode chapters), as a read shows them, and their names.
-/
namespace Sys2Proof.Machine

/-- Whether a group is reported unpowered: from S6 a group that is not reported powered (R58, R59). -/
def State.unpowered (s : State) (g : Nat) : Bool := decide (6 ≤ s.sup.stage) && !s.powered g

/-- Whether an item of a group is taken at the fabric: the group is powered, its link is up, and no replay holds the
links (R485). -/
def State.itemFrom (s : State) (g : Nat) : Bool :=
  decide (g < s.member.groups) && s.powered g && s.linkUp g && !s.replaying && !s.dead && !s.sup.crawl

/-- An item of a group crosses into the fabric, where Chrysalis records it (R19, R462). Its words are not stated. -/
def State.item (s : State) (g : Nat) : State := if s.itemFrom g then s.recordFree 0x01 g 0 2 else s

/-- STAT[3] (R535). -/
def State.fenceFlag (s : State) (n : Nat) : Bool :=
  let g := n / 16
  if isOut (s.mode n) then s.flag (aSafeCh n) 13
  else s.gFenced g .link || s.gFenced g .latch || s.gFenced g .fe || (isDi (s.mode n) && s.gFenced g .di)

/-- STAT as a read shows it: SAFE, FENCE, UNPOWERED, LOWPREC and STALE follow other state (R299, R535, R261). -/
def State.stat (s : State) (n : Nat) : Word :=
  let g := n / 16
  let x := setBit (setBit (setBit (s.reg (aStat n)) 0 (s.inSafe n)) 3 (s.fenceFlag n)) 4 (s.unpowered g)
  if isAi (s.mode n) then setBit (setBit x 25 (s.gFenced g .mod)) 26 (s.flag (chA n 0x84) 16) else x

/-! ### Conversion filters (R265 to R269) -/

/-- D of an output rate in CLK_M cycles (Table 10.1). -/
def rateD : Nat → Nat
  | 0 => 2000000 | 1 => 400000 | 2 => 333333 | 3 => 200000 | 4 => 50000 | 5 => 20000 | 6 => 5000 | 7 => 1250 | _ => 400

/-- D of a channel's filter. -/
def State.outD (s : State) (n : Nat) : Nat := rateD (s.fld (chA n 0x80) 0 4)

/-- N_settle of a channel's filter (Table 10.3). -/
def State.nSettle (s : State) (n : Nat) : Nat := if s.fld (chA n 0x80) 4 2 = 0 then 3 else 5

/-- Starts the filter of a channel (R265, R269): the slot keeps its last valid value with STALE set, and the readbacks of
an analogue output are excluded until it settles (R252). -/
def filterStart (n : Nat) (s : State) : State :=
  let a := s.ch n
  setStale [n] (s.setCh n { a with conv := { a.conv with outs := 0, x1 := 0, x2 := 0 } })

/-- A valid value enters the result slot of a channel (R18, R269): its timestamp is taken, AGE is 0, STALE and NOVALUE are cleared. -/
def slotValid (n : Nat) (s : State) : State :=
  let s := s.setCh n { s.ch n with slotTs := s.clk.ts }
  ((s.setFld (chA n 0x84) 0 16 0).setFlag (chA n 0x84) 16 false).setFlag (aStat n) 1 false

/-- Whether a channel converts: its analogue mode is active at the group. -/
def State.converts (s : State) (n : Nat) : Bool :=
  decide (n < s.member.channels) && (isAi (s.mode n) || isAo (s.mode n)) && s.active n

/-- The mode flags by bit (Tables 6.6, 8.7, 9.6, 9.8, R214). -/
def flagNames (m : Nat) : List (Nat × String) :=
  if isDi m then [(16, "wirebrk"), (17, "wbseen"), (18, "torn_risk"), (19, "countgap"), (20, "persisterr"), (21, "restored")]
  else if m = 3 then [(16, "tripped"), (20, "latched"), (21, "openoff"), (22, "undercur"), (23, "inrush"), (24, "inlimit"),
    (25, "tripseen"), (26, "olseen")]
  else if m = 4 then [(16, "overload"), (17, "ovlseen"), (18, "mismatch")]
  else if isAi m then [(16, "under"), (17, "over"), (18, "satur"), (19, "inlim"), (20, "loopoff"), (21, "open"), (22, "short"),
    (23, "rtdrange"), (24, "rngseen"), (25, "lowprec"), (26, "stale"), (27, "torn_risk")]
  else if isAo m then [(16, "dev"), (17, "rbdis"), (18, "comply"), (19, "settling"), (20, "devseen"), (21, "rbseen")]
  else []

/-- The status of a channel: the flags that are set but SAFE, or ok (R165); stale of the result slot in every mode (R270). -/
def State.statusWords (s : State) (n : Nat) : List String :=
  let x := s.stat n
  let l := ([(1, "novalue"), (2, "cfgerr"), (3, "fence"), (4, "unpowered")] ++ flagNames (s.mode n)).filterMap
    fun (p : Nat × String) => if bit x p.1 then some p.2 else none
  let l := if s.mode n ≠ 0 ∧ isAi (s.mode n) = false ∧ s.flag (chA n 0x84) 16 = true then l ++ ["stale"] else l
  if l = [] then ["ok"] else l

/-- The status token of a value line. -/
def State.statusFld (s : State) (n : Nat) : Fld := { val := .ws (s.statusWords n) }

/-- CFGERR of a channel (R152). -/
def cfgErr (n : Nat) (b : Bool) (s : State) : State := if b then s.setFlag (aStat n) 2 true else s

/-- CFGERR for a substituted value of a group's register (Table 10.11), shown by every channel of the group: no rule names the flag.
DESIGN CHOICE: assumption 89. -/
def grpCfgErr (g : Nat) (b : Bool) (s : State) : State := forAll (grpChans g) (fun n t => cfgErr n b t) s

/-- Keywords. -/
def onOff (b : Bool) : String := if b then "on" else "off"

/-- A channel named in a value line or an event. -/
def fch (n : Nat) : Fld := { val := .obj (n / 16) (n % 16) }

/-- A channel event. -/
def chEvent (c : Ev) (n : Nat) (s : State) : State := s.emit c (.ch n) []

end Sys2Proof.Machine
end

