-- ==== Sys2Proof/Machine/LoadSwitch.lean ====
section
/-!
DEFINITION. Protected load switch outputs (chapter 8): the thermal model, the trips, open load and undercurrent, and the
DOH commands.
-/
namespace Sys2Proof.Machine

/-! ### The thermal model (R222 to R225) -/

/-- τ in seconds and H_T of a channel's wire (Table 8.2) or custom entry (R224); none for an entry out of its range. -/
def State.fuseRow (s : State) (n : Nat) : Option (Rat × Rat) :=
  match s.fld (chA n 0x140) 8 3 with
  | 0 => some (2, 36 / 25)
  | 1 => some (4, 36 / 25)
  | 2 => some (6, 36 / 25)
  | 3 => some (8, 36 / 25)
  | 4 => some (12, 36 / 25)
  | 5 => some (20, 36 / 25)
  | _ =>
    let a := 0x40002000 + 8 * s.fld (chA n 0x140) 12 3
    let tau := s.fld a 0 20
    let ht := s.fld (a + 4) 0 16
    if 100 ≤ tau ∧ tau ≤ 600000 ∧ 256 ≤ ht ∧ ht ≤ 1024 then some ((tau : Rat) / 1000, (ht : Rat) / 256) else none

/-- Starts the model at half of trip (R225). DEDUCED: assumption 45. -/
def startModel (n : Nat) (s : State) : State :=
  s.setCh n { s.ch n with heat := (s.fuseRow n).map fun r => r.2 / 2 }

/-- P in 0.01 %, rounded, saturating at 0xFFFF (R222, R235). An entry out of its range has no trip level: half of trip
before a step, saturated after. -/
def State.percent (s : State) (n : Nat) : Nat :=
  match (s.ch n).heat, s.fuseRow n with
  | some h, some r => min 0xFFFF ((h * 10000 / r.2 + 1 / 2).floor.toNat)
  | none, _ => 5000
  | some _, none => 0xFFFF

/-- Whether the model is at or below P = 20 % (R227, R228). -/
def State.cool (s : State) (n : Nat) : Bool :=
  match (s.ch n).heat, s.fuseRow n with
  | some h, some r => decide (h ≤ r.2 / 5)
  | _, _ => false

/-! ### The current limit (R220, R221) -/

/-- The level that the limiter of a DOH holds, in mA (R220): I_INR = min(INRMUL × I_R, 8.0 A) while the inrush window is open, I_LIM
outside it. -/
def State.limitLevel (s : State) (n : Nat) : Nat :=
  if s.flag (aStat n) 23 then min (s.fld (chA n 0x140) 24 6 * s.fld (chA n 0x140) 0 8) 8000
  else 100 * s.fld (chA n 0x144) 0 7

/-! ### Trips (R219, R226 to R228) -/

/-- The retries counted in the preceding 3,600 s (R228). -/
def State.retryCount (s : State) (n : Nat) : Nat :=
  ((s.ch n).retries.filter fun r => decide (s.clk.raw < r + 1440000000000)).length

/-- Turns a switch off by a trip of cause c (Table 8.7): TRIPPED, CAUSE, LATCHED, TRIPSEEN, DOH.TRIPS, the event, and
FAULT for a latched trip. A request to clear an earlier trip is void. DEDUCED: assumption 88. -/
def trip (c : Nat) (ev : Ev) (latch : Bool) (n : Nat) (s : State) : State :=
  let t := withGates [n] (fun t =>
    (((t.setFlag (aStat n) 16 true).setFld (aStat n) 17 3 c).setFlag (aStat n) 20 latch).setFlag (aStat n) 25 true) s
  let t := (t.setCh n { t.ch n with clearReq := false }).count (chA n 0x154)
  refreshFault n (chEvent ev n t)

/-- A FUSE trip: it latches unless RETRY allows another retry (R228). -/
def fuseTrip (n : Nat) (s : State) : State :=
  trip 3 .fuseTrip (!(s.flag (chA n 0x140) 11 && decide (s.retryCount n < 3))) n s

/-- Ends a trip (R227, R228): the output takes the next rank down. -/
def endTrip (n : Nat) (s : State) : State :=
  let t := withGates [n] (fun t => (t.setFlag (aStat n) 16 false).setFlag (aStat n) 20 false) s
  refreshFault n (t.setCh n { t.ch n with clearReq := false })

/-- Whether a latched trip may end now (R227): the model is cool, and for OVERTEMP the group trip has cleared. -/
def State.otClear (s : State) (n : Nat) : Bool := !(decide (s.fld (aStat n) 17 3 = 4) && s.flag (aGstat (n / 16)) 4)

/-- trip clear (R227). -/
def tripClear (n : Nat) (s : State) : State :=
  if s.flag (aStat n) 20 then
    if s.cool n && s.otClear n then chEvent .tripCleared n (endTrip n s)
    else s.setCh n { s.ch n with clearReq := true }
  else s

/-- Whether a DOH channel's mode is active and no replay holds its group (R485). -/
def State.dohLive (s : State) (n : Nat) : Bool :=
  decide (n < s.member.channels) && decide (s.mode n = 3) && s.active n && s.powered (n / 16) && !s.replaying && !s.dead

/-- Whether the group's forwarded clocks serve a DOH channel: while the latch acts on its own they do not (R219, R151). -/
def State.dohClocked (s : State) (n : Nat) : Bool :=
  s.dohLive n && s.itemFrom (n / 16) && !s.flag (aGstat (n / 16)) 2 && !(s.gr (n / 16)).acts

/-- Whether the group's clocks and monitor samples serve a DOH channel (R151, R218). -/
def State.dohSampled (s : State) (n : Nat) : Bool := s.dohClocked n && !s.gFenced (n / 16) .sar

/-- The heat after a model step on a sample I in mA, from the row (τ, H_T) (R222): H moves by dt / τ, dt = 50 µs. -/
def State.nextHeat (s : State) (n mA : Nat) (row : Rat × Rat) : Rat :=
  let i : Rat := (mA : Rat) / (10 * s.fld (chA n 0x140) 0 8 : Nat)
  let h := (s.ch n).heat.getD (row.2 / 2)
  h + (1 / 20000) / row.1 * (i * i - h)

/-- Whether a model step on a sample trips the fuse (R222, R224): the heat reaches H_T, or the custom entry is out of its range. A
switch that a trip holds off trips no second time. -/
def State.stepTrips (s : State) (n mA : Nat) : Bool :=
  !s.flag (aStat n) 16 &&
  match s.fuseRow n with
  | none => true
  | some row => decide (row.2 ≤ s.nextHeat n mA row)

/-- One model step on a sample I in mA (R222): H moves, and a trip follows at H_T. A custom entry out of its range sets CFGERR
(R224). -/
def fuseStep (n : Nat) (mA : Nat) (s : State) : State :=
  let t := match s.fuseRow n with
    | none => cfgErr n true s
    | some row => s.setCh n { s.ch n with heat := some (s.nextHeat n mA row) }
  if s.stepTrips n mA then fuseTrip n t else t

/-- The model steps of every DOH channel, every 50 µs (R222). DESIGN CHOICE: assumption 46. -/
def fuseSteps (s : State) : State :=
  forAll s.chans (fun n t => if t.dohSampled n then fuseStep n (t.fld (chA n 0x14C) 0 16) t else t) s

/-- SHORT_TRIP (R219). -/
def execShortTrip (n : Nat) (s : State) : Host.Outcome State Fault Refusal :=
  done (if s.dohLive n && s.gate n && !s.flag (aStat n) 16 then trip 1 .shortTrip true n (s.item (n / 16)) else s)

/-- CURRENT_LIMIT (R219, R220): the load current without the limiter has reached the active limit. INLIMIT is set, and the limiter
holds the current at the limit under rank 0. Below the limit nothing happens. -/
def execCurrentLimit (x : LimitLoad) (s : State) : Host.Outcome State Fault Refusal :=
  let n := x.ch
  done (if s.dohLive n && s.gate n && decide (s.limitLevel n ≤ x.mA.toNat) then
    (s.item (n / 16)).setFlag (aStat n) 24 true
  else s)

/-- CURRENT_LIMIT_END (R219). -/
def execCurrentLimitEnd (n : Nat) (s : State) : Host.Outcome State Fault Refusal :=
  done (if s.dohLive n && s.flag (aStat n) 24 then (s.item (n / 16)).setFlag (aStat n) 24 false else s)

/-- LIMIT_TRIP (R219): the limiter has been active for 200 µs outside the inrush window, by the forwarded clocks. -/
def execLimitTrip (n : Nat) (s : State) : Host.Outcome State Fault Refusal :=
  done (if s.dohClocked n && s.gate n && s.flag (aStat n) 24 && !s.flag (aStat n) 23 && !s.flag (aStat n) 16 then
    trip 2 .limitTrip true n (s.item (n / 16))
  else s)

/-- FUSE_TRIP (R222): a model step on a sample of mA reaches the trip level. A sample on which the step does not reach it makes no
trip, and its step is that of the 50 µs grid. -/
def execFuseTrip (n : Nat) (mA : BitVec 16) (s : State) : Host.Outcome State Fault Refusal :=
  done (if s.dohSampled n && s.stepTrips n mA.toNat then
    fuseStep n mA.toNat ((s.item (n / 16)).setFld (chA n 0x14C) 0 16 mA.toNat)
  else s)

/-- INRUSH_WINDOW_CLOSE (R221): the limiter moves to I_LIM. -/
def execInrushWindowClose (n : Nat) (s : State) : Host.Outcome State Fault Refusal :=
  done (if s.dohLive n && s.flag (aStat n) 23 then (s.item (n / 16)).setFlag (aStat n) 23 false else s)

/-- TRIP_RETRY (R228): the model has reached P = 20 %. -/
def execTripRetry (n : Nat) (s : State) : Host.Outcome State Fault Refusal :=
  done (if s.dohSampled n && s.flag (aStat n) 16 && !s.flag (aStat n) 20 && s.cool n then
    let t := s.item (n / 16)
    chEvent .tripRetry n (endTrip n (t.setCh n { t.ch n with retries := (t.ch n).retries ++ [t.clk.raw] }))
  else s)

/-- TRIP_CLEARED (R227): the conditions of a requested trip clear have come to hold. -/
def execTripCleared (n : Nat) (s : State) : Host.Outcome State Fault Refusal :=
  done (if s.dohSampled n && s.flag (aStat n) 20 && (s.ch n).clearReq && s.cool n && s.otClear n then
    chEvent .tripCleared n (endTrip n (s.item (n / 16)))
  else s)

/-- The terminal voltage of a DOH channel in mV: the latest sample of its secondary scan entry (Tables 10.7, 10.8). -/
def State.dohMv (s : State) (n : Nat) : Int := 5 * sext 14 (s.fld (grA (n / 16) (0x140 + 4 * (n % 16))) 0 14)

/-- Whether the open-load test runs (R229). -/
def State.olOn (s : State) (n : Nat) : Bool := s.dohSampled n && s.flag (chA n 0x148) 8 && !s.gate n

/-- OPEN_LOAD (R229): the terminal voltage, above 4.0 V in its latest sample, has stayed there for 100 ms. -/
def execOpenLoad (n : Nat) (s : State) : Host.Outcome State Fault Refusal :=
  done (if s.olOn n && !s.flag (aStat n) 21 && decide (4000 < s.dohMv n) then
    chEvent .openLoad n (((s.item (n / 16)).setFlag (aStat n) 21 true).setFlag (aStat n) 26 true)
  else s)

/-- OPEN_LOAD_CLEAR (R229): the terminal voltage, below 3.0 V in its latest sample, has stayed there for 100 ms. -/
def execOpenLoadClear (n : Nat) (s : State) : Host.Outcome State Fault Refusal :=
  done (if s.olOn n && s.flag (aStat n) 21 && decide (s.dohMv n < 3000) then
    (s.item (n / 16)).setFlag (aStat n) 21 false
  else s)

/-- Whether the undercurrent check runs (R230). -/
def State.ucOn (s : State) (n : Nat) : Bool :=
  s.dohSampled n && decide (s.fld (chA n 0x148) 0 8 ≠ 0) && s.gate n && !s.flag (aStat n) 23

/-- Whether the latest current sample lies below UCTH (R230, R218). -/
def State.ucLow (s : State) (n : Nat) : Bool := decide (s.fld (chA n 0x14C) 0 16 < s.fld (chA n 0x148) 0 8)

/-- UNDERCURRENT (R230): the current, below UCTH in its latest sample, has stayed there for 100 ms. -/
def execUndercurrent (n : Nat) (s : State) : Host.Outcome State Fault Refusal :=
  done (if s.ucOn n && !s.flag (aStat n) 22 && s.ucLow n then
    chEvent .undercurrent n (((s.item (n / 16)).setFlag (aStat n) 22 true).setFlag (aStat n) 26 true)
  else s)

/-- UNDERCURRENT_CLEAR (R230): the current, at or above UCTH in its latest sample, has stayed there for 100 ms. -/
def execUndercurrentClear (n : Nat) (s : State) : Host.Outcome State Fault Refusal :=
  done (if s.ucOn n && s.flag (aStat n) 22 && !s.ucLow n then (s.item (n / 16)).setFlag (aStat n) 22 false else s)

/-! ### Commands (R234) -/

/-- The sum of the rated currents of a group's DOH channels in mA (R157), as if channel n had the given rating. -/
def State.dohSumWith (s : State) (g n mA : Nat) : Nat :=
  ((grpChans g).map fun m => if m = n then mA else if s.mode m = 3 then 10 * s.fld (chA m 0x140) 0 8 else 0).sum

/-- Gg.DOHSUM (R157). -/
def State.dohSum (s : State) (g : Nat) : Nat :=
  ((grpChans g).map fun m => if s.mode m = 3 then 10 * s.fld (chA m 0x140) 0 8 else 0).sum

/-- The checks of a DOH form: rwa marks those refused while armed. -/
def dohChecks (ch : ChRef) (rwa : Bool) (s : State) : List (Code × Bool) :=
  chObj ch s ++ [(.mode, decide (s.mode ch.n ≠ 3)), (.armed, rwa && s.sup.armed)]

/-- The form of a DOH command whose effect sets a field of one of the channel's DOH registers. -/
def dohSet (ln : Line) (ch : ChRef) (rwa : Bool) (more : State → List (Code × Bool)) (f : State → State) (s : State) :
    Host.Outcome State Fault Refusal :=
  done (runLine ln {} (fun t => dohChecks ch rwa t ++ more t) (okay f) s)

/-- DOH_RATED (R216, R157): steps of 10 mA. -/
def execDohRated (ln : Line) (ch : ChRef) (a : Qty) (s : State) : Host.Outcome State Fault Refusal :=
  let v := qSteps a .A 1 10000
  dohSet ln ch true (fun t => [(.unit, qBad a .A), (.range, outside v 10 200),
      (.range, decide (12000 < t.dohSumWith ch.g ch.n (10 * v.toNat)))])
    (fun t => t.setFld (chA ch.n 0x140) 0 8 v.toNat) s

/-- The code of a built-in wire by its cross-section (Table 8.2). -/
def wireCode (w : Qty) : Option Nat :=
  if w.num * 100 = 25 * 10 ^ w.dec then some 0
  else if w.num * 100 = 50 * 10 ^ w.dec then some 1
  else if w.num * 100 = 75 * 10 ^ w.dec then some 2
  else if w.num * 100 = 100 * 10 ^ w.dec then some 3
  else if w.num * 100 = 150 * 10 ^ w.dec then some 4
  else if w.num * 100 = 250 * 10 ^ w.dec then some 5
  else none

/-- DOH_WIRE (R223). -/
def execDohWire (ln : Line) (ch : ChRef) (w : Qty) (s : State) : Host.Outcome State Fault Refusal :=
  dohSet ln ch true (fun _ => [(.arg, (wireCode w).isNone), (.unit, w.unit.isSome)])
    (fun t => t.setFld (chA ch.n 0x140) 8 3 ((wireCode w).getD 0)) s

/-- DOH_WIRE_CUSTOM (R224): with shadow fenced the channel is held safe (Table 2.8). -/
def execDohWireCustom (ln : Line) (ch : ChRef) (k : Nat) (s : State) : Host.Outcome State Fault Refusal :=
  dohSet ln ch true (fun _ => [(.range, decide (7 < k))])
    (fun t => holdFence [ch.n] ((t.setFld (chA ch.n 0x140) 8 3 6).setFld (chA ch.n 0x140) 12 3 k)) s

/-- DOH_INRUSH (R220, R221): INRWIN in ms, INRMUL in tenths. -/
def execDohInrush (ln : Line) (ch : ChRef) (t m : Qty) (s : State) : Host.Outcome State Fault Refusal :=
  let w := qSteps t .ms 1 1000000
  let x := roundDiv (m.num * 10) (10 ^ m.dec)
  dohSet ln ch true (fun _ =>
      [(.unit, qBad t .ms || m.unit.isSome), (.range, outside w 1 200 || outside x 10 40)])
    (fun u => (u.setFld (chA ch.n 0x140) 16 8 w.toNat).setFld (chA ch.n 0x140) 24 6 x.toNat) s

/-- DOH_LIMIT (R220): steps of 0.1 A. -/
def execDohLimit (ln : Line) (ch : ChRef) (a : Qty) (s : State) : Host.Outcome State Fault Refusal :=
  let v := qSteps a .A 1 100000
  dohSet ln ch true (fun _ => [(.unit, qBad a .A), (.range, outside v 5 80)])
    (fun t => t.setFld (chA ch.n 0x144) 0 7 v.toNat) s

/-- DOH_RETRY (R228). -/
def execDohRetry (ln : Line) (ch : ChRef) (on : Bool) (s : State) : Host.Outcome State Fault Refusal :=
  dohSet ln ch true (fun _ => []) (fun t => t.setFlag (chA ch.n 0x140) 11 on) s

/-- DOH_UNDERCURRENT (R230): mA, none is off; a quantity without a unit is in A (R234). -/
def execDohUndercurrent (ln : Line) (ch : ChRef) (a : Option Qty) (s : State) : Host.Outcome State Fault Refusal :=
  let v := a.map fun q => qSteps q .A 1 1000
  dohSet ln ch false (fun _ =>
      [(.unit, (a.map (qBad · .A)).getD false), (.range, (v.map (outside · 5 200)).getD false)])
    (fun t => t.setFld (chA ch.n 0x148) 0 8 (v.getD 0).toNat) s

/-- DOH_OLTEST (R229). -/
def execDohOltest (ln : Line) (ch : ChRef) (on : Bool) (s : State) : Host.Outcome State Fault Refusal :=
  dohSet ln ch false (fun _ => []) (fun t => t.setFlag (chA ch.n 0x148) 8 on) s

/-- TRIP_CLEAR (R227). -/
def execTripClear (ln : Line) (ch : ChRef) (s : State) : Host.Outcome State Fault Refusal :=
  dohSet ln ch false (fun _ => []) (tripClear ch.n) s

/-- The trip causes by code (R236). -/
def tripCause : Nat → String
  | 1 => "short" | 2 => "limit" | 3 => "fuse" | 4 => "overtemp" | _ => "none"

/-- DOH_FUSE (R234). -/
def execDohFuse (ln : Line) (ch : ChRef) (s : State) : Host.Outcome State Fault Refusal :=
  done (runLine ln {} (dohChecks ch false) (value fun t =>
    [kx "model" (t.percent ch.n : Nat) 2 "%", kx "i" (t.fld (chA ch.n 0x14C) 0 16 : Nat) 0 "mA",
     kw "cause" (tripCause (t.fld (aStat ch.n) 17 3)), kn "retries" (min 3 (t.retryCount ch.n)),
     kn "trips" (t.reg (chA ch.n 0x154)).toNat]) s)

end Sys2Proof.Machine
end

