-- ==== Sys2Proof/Machine/Digital.lean ====
section
/-!
DEFINITION. Digital inputs and pulse counters (chapter 6): the filter, the wire break, the count and its snapshots.
-/
namespace Sys2Proof.Machine

/-- Whether a channel's digital input works: its mode is active at a group whose items arrive and whose DI unit is not
fenced (Table 2.8). -/
def State.diLive (s : State) (n : Nat) : Bool :=
  isDi (s.mode n) && s.active n && s.itemFrom (n / 16) && !s.gFenced (n / 16) .di

/-- Whether a channel counts: DIC. -/
def State.dicLive (s : State) (n : Nat) : Bool := s.diLive n && decide (s.mode n = 2)

/-- INVERT. -/
def State.invert (s : State) (n : Nat) : Bool := s.flag (chA n 0x40) 2

/-- A 64-bit quantity held in a split pair. -/
def State.pair (s : State) (lo : Nat) : BitVec 64 := s.reg (lo + 4) ++ s.reg lo

/-- The state with a split pair set. -/
def State.setPair (s : State) (lo : Nat) (v : BitVec 64) : State :=
  (s.setReg lo (v.extractLsb' 0 32)).setReg (lo + 4) (v.extractLsb' 32 32)

/-- The live count (R177). -/
def State.liveCount (s : State) (n : Nat) : BitVec 64 := s.pair (chA n 0x48)

/-- Whether the snapshots of a channel are taken: DIC, PEN set and a profile loaded (R186). -/
def State.persists (s : State) (n : Nat) : Bool :=
  decide (s.mode n = 2) && s.active n && s.flag (chA n 0x5C) 31 && decide (s.sup.profSrc ≠ 0)

/-- Puts a snapshot in the queue; a waiting one of the same channel takes the newer value (R187). -/
def queueSnap (n : Nat) (v : BitVec 64) (q : List (Nat × BitVec 64)) : List (Nat × BitVec 64) :=
  if q.any (·.1 = n) then q.map fun x => if x.1 = n then (n, v) else x else q ++ [(n, v)]

/-- A persistence trigger (R186, R187): the snapshot takes the live count, the interval and the step restart. -/
def persist (n : Nat) (s : State) : State :=
  if s.persists n then
    { s.setCh n { s.ch n with snapCount := s.liveCount n, snapAt := s.clk.raw, snapped := true } with
      pf := { s.pf with queue := queueSnap n (s.liveCount n) s.pf.queue } }
  else s

/-- Starts the interval and the step from now (R186). -/
def restartSnap (n : Nat) (s : State) : State :=
  s.setCh n { s.ch n with snapCount := s.liveCount n, snapAt := s.clk.raw }

/-- Writes the live count, which triggers a snapshot (R183, R190). -/
def setCount (n : Nat) (v : BitVec 64) (s : State) : State := persist n (s.setPair (chA n 0x48) v)

/-- The filter takes the comparator output, after INVERT, as its confirmed state, with run = 0 (R171, R540). The value is the slot's. -/
def takeLevel (n : Nat) (s : State) : State :=
  slotValid n ((s.setCh n { s.ch n with run := none }).setFlag (chA n 0x50) 0 ((s.ch n).raw != s.invert n))

/-- The rising and the falling threshold of a digital input in mV (Table 6.1). -/
def State.thresholds (s : State) (n : Nat) : Nat × Nat :=
  match s.fld (chA n 0x40) 0 2 with
  | 1 => (8000, 6500)
  | 2 => (100 * s.fld (chA n 0x40) 16 9, max 1500 (100 * (s.fld (chA n 0x40) 16 9 - s.fld (chA n 0x40) 25 5)))
  | _ => (11000, 9000)

/-- The terminal voltage of a channel in mV, as the latest sample of its primary scan entry has it (Tables 10.7, 10.8). -/
def State.termMv (s : State) (n : Nat) : Int := 5 * sext 14 (s.fld (grA (n / 16) (0x100 + 4 * (n % 16))) 0 14)

/-- The comparator output under the thresholds now in effect (R169, R171): the latest terminal sample decides where it lies beyond one
of them; between them, or without a sample, the output stands. DEDUCED: assumption 93. -/
def State.compLevel (s : State) (n : Nat) : Bool :=
  if (s.gr (n / 16)).conv.frames = 0 ∨ s.gFenced (n / 16) .sar = true then (s.ch n).raw
  else if ((s.thresholds n).1 : Int) ≤ s.termMv n then true
  else if s.termMv n < ((s.thresholds n).2 : Int) then false
  else (s.ch n).raw

/-- A write of DI.CFG with the substitutions of R169 and R177; clearing WBEN clears WIREBRK (R175), and the filter takes
the comparator's level under the new setting (R171). -/
def writeDiCfg (n : Nat) (v : Word) (s : State) : State :=
  let t3 := decide (bits v 0 2 = 3)
  let e3 := decide (bits v 4 2 = 3)
  let v := if t3 then setBits v 0 2 0 else v
  let v := if e3 then setBits v 4 2 0 else v
  let prog := decide (bits v 0 2 = 2)
  let thr := clamp 20 280 (bits v 16 9)
  let hy := clamp 2 20 (bits v 25 5)
  let sub := prog && (decide (thr ≠ bits v 16 9) || decide (hy ≠ bits v 25 5))
  let v := if prog then setBits (setBits v 16 9 thr) 25 5 hy else v
  let t := cfgErr n (t3 || e3 || sub) (s.setReg (chA n 0x40) (v &&& 0x3FFF003F))
  let t := if bit v 3 then t else t.setFlag (aStat n) 16 false
  takeLevel n (t.setCh n { t.ch n with raw := t.compLevel n })

/-- A write of DI.DEBOUNCE: values above the range are stored as the nearer limit (R173). -/
def writeDebounce (n : Nat) (v : Nat) (s : State) : State :=
  cfgErr n (decide (1310700 < v)) (s.setReg (chA n 0x44) (word (min 1310700 v)))

/-- A write of DI.PERSIST: until the first snapshot since the last application of DIC, setting PEN restarts the interval and the step
(R186). -/
def writePersist (n : Nat) (v : Word) (s : State) : State :=
  let was := s.flag (chA n 0x5C) 31
  let t := s.setReg (chA n 0x5C) (v &&& 0x8000FFFF)
  if bit v 31 && !was && !(s.ch n).snapped then restartSnap n t else t

/-- Loads the live count at an application of DIC (R181): the committed snapshot of the ladder with PEN set, else 0. The
group's 16-bit count starts at 0. DEDUCED: assumption 29. -/
def loadCount (n : Nat) (s : State) : State :=
  let v := if s.flag (chA n 0x5C) 31 && !s.fenced .pflash then ((sget {} s.pf.index n).value).map (·.2) else none
  let t := (s.setPair (chA n 0x48) (v.getD 0)).setFlag (aStat n) 21 v.isSome
  restartSnap n (t.setCh n { t.ch n with cnt16 := 0, base := 0, baseOk := true, edgeTs := none, snapped := false })

/-- Starts the filter of a DI or DIC channel (R540) with the comparator at a level. -/
def startFilter (n : Nat) (raw : Bool) (s : State) : State := takeLevel n (s.setCh n { s.ch n with raw := raw })

/-- An item of the group that carries its 16-bit count (R178 to R180): the difference is added, the base retaken after a loss, and the
step trigger judged (R186). The time of the last counted edge comes with the count, so that the two stay one snapshot (R182).
DEDUCED: assumption 94. -/
def takeCount (n : Nat) (s : State) : State :=
  let a := s.ch n
  let d : BitVec 64 := if a.baseOk then (a.cnt16 - a.base).setWidth 64 else 0
  let t := s.setCh n { a with base := a.cnt16, baseOk := true, edgeSeen := a.edgeSeen || a.edgeTs.isSome }
  let t := match a.edgeTs with
    | some v => t.setPair (chA n 0x54) v
    | none => t
  let t := slotValid n (t.setPair (chA n 0x48) (s.liveCount n + d))
  let step := (t.reg (chA n 0x60)).toNat
  if step ≠ 0 ∧ step ≤ (t.liveCount n - (t.ch n).snapCount).toNat then persist n t else t

/-- Whether an edge to a level is one that EDGE counts (R177). -/
def State.counts (s : State) (n : Nat) (level : Bool) : Bool :=
  match s.fld (chA n 0x40) 4 2 with
  | 0 => level
  | 1 => !level
  | _ => true

/-- A confirmed edge (R172, R178): STATE and EDGES follow, and a counted edge advances the group's count and leaves its t_start. -/
def confirmEdge (n : Nat) (level : Bool) (tstart : BitVec 64) (s : State) : State :=
  let e := s.fld (chA n 0x50) 16 16
  let t := slotValid n ((s.setFlag (chA n 0x50) 0 level).setFld (chA n 0x50) 16 16 (e + 1))
  let a := { t.ch n with raw := level != s.invert n, run := none }
  t.setCh n (if decide (s.mode n = 2) && s.counts n level then { a with cnt16 := a.cnt16 + 1, edgeTs := some tstart } else a)

/-- The confirmation of a pending fire (R203, R208), and the end of the follow holds whose source is back (R197). -/
def confirmFire (n : Nat) (level : Bool) (s : State) : State :=
  let t := match (s.ch n).fire with
    | none => s
    | some f =>
      if f.level = level then
        f.acts.foldl (fun u x =>
          let u := u.record 0x26 0 0 (skipMark x.k x.act f.ts)
          if x.exec && actNotes x.act then skipEvent x.k x.act f.ts "confirmed" u else u)
          (s.setCh n { s.ch n with fire := none })
      else s
  forAll t.chans (fun m u => match (u.ch m).hold with
    | some h =>
      if h.src = n ∧ h.lev ≠ level ∧ bits h.act 0 3 ≤ 2 ∧ bits h.act 12 2 = 1 then endHold m u else u
    | none => u) t

/-- The checks of a DI and DIC form (R190). -/
def diChecks (ch : ChRef) (dic : Bool) (s : State) : List (Code × Bool) :=
  chObj ch s ++ [(.mode, if dic then decide (s.mode ch.n ≠ 2) else !isDi (s.mode ch.n))]

/-- DI_THR_TYPE (R169). -/
def execDiThrType (ln : Line) (ch : ChRef) (t3 : Bool) (s : State) : Host.Outcome State Fault Refusal :=
  done (runLine ln {} (diChecks ch false)
    (okay fun t => writeDiCfg ch.n (setBits (t.reg (chA ch.n 0x40)) 0 2 t3.toNat) t) s)

/-- DI_THR_PROG (R169): steps of 0.1 V; a hysteresis left out keeps its value (R542). -/
def execDiThrProg (ln : Line) (ch : ChRef) (thr : Qty) (hyst : Option Qty) (s : State) :
    Host.Outcome State Fault Refusal :=
  let v := qSteps thr .V 1 100
  let h := hyst.map fun q => qSteps q .V 1 100
  done (runLine ln {} (fun t => diChecks ch false t ++
      [(.unit, qBad thr .V || (hyst.map (qBad · .V)).getD false),
       (.range, outside v 20 280 || (h.map (outside · 2 20)).getD false)])
    (okay fun t =>
      let x := setBits (setBits (t.reg (chA ch.n 0x40)) 0 2 2) 16 9 v.toNat
      writeDiCfg ch.n (match h with | some y => setBits x 25 5 y.toNat | none => x) t) s)

/-- DI_INVERT (R170). -/
def execDiInvert (ln : Line) (ch : ChRef) (on : Bool) (s : State) : Host.Outcome State Fault Refusal :=
  done (runLine ln {} (diChecks ch false)
    (okay fun t => writeDiCfg ch.n (setBit (t.reg (chA ch.n 0x40)) 2 on) t) s)

/-- DI_DEBOUNCE (R173): steps of 1 µs, 20 cycles each. -/
def execDiDebounce (ln : Line) (ch : ChRef) (t : Qty) (s : State) : Host.Outcome State Fault Refusal :=
  let v := qSteps t .us 1 1000
  done (runLine ln {} (fun u => diChecks ch false u ++ [(.unit, qBad t .us), (.range, outside v 0 65535)])
    (okay (writeDebounce ch.n (20 * v.toNat))) s)

/-- DI_WIREBREAK (R175). -/
def execDiWirebreak (ln : Line) (ch : ChRef) (on : Bool) (s : State) : Host.Outcome State Fault Refusal :=
  done (runLine ln {} (diChecks ch false)
    (okay fun t => writeDiCfg ch.n (setBit (t.reg (chA ch.n 0x40)) 3 on) t) s)

/-- DIC_EDGE (R177). -/
def execDicEdge (ln : Line) (ch : ChRef) (e : Pol) (s : State) : Host.Outcome State Fault Refusal :=
  done (runLine ln {} (diChecks ch true)
    (okay fun t => writeDiCfg ch.n (setBits (t.reg (chA ch.n 0x40)) 4 2 e.ctorIdx) t) s)

/-- DIC_COUNT (R182): one snapshot of the live count and the timestamp of the last counted edge. -/
def execDicCount (ln : Line) (ch : ChRef) (s : State) : Host.Outcome State Fault Refusal :=
  done (runLine ln { locked := true } (diChecks ch true) (value fun t =>
    [{ val := .n (t.liveCount ch.n).toNat },
     if (t.ch ch.n).edgeSeen then kn "t" (t.pair (chA ch.n 0x54)).toNat else kw "t" "-"]) s)

/-- DIC_COUNT_SET (R190). -/
def execDicCountSet (ln : Line) (ch : ChRef) (v : Nat) (s : State) : Host.Outcome State Fault Refusal :=
  done (runLine ln {} (fun t => diChecks ch true t ++ [(.range, decide (2 ^ 64 ≤ v))])
    (okay (setCount ch.n (BitVec.ofNat 64 v))) s)

/-- DIC_COUNT_CLEAR (R190). -/
def execDicCountClear (ln : Line) (ch : ChRef) (s : State) : Host.Outcome State Fault Refusal :=
  done (runLine ln {} (diChecks ch true) (okay (setCount ch.n 0)) s)

/-- DIC_PERSIST (R186): none is off; an interval in seconds, and counts per step, which keep their value when left out
(R542). -/
def execDicPersist (ln : Line) (ch : ChRef) (a : Option (Qty × Option Nat)) (s : State) :
    Host.Outcome State Fault Refusal :=
  match a with
  | none =>
    done (runLine ln {} (diChecks ch true)
      (okay fun t => writePersist ch.n (setBit (t.reg (chA ch.n 0x5C)) 31 false) t) s)
  | some (q, step) =>
    let v := qSteps q .s 1 1000000000
    done (runLine ln {} (fun t => diChecks ch true t ++
        [(.unit, qBad q .s), (.range, outside v 1 65535 || (step.map fun n => decide (2 ^ 32 ≤ n)).getD false)])
      (okay fun t =>
        let t := writePersist ch.n (setBit (word v.toNat) 31 true) t
        match step with
        | some n => t.setReg (chA ch.n 0x60) (word n)
        | none => t) s)

/-- DEBOUNCE_CONFIRM (R172, R203, R197): the filter emits a confirmed edge to a level, after INVERT. Its t_start is that of the run that
a raw edge began; tstart stands for the raw transition of a run that no command has told of. A run whose raw level is back does not
confirm. -/
def execDebounceConfirm (n : Nat) (level : Bool) (tstart : BitVec 64) (s : State) :
    Host.Outcome State Fault Refusal :=
  done (if s.diLive n && (s.flag (chA n 0x50) 0 != level) &&
      ((s.ch n).run.isNone || ((s.ch n).raw != s.invert n) == level) then
    confirmFire n level (confirmEdge n level ((s.ch n).run.getD tstart) (s.item (n / 16)))
  else s)

/-- WIREBREAK (R175). -/
def execWirebreak (n : Nat) (s : State) : Host.Outcome State Fault Refusal :=
  done (if s.diLive n && s.flag (chA n 0x40) 3 && !s.flag (aStat n) 16 then
    chEvent .wirebreak n (((s.item (n / 16)).setFlag (aStat n) 16 true).setFlag (aStat n) 17 true)
  else s)

/-- WIREOK (R175). -/
def execWireok (n : Nat) (s : State) : Host.Outcome State Fault Refusal :=
  done (if s.diLive n && s.flag (chA n 0x40) 3 && s.flag (aStat n) 16 then
    chEvent .wireok n ((s.item (n / 16)).setFlag (aStat n) 16 false)
  else s)

/-- COUNT_ITEM_SEND (R179): the group sends a count item, and the fabric takes it. -/
def execCountItemSend (n : Nat) (s : State) : Host.Outcome State Fault Refusal :=
  done (if s.dicLive n then takeCount n (s.item (n / 16)) else s)

/-- DIC_COUNT_ITEM (R178, R179): the fabric takes a valid edge or count item of the group. It carries the group's 16-bit count, and
the t_start of its last counted edge; an item with other contents does not occur. -/
def execDicCountItem (n : Nat) (count : BitVec 16) (edge : Option (BitVec 64)) (s : State) : Host.Outcome State Fault Refusal :=
  done (if s.dicLive n && decide (count = (s.ch n).cnt16) && decide (edge = (s.ch n).edgeTs) then takeCount n (s.item (n / 16)) else s)

/-- PERSIST_INTERVAL (R186): PINT seconds have passed since the last snapshot. -/
def execPersistInterval (n : Nat) (s : State) : Host.Outcome State Fault Refusal :=
  done (if decide (n < s.member.channels) && !s.dead && decide (s.fld (chA n 0x5C) 0 16 ≠ 0) then persist n s else s)

end Sys2Proof.Machine
end

