-- ==== Sys2Proof/Machine/Skipper.lean ====
section
/-!
DEFINITION. Skipper reflexes (chapter 7): firing, confirmation, revocation, the holds, and the skip commands. The DOF
output's protection stands here too.
-/
namespace Sys2Proof.Machine

/-- SRC of a reflex. -/
def State.skSrc (s : State) (k : Nat) : Nat := s.fld (skA k 0) 0 7
/-- ACT of a reflex. -/
def State.skAct (s : State) (k : Nat) : Word := s.reg (skA k 4)

/-- INACTIVE (R194): SRC not in DI or DIC, a target not in DOF or DOH for an output action, or a group the member lacks. -/
def State.skInactive (s : State) (k : Nat) : Bool :=
  let n := s.skSrc k
  let a := s.skAct k
  let m := actTarget a
  !(decide (n < s.member.channels) && isDi (s.mode n)) ||
  (if bits a 0 3 ≤ 3 then !(decide (m < s.member.channels) && (decide (s.mode m = 3) || decide (s.mode m = 4)))
   else decide (bits a 0 3 = 4) && decide (s.member.groups ≤ m / 16))

/-- Whether a reflex commits on the edge (R202). -/
def State.skCommit (s : State) (k : Nat) : Bool :=
  s.flag (skA k 0) 12 || decide ((s.reg (chA (s.skSrc k) 0x44)).toNat ≤ 1) || decide (bits (s.skAct k) 0 3 = 4)

/-- Whether reflex k holds an output (SKIP.HOLDING). -/
def State.skHolding (s : State) (k : Nat) : Bool :=
  s.chans.any fun n => ((s.ch n).hold.map fun h => decide (h.k = k)).getD false

/-- Whether a fire of reflex k awaits confirmation (SKIP.PENDING). -/
def State.skPending (s : State) (k : Nat) : Bool :=
  s.chans.any fun n => ((s.ch n).fire.map fun f => f.acts.any fun x => decide (x.k = k)).getD false

/-- The reflexes that an edge of a channel fires (R195): enabled, active, of that source and polarity. level is the
comparator output before INVERT. -/
def State.matching (s : State) (n : Nat) (level : Bool) : List Nat :=
  (List.range s.member.reflexes).filter fun k =>
    s.flag 0x60008 k && decide (s.skSrc k = n) && !s.skInactive k &&
    (match s.fld (skA k 0) 8 2 with | 0 => level | 1 => !level | _ => true)

/-- The value an output action would hold (R196): a toggle inverts what the selector drives. -/
def State.actValue (s : State) (a : Word) : Bool :=
  match bits a 0 3 with
  | 0 => true
  | 1 => false
  | 2 => decide ((s.drive (actTarget a)).2 = 0)
  | _ => bit a 3

/-- Why an output action is discarded (R200), if it is: 0 under R22, 1 under R198, 2 for an unpowered or lost group. -/
def State.discards (s : State) (k : Nat) (a : Word) (ts : BitVec 64) : Option Nat :=
  let m := actTarget a
  if !s.powered (m / 16) || !s.linkUp (m / 16) then some 2
  else if decide (s.chst m ≠ 0) && (s.actValue a != decide (s.safeVal m ≠ 0)) then some 0
  else match (s.ch m).hold with
    | some h => if ts.toNat < h.ts.toNat ∨ (ts = h.ts ∧ h.k < k) then some 1 else none
    | none => none

/-- Dispatches the action of a reflex (R196, R198 to R200); the result says whether it executed. The lane to a group whose latch acts on
its own has failed: before the link is declared lost, the action is lost there, which is no discard (R200). DESIGN CHOICE:
assumption 90. -/
def dispatch (k src : Nat) (lev : Bool) (ts : BitVec 64) (s : State) : State × Bool :=
  let a := s.skAct k
  let m := actTarget a
  if bits a 0 3 = 4 then (pulseCause (aSafeGrp (m / 16)) 11 (.grp (m / 16)) (grpChans (m / 16)) s, true)
  else if 5 ≤ bits a 0 3 then (s, true)
  else if s.powered (m / 16) && s.linkUp (m / 16) && (s.gr (m / 16)).acts then (s, false)
  else match s.discards k a ts with
    | some why => ((s.count (skA k 0x18)).record 0x28 0 0 (skipMark k a ts ++ [word why]), false)
    | none =>
      let h : SkipHold := { k := k, val := s.actValue a, ts := ts, src := src, lev := lev, act := a }
      (withGates [m] (fun t => t.setCh m { t.ch m with hold := some h }) s, true)

/-- One reflex fires (R195, R202, R203, R208). -/
def fireOne (n : Nat) (lev : Bool) (ts : BitVec 64) (k : Nat) (r : State × List FireAct) : State × List FireAct :=
  let s := r.1.count (skA k 0x10)
  let a := s.skAct k
  let commit := s.skCommit k
  let d := dispatch k n lev ts s
  let t := if d.2 then d.1.record 0x25 0 0 (skipMark k a ts) else d.1
  if commit then (if d.2 && actNotes a then skipEvent k a ts "committed" t else t, r.2)
  else (t, r.2 ++ [{ k := k, act := a, exec := d.2 }])

/-- The channel's reflexes fire on a raw edge (R195). They are dispatched in parallel; what they do is judged in ascending order of
reflex number. DESIGN CHOICE: assumption 91. -/
def fireAll (n : Nat) (level : Bool) (ts : BitVec 64) (s : State) : State :=
  let lev := level != s.invert n
  match s.matching n level with
  | [] => s
  | l =>
    let t := s.recordFree 0x02 (n / 16) 0 1
    let r := l.foldl (fun r k => fireOne n lev ts k r) (t, [])
    if r.2 = [] then r.1 else r.1.setCh n { r.1.ch n with fire := some { level := lev, ts := ts, acts := r.2 } }

/-- REFLEX_FIRE (R195): a raw edge of the comparator of channel n to a level, at an instant. An edge away from the confirmed state
begins a run of the filter, which carries its timestamp (R172). -/
def execReflexFire (n : Nat) (level : Bool) (t : BitVec 64) (s : State) : Host.Outcome State Fault Refusal :=
  done (if s.diLive n then
    let conf := s.flag (chA n 0x50) 0
    let a := s.ch n
    let u := s.setCh n { a with
      raw := level, run := if (level != s.invert n) == conf then a.run else some (a.run.getD t) }
    if s.fenced .skip || (s.ch n).fire.isSome || ((level != s.invert n) == conf) then u
    else fireAll n level t u
  else s)

/-- REFLEX_REVOKE (R203, R172): a sample finds the raw level back at the confirmed state before confirmation: the run ends, and a fire
that awaits confirmation is revoked. -/
def execReflexRevoke (n : Nat) (s : State) : Host.Outcome State Fault Refusal :=
  done (if s.diLive n then
    revokeFire n (s.setCh n { s.ch n with raw := s.flag (chA n 0x50) 0 != s.invert n, run := none })
  else s)

/-- REFLEX_HOLD_TIMEOUT (R197): the timed hold on output n ends. -/
def execReflexHoldTimeout (n : Nat) (s : State) : Host.Outcome State Fault Refusal :=
  done (match (s.ch n).hold with
    | some h => if bits h.act 0 3 ≤ 2 ∧ bits h.act 12 2 = 2 then endHold n s else s
    | none => s)

/-- PULSE_END (R196): the pulse on output n ends. -/
def execPulseEnd (n : Nat) (s : State) : Host.Outcome State Fault Refusal :=
  done (match (s.ch n).hold with
    | some h => if bits h.act 0 3 = 3 then endHold n s else s
    | none => s)

/-- The checks of a skip form that needs the part disarmed (R211). -/
def skChecks (k : Nat) (s : State) : List (Code × Bool) := skObj k s ++ [(.armed, s.sup.armed)]

/-- The check of an output action's target (R194). -/
def skTarget (ch : ChRef) (s : State) : List (Code × Bool) :=
  chObj ch s ++ [(.mode, !(decide (s.mode ch.n = 3) || decide (s.mode ch.n = 4)))]

/-- A time of a reflex in 50 ns steps (R193, R211). -/
def skTime (t : Qty) : Int := qSteps t .us 1 50

/-- The checks of a reflex time. -/
def skTimeChecks (t : Qty) : List (Code × Bool) := [(.unit, qBad t .us), (.range, outside (skTime t) 1 (2 ^ 32 - 1))]

/-- SKIP_SRC (R211, R194). -/
def execSkipSrc (ln : Line) (k : Nat) (ch : ChRef) (p : Pol) (s : State) : Host.Outcome State Fault Refusal :=
  done (runLine ln {} (fun t => skChecks k t ++ chObj ch t ++ [(.mode, !isDi (t.mode ch.n))])
    (okay fun t => (t.setFld (skA k 0) 0 7 ch.n).setFld (skA k 0) 8 2 p.ctorIdx) s)

/-- SKIP_CONFIRM (R201, R211): steps of 100 ns; 0 sets COMMIT and leaves DBTIME. -/
def execSkipConfirm (ln : Line) (k : Nat) (t : Qty) (s : State) : Host.Outcome State Fault Refusal :=
  let v := qSteps t .us 1 100
  done (runLine ln {} (fun u => skChecks k u ++
      [(.mode, !(decide (u.skSrc k < u.member.channels) && isDi (u.mode (u.skSrc k)))), (.unit, qBad t .us),
       (.range, decide (t.num ≠ 0) && outside v 1 655350)])
    (okay fun u => if t.num = 0 then u.setFlag (skA k 0) 12 true
      else (u.setFlag (skA k 0) 12 false).setReg (chA (u.skSrc k) 0x44) (word (2 * v.toNat))) s)

/-- SKIP_ACT (R196, R211): t is the time of hold. -/
def execSkipAct (ln : Line) (k : Nat) (a : SAct) (ch : ChRef) (r : Rel) (t : Qty) (s : State) :
    Host.Outcome State Fault Refusal :=
  done (runLine ln {} (fun u => skChecks k u ++ skTarget ch u ++ (if r = .timed then skTimeChecks t else []))
    (okay fun u =>
      let x := setBits (setBits (setBits (u.skAct k) 0 3 a.ctorIdx) 4 7 ch.n) 12 2 r.ctorIdx
      let u := u.setReg (skA k 4) x
      if r = .timed then u.setReg (skA k 8) (word (skTime t).toNat) else u) s)

/-- SKIP_ACT_PULSE (R196, R211). -/
def execSkipActPulse (ln : Line) (k : Nat) (ch : ChRef) (high : Bool) (t : Qty) (s : State) :
    Host.Outcome State Fault Refusal :=
  done (runLine ln {} (fun u => skChecks k u ++ skTarget ch u ++ skTimeChecks t)
    (okay fun u =>
      let x := setBit (setBits (setBits (u.skAct k) 0 3 3) 4 7 ch.n) 3 high
      (u.setReg (skA k 4) x).setReg (skA k 8) (word (skTime t).toNat)) s)

/-- SKIP_ACT_GSAFE (R196, R211). -/
def execSkipActGsafe (ln : Line) (k : Nat) (g : Nat) (s : State) : Host.Outcome State Fault Refusal :=
  done (runLine ln {} (fun u => skChecks k u ++ grObj g u)
    (okay fun u => u.setReg (skA k 4) (setBits (setBits (u.skAct k) 0 3 4) 4 7 (16 * g))) s)

/-- SKIP_ACT_STAMP (R196, R211). -/
def execSkipActStamp (ln : Line) (k : Nat) (s : State) : Host.Outcome State Fault Refusal :=
  done (runLine ln {} (skChecks k) (okay fun u => u.setFld (skA k 4) 0 3 5) s)

/-- SKIP_NOTE (R211). -/
def execSkipNote (ln : Line) (k : Nat) (on : Bool) (s : State) : Host.Outcome State Fault Refusal :=
  done (runLine ln {} (skChecks k) (okay fun u => u.setFlag (skA k 4) 14 on) s)

/-- Enables or disables a reflex; disabling ends its holds (R197). -/
def setEnable (k : Nat) (on : Bool) (s : State) : State :=
  let t := s.setFlag 0x60008 k on
  if on then t else endHoldsOf k t

/-- SKIP_ENABLE (R211, R197). -/
def execSkipEnable (ln : Line) (k : Nat) (on : Bool) (s : State) : Host.Outcome State Fault Refusal :=
  done (runLine ln {} (skObj k) (okay (setEnable k on)) s)

/-- SKIP_RELEASE (R197, Table 7.7): it ends the hold of the reflex whatever RELEASE or a pulse says of it. DEDUCED: assumption 92. -/
def execSkipRelease (ln : Line) (k : Nat) (s : State) : Host.Outcome State Fault Refusal :=
  done (runLine ln {} (skObj k) (okay (endHoldsOf k)) s)

/-- SKIP_REPORT_REVOKED (R208). -/
def execSkipReportRevoked (ln : Line) (on : Bool) (s : State) : Host.Outcome State Fault Refusal :=
  done (runLine ln {} (fun _ => []) (okay fun t => t.setFlag 0x60004 0 on) s)

/-- The confirm time of a reflex as skip get writes it, in µs with one decimal, or two where it is an odd count of
50 ns. -/
def State.confirmFld (s : State) (k : Nat) : Fld :=
  let d := (s.reg (chA (s.skSrc k) 0x44)).toNat
  if s.flag (skA k 0) 12 || decide (d ≤ 1) then kw "confirm" "commit"
  else if d % 2 = 0 then kx "confirm" (d / 2 : Nat) 1 "us" else kx "confirm" (5 * d : Nat) 2 "us"

/-- SKIP_GET (R211). -/
def execSkipGet (ln : Line) (k : Nat) (s : State) : Host.Outcome State Fault Refusal :=
  done (runLine ln { locked := false } (skObj k) (value fun t =>
    let a := t.skAct k
    [{ key := "src", val := .obj (t.skSrc k / 16) (t.skSrc k % 16) },
     fw (match t.fld (skA k 0) 8 2 with | 0 => "rising" | 1 => "falling" | _ => "both"),
     t.confirmFld k,
     kw "act" (actName a)] ++
    (if bits a 0 3 ≤ 3 then [fch (actTarget a)] else if bits a 0 3 = 4 then [fw ("g" ++ toString (actTarget a / 16))] else []) ++
    [kw "release" (match bits a 12 2 with | 0 => "command" | 1 => "follow" | _ => "timed"),
     kb "en" (t.flag 0x60008 k), ky "holding" (t.skHolding k), ky "pending" (t.skPending k),
     kn "fires" (t.reg (skA k 0x10)).toNat, kn "revokes" (t.reg (skA k 0x14)).toNat,
     kn "discards" (t.reg (skA k 0x18)).toNat]) s)

/-! ### DOF protection (R209, R210) -/

/-- Whether a DOF channel's driver can act: the mode is active and the group's items arrive. -/
def State.dofLive (s : State) (n : Nat) : Bool := decide (s.mode n = 4) && s.active n && s.itemFrom (n / 16)

/-- DOF_OVERLOAD (R209): the driver goes to high impedance, and the channel fault stands. -/
def execDofOverload (n : Nat) (s : State) : Host.Outcome State Fault Refusal :=
  done (if s.dofLive n && !s.flag (aStat n) 16 then
    refreshFault n (chEvent .overload n (((s.item (n / 16)).setFlag (aStat n) 16 true).setFlag (aStat n) 17 true))
  else s)

/-- OVERLOAD_CLEAR (R307): after 1 s the driver is released. -/
def execOverloadClear (n : Nat) (s : State) : Host.Outcome State Fault Refusal :=
  done (if decide (s.mode n = 4) && s.flag (aStat n) 16 then
    refreshFault n ((s.item (n / 16)).setFlag (aStat n) 16 false)
  else s)

/-- Whether the terminal of a DOF disagrees with the driven level in its latest sample (R210): below VFg - 3 V at 1, above 3 V at 0. An
undriven terminal, or one at high impedance, is driven to no level. -/
def State.dofDisagrees (s : State) (n : Nat) : Bool :=
  decide ((s.drive n).1 ≠ 4) && !s.prot n &&
  (if (s.drive n).2 = 0 then decide (3000 < s.termMv n)
   else decide (s.termMv n < (s.fld (grA (n / 16) 0x10) 0 16 : Int) - 3000))

/-- DOF_MISMATCH (R210): the terminal has disagreed for 1 ms; status only. -/
def execDofMismatch (n : Nat) (s : State) : Host.Outcome State Fault Refusal :=
  done (if s.dofLive n && !s.flag (aStat n) 18 && !s.gFenced (n / 16) .sar && s.dofDisagrees n then
    chEvent .dofMismatch n (s.setFlag (aStat n) 18 true)
  else s)

/-- DOF_MISMATCH_CLEAR (R210): the condition has been absent for 1 ms. -/
def execDofMismatchClear (n : Nat) (s : State) : Host.Outcome State Fault Refusal :=
  done (if s.dofLive n && s.flag (aStat n) 18 && !s.gFenced (n / 16) .sar && !s.dofDisagrees n then
    s.setFlag (aStat n) 18 false
  else s)

end Sys2Proof.Machine
end

