-- ==== Sys2Proof/Machine/Modes.lean ====
section
/-!
DEFINITION. Safe values and the latch (R146, R152, R536), the application of modes (R155, R156, R162, R539), and what a
loss and a bring-up of a group do (R59, R149 to R151).
-/
namespace Sys2Proof.Machine

/-! ### Safe values -/

/-- Whether a safe kind is accepted for a mode (Table 5.1). -/
def kindOk (m kind : Nat) (ets : Bool) : Bool :=
  match kind with
  | 0 => true
  | 1 => decide (m = 3) && ets
  | 2 => isAo m
  | _ => isOut m

/-- A HOLD has expired (R154, R303): EXPIRED, OFF, SAFE_HOLDEXP. -/
def expireHold (n : Nat) (s : State) : State :=
  chEvent .safeHoldexp n (withGates [n] (fun t => t.setFld (aChst n) 0 2 2) s)

/-- The maximum hold time of a channel in CLK_R periods. -/
def State.holdMax (s : State) (n : Nat) : Nat := s.fld (chA n 8) 0 16 * 40000000

/-- Whether a channel in safe state counts a hold. -/
def State.holdRuns (s : State) (n : Nat) : Bool :=
  isOut (s.mode n) && decide (s.chst n = 1) && decide (s.fld (chA n 4) 0 2 = 3) && (s.ch n).holding

/-- What follows a write of SAFE or HOLD on a channel, given its kind and terminal value before (R146, R536): the latch
reloads; in safe state a kind changed to HOLD captures, and a running hold is judged against its maximum. An expired channel stays
expired, whatever the kind is then (R154, Table 11.2). DEDUCED: assumption 83. -/
def safeChanged (n old : Nat) (v : BitVec 16) (s : State) : State :=
  let t := loadLatch (n / 16) s
  let kind := t.fld (chA n 4) 0 2
  if !t.inSafe n || decide (t.chst n = 2) then t
  else if kind = 3 ∧ old = 3 then
    if t.holdRuns n && decide (t.holdMax n ≤ t.clk.raw - (t.ch n).holdAt) then expireHold n t else t
  else if kind = 3 then t.capture n v
  else t.setCh n { t.ch n with holding := false }

/-- Runs a write of SAFE, HOLD, ETS or MODE and lets the safe state and the gate follow. -/
def withSafe (n : Nat) (f : State → State) (s : State) : State :=
  withGates [n] (fun t => safeChanged n (t.fld (chA n 4) 0 2) (t.drive n).2 (f t)) s

/-- A stored kind that the mode does not accept becomes OFF and sets CFGERR (R152). -/
def checkKind (n : Nat) (s : State) : State :=
  if isOut (s.mode n) && !kindOk (s.mode n) (s.fld (chA n 4) 0 2) (s.flag (chA n 0) 7) then
    withSafe n (fun t => cfgErr n true (t.setFld (chA n 4) 0 2 0)) s
  else s

/-! ### The rotation of the spare (R281) -/

/-- ROT.STAT of a group. -/
def aRot (g : Nat) : Nat := grA g 0x48

/-- A mode application on the step's channel ends the step: the spare returns to READY. -/
def rotMode (n : Nat) (s : State) : State :=
  let st := s.fld (aRot (n / 16)) 0 3
  if 2 ≤ st ∧ st ≤ 4 ∧ s.fld (aRot (n / 16)) 8 4 = n % 16 then s.setFld (aRot (n / 16)) 0 3 0 else s

/-- A restart of the step channel's filter: the step resumes at CONNECT. -/
def rotResume (n : Nat) (s : State) : State :=
  let st := s.fld (aRot (n / 16)) 0 3
  if 2 ≤ st ∧ st ≤ 4 ∧ s.fld (aRot (n / 16)) 8 4 = n % 16 then s.setFld (aRot (n / 16)) 0 3 2 else s

/-- A loss of the group ends the step; at bring-up the spare runs RECAL. A calibration that the loss cuts off is repeated
in the same way. -/
def rotLost (g : Nat) (s : State) : State :=
  let st := s.fld (aRot g) 0 3
  if 1 ≤ st ∧ st ≤ 5 then (s.setFld (aRot g) 0 3 0).setGr g { s.gr g with recal := true } else s

/-- RECAL at bring-up. -/
def rotBringUp (g : Nat) (s : State) : State :=
  if (s.gr g).recal then
    (s.setGr g { s.gr g with recal := false }).setFld (aRot g) 0 3 5
  else s

/-! ### Modes -/

/-- WIN.CFG's target follows a change of the band or of the window (R286). -/
def refreshTarget (n : Nat) (s : State) : State :=
  let w := s.fld (chA n 0x88) 4 7
  if w < s.member.channels ∧ isOut (s.mode w) then refreshFault w s else s

/-- FENCE judged anew for a channel's mode (R308). -/
def judgeFence (n : Nat) (s : State) : State :=
  if s.fenceHolds n then holdCh 13 n s else dropCh 13 n s

/-- The first part of a mode application (Table 5.4, R308): the old mode's drivers are disabled, its flags and the causes
FAULT and AGE go, FENCE is judged anew, the result slot is NOVALUE and STALE, the window band is MID, a Skipper hold and a
pending fire end. An output channel that is in safe state stays there, with its hold or expired (R304, R536); another enters it. -/
def modeOff (n : Nat) (s : State) : State :=
  let g := n / 16
  let t := endHold n (revokeFire n s)
  let t := withGates [n] (fun t => t.setCh n { t.ch n with isApplied := false, applied := 0 }) t
  let t := t.setReg (aStat n) ((t.reg (aStat n) &&& 0xFFFF) ||| 2)
  let t := t.setFlag (chA n 0x84) 16 true
  let t := ((((t.setReg (chA n 0x248) 0).setReg (chA n 0x24C) 0).setReg (chA n 0x348) 0).setReg (chA n 0x34C) 0)
  let t := refreshTarget n (t.setFld (chA n 0x98) 0 2 0)
  let t := rotMode n t
  let t := dropCh 14 n (dropCh 12 n t)
  let t := if isOut (t.mode n) then judgeFence n t else dropCh 13 n t
  let t := checkKind n t
  let t := t.setCh n { t.ch n with clearReq := false, conv := {} }
  let t := enterSafe n (leaveSafe n t)
  loadLatch g t

/-- The second part (Table 5.4): the new mode is active. raw is the comparator output of a DI or DIC channel (R540).
DEDUCED: assumption 42. -/
def modeOn (n : Nat) (raw : Bool) (s : State) : State :=
  let m := s.mode n
  let t := if isDi m then startFilter n raw s else s
  let t := if m = 2 then loadCount n t else t
  let t := if m = 3 then startModel n (t.setCh n { t.ch n with retries := [] }) else t
  let t := if isAi m || isAo m then filterStart n t else t
  let t := if decide (m = 3) || decide (m = 4) then slotValid n t else t
  let t := withGates [n] (fun t => t.setCh n { t.ch n with isApplied := true, applied := BitVec.ofNat 4 m }) t
  holdFence [n] t

/-- A re-application at bring-up (R539): no cause, flag or count changes, but the filters and the fuse model restart and the
slot is STALE. -/
def reapply (n : Nat) (raw : Bool) (s : State) : State :=
  let m := s.mode n
  let t := if decide (m = 0) || isAi m || isAo m then s else slotValid n s
  let t := if isDi m then startFilter n raw t else t
  let t := if m = 2 then (t.setFlag (aStat n) 19 true).setCh n { t.ch n with baseOk := false } else t
  let t := if isAi m || isAo m then filterStart n t else t
  if m = 3 then startModel n (t.setCh n { t.ch n with retries := [] }) else t

/-- Whether modes are applied to a group now (R162, R163). -/
def State.groupUp (s : State) (g : Nat) : Bool := s.powered g && s.linkUp g && (s.gr g).applied && !(s.gr g).bringing

/-- A channel whose MODE or WIRES4 has changed: the mode is applied now, or at bring-up (R162, R163). While it waits, an output
mode that a fenced unit's row holds safe holds FENCE, and a channel in an input mode or OFF holds no cause (R163, R299). -/
def modeChanged (n : Nat) (s : State) : State :=
  if s.groupUp (n / 16) then modeOff n s
  else
    let t := withGates [n] (fun t => t.setCh n { t.ch n with isApplied := false, applied := 0 }) s
    let t := if isOut (t.mode n) then holdFence [n] t else dropCh 14 n (dropCh 13 n (dropCh 12 n t))
    enterSafe n (leaveSafe n t)

/-- Stores MODE and WIRES4 of a channel; the partner of a 4-wire master follows (R156). -/
def storeMode (n m : Nat) (w4 : Bool) (s : State) : State :=
  let m0 := s.mode n
  let w0 := s.flag (chA n 0) 4
  let t := (s.setFld (chA n 0) 0 4 m).setFlag (chA n 0) 4 w4
  let p := n + 1
  let t := if n % 2 = 0 && w0 && (!w4 || decide (m ≠ m0)) then t.setFlag (chA p 0) 5 false else t
  let t := if n % 2 = 0 && w4 then
      let moved := decide (t.mode p ≠ 0) || t.flag (chA p 0) 4
      let t := ((t.setFld (chA p 0) 0 4 0).setFlag (chA p 0) 4 false).setFlag (chA p 0) 5 true
      if moved then modeChanged p t else t
    else t
  if m ≠ m0 ∨ w4 ≠ w0 then modeChanged n t else t

/-! ### Loss and bring-up of a group -/

/-- What a group loses with its link or its supply (R149, R281): the results go STALE, its fires are revoked and its holds
end, a rotation step ends. -/
def groupLost (g : Nat) (s : State) : State :=
  rotLost g (setStale (grpChans g) (skipLost g s))

/-- The link of a group is declared lost (R149). -/
def linkLost (g : Nat) (s : State) : State :=
  let t := (s.setFlag (aGstat g) 1 false).emit .linkLost (.grp g) []
  let t := groupLost g (holdGrp 6 g t)
  t.setGr g { t.gr g with lost := true, unanswered := 0, bringing := false }

/-- The field supply of a group is lost at the group (R15, R17): its terminals are undriven, and its latch, without a link, stands
on its own when the supply returns. -/
def supplyLost (g : Nat) (s : State) : State :=
  withGates (grpChans g) (fun t => t.setGr g { t.gr g with vf := false, acts := true }) s

/-- A group is reported unpowered (R150, R310): its terminals are undriven (Table 11.5). -/
def groupUnpowered (g : Nat) (s : State) : State :=
  let t := ((supplyLost g s).setFlag (aGstat g) 0 false).setFlag (aGstat g) 1 false
  let t := holdGrp 7 g (t.emit .groupUnpowered (.grp g) [])
  let t := groupLost g t
  t.setGr g { t.gr g with lost := false, unanswered := 0, bringing := false, powerup := false }

/-- The field supply of a group is back (R58). The latch keeps what it holds where its supply stayed above 12 V; else nothing has
been loaded into it since (R17). -/
def supplyBack (kept : Bool) (g : Nat) (s : State) : State :=
  withGates (grpChans g) (fun t =>
    let t := if kept then t else forAll (grpChans g) (fun n u => u.setCh n { u.ch n with latch := {} }) t
    t.setGr g { t.gr g with vf := true, acts := true }) s

/-- Link training succeeds after a loss (R151): LINK clears, RETRAINS rises, the bring-up begins. -/
def trainOk (g : Nat) (s : State) : State :=
  let n := min 0xFF (s.fld (aGstat g) 8 8 + 1)
  let t := (s.setFlag (aGstat g) 1 true).setFld (aGstat g) 8 8 n
  let t := clearCause (aSafeGrp g) 6 (.grp g) (t.emit .linkUp (.grp g) [])
  t.setGr g { t.gr g with lost := false, bringing := true, unanswered := 0 }

/-- A training attempt (R151, R310): three failures within 10 s fence the link, whatever came between them; three unanswered
attempts with no failed one between them report the group unpowered. DEDUCED: assumption 86. -/
def attempt (g : Nat) (r : Train) (s : State) : State :=
  match r with
  | .success => trainOk g s
  | .failed =>
    let l := s.clk.raw :: ((s.gr g).fails.filter fun x => decide (s.clk.raw < x + 4000000000))
    let t := s.setGr g { s.gr g with fails := l, unanswered := 0 }
    if 3 ≤ l.length then fenceUnit true (.grp g .link) (t.setGr g { t.gr g with lost := false }) else t
  | .unanswered =>
    let k := (s.gr g).unanswered + 1
    if 3 ≤ k then groupUnpowered g s else s.setGr g { s.gr g with unanswered := k }

/-- The end of a HOLD that the latch has counted (R154): SAFE takes over the value that it holds, and elapsed, the time that it
reports; a hold that the latch let expire has expired. A kind changed to HOLD since the latch was loaded counts on (R536).
DEDUCED: assumption 43. -/
def takeHold (n elapsed : Nat) (s : State) : State :=
  if s.chst n = 1 ∧ s.fld (chA n 4) 0 2 = 3 ∧ isOut (s.mode n) = true ∧ bits (s.ch n).latch.safe 0 2 = 3 then
    match (s.ch n).latch.held with
    | some v =>
      let t := s.setCh n { s.ch n with held := v, holdAt := s.clk.raw - elapsed, holding := true }
      if t.holdMax n ≤ elapsed then expireHold n t else t
    | none => expireHold n s
  else s

/-- The latch of a group no longer acts on its own: SAFE commands it over the link. -/
def latchIdle (g : Nat) (s : State) : State :=
  withGates (grpChans g) (fun t => (t.setGr g { t.gr g with acts := false }).setFlag (aGstat g) 2 false) s

/-- The end of a bring-up (R59, R539, R303): kind 0 is S6, 1 follows an unpowered period, 2 a loss of the link. At S6 an output
enters safe state with the value that the latch has held at its terminal (R52, R303). DEDUCED: assumption 85. -/
def bringUp (kind g : Nat) (r : BringUp) (s : State) : State :=
  let t := r.fails.foldl (fun t k => fenceUnit false (.grp g k) t) s
  if t.gFenced g .link then t.setGr g { t.gr g with bringing := false, powerup := false }
  else
    let t := t.setGr g { t.gr g with bringing := false, powerup := false, lost := false, unanswered := 0 }
    let t := clearCause (aSafeGrp g) 6 (.grp g) (t.setFlag (aGstat g) 1 true)
    let t := forAll (grpChans g) enterSafe t
    let t := if kind = 1 then forAll (grpChans g) (fun n u =>
        if isOut (u.mode n) && decide (u.chst n = 1) && decide (u.fld (chA n 4) 0 2 = 3) then expireHold n u else u) t
      else if kind = 2 then forAll (grpChans g) (fun n u => takeHold n (sget 0 r.holds (n % 16)) u) t
      else t
    let t := latchIdle g (loadLatch g t)
    if t.gFenced g .latch then t
    else
      let t := forAll (grpChans g) (fun n u =>
        let raw := r.high.contains (n % 16)
        if (u.ch n).isApplied then reapply n raw u else modeOn n raw (modeOff n u)) t
      rotBringUp g (t.setGr g { t.gr g with applied := true })

end Sys2Proof.Machine
end

