-- ==== Sys2Proof/Machine/Groups.lean ====
section
/-!
DEFINITION. Field groups, arming, channel modes and the generic channel commands (chapter 5).
-/
namespace Sys2Proof.Machine

/-! ### The barrier link -/

/-- Adds discarded items to LINKERR, saturating (R147, R167). -/
def linkErr (g k : Nat) (s : State) : State := s.setFld (grA g 4) 0 16 (min 0xFFFF (s.fld (grA g 4) 0 16 + k))

/-- Whether the two ends of a group's link exchange items. -/
def State.linkLive (s : State) (g : Nat) : Bool :=
  decide (g < s.member.groups) && s.powered g && s.linkUp g && !s.dead && !s.sup.crawl

/-- HEARTBEAT_SEND (R147): the group end's heartbeat carries the items it has discarded; the system end's changes nothing
on the system side. -/
def execHeartbeatSend (g : Nat) (sys : Bool) (s : State) : Host.Outcome State Fault Refusal :=
  done (if s.linkLive g && !sys then
    s.setGr g { s.gr g with hbDisc := (s.gr g).hbDisc + (s.gr g).disc, disc := 0 }
  else s)

/-- LINK_SILENT (R148): the group end has received no valid item; the latch applies its held safe values on its own, and a
HOLD of a channel not yet safe captures (R154). -/
def execLinkSilent (g : Nat) (s : State) : Host.Outcome State Fault Refusal :=
  done (if decide (g < s.member.groups) then latchAlone g s else s)

/-- LINK_LOST (R149). -/
def execLinkLost (g : Nat) (s : State) : Host.Outcome State Fault Refusal :=
  done (if s.linkLive g && !s.replaying then linkLost g s else s)

/-- GROUP_POWER_FAIL (R150): the terminals are undriven from then on (R15); the system end reports it where the power-fail item
reaches it over the link. -/
def execGroupPowerFail (g : Nat) (s : State) : Host.Outcome State Fault Refusal :=
  done (if decide (g < s.member.groups) then
    if s.linkLive g then groupUnpowered g (s.recordFree 0x01 g 0 2)
    else if (s.gr g).vf then supplyLost g s else s
  else s)

/-- GROUP_POWERED (R58, R59): a group reported unpowered answers again, or its latch alone does (R58). GROUP_POWERUP takes the place of UNPOWERED. Without a system end that takes items only the group's own side sees the supply
(R15, R17). DEDUCED: assumption 25. -/
def execGroupPowered (x : SupplyUp) (s : State) : Host.Outcome State Fault Refusal :=
  let g := x.grp
  done (if decide (g < s.member.groups) && s.unpowered g && !s.dead && !s.sup.crawl && !s.gFenced g .link then
    let t := supplyBack x.kept g (s.recordFree 0x01 g 0 2)
    let t := (t.setFlag (aGstat g) 0 true).emit .groupPowered (.grp g) []
    let t := pulseCause (aSafeGrp g) 8 (.grp g) (grpChans g) t
    let t := dropCause (aSafeGrp g) 7 (grpChans g) t
    t.setGr g { t.gr g with bringing := true, powerup := true, unanswered := 0 }
  else if decide (g < s.member.groups) && !(s.gr g).vf then supplyBack x.kept g s
  else s)

/-- GROUP_BRINGUP_COMPLETE (R59, R539, R303). -/
def execGroupBringupComplete (g : Nat) (r : BringUp) (s : State) : Host.Outcome State Fault Refusal :=
  done (if decide (g < s.member.groups) && (s.gr g).bringing && !s.dead && !s.sup.crawl then
    bringUp (if (s.gr g).powerup then 1 else 2) g r s
  else s)

/-- Whether a group's link is being retrained (R151). -/
def State.retraining (s : State) (g : Nat) : Bool :=
  decide (g < s.member.groups) && (s.gr g).lost && s.powered g && !s.gFenced g .link && !s.dead && !s.sup.crawl

/-- RETRAIN_ATTEMPT (R151, R310). -/
def execRetrainAttempt (g : Nat) (r : Train) (s : State) : Host.Outcome State Fault Refusal :=
  done (if s.retraining g then attempt g r s else s)

/-- TRAINING_SUCCESS (R151). -/
def execTrainingSuccess (g : Nat) (s : State) : Host.Outcome State Fault Refusal :=
  done (if s.retraining g then trainOk g s else s)

/-- HOLD_EXPIRE (R154, R304): a maximum hold time elapses, counted by SAFE, or by the latch while it acts on its own, which then
drives OFF and reports it at bring-up. -/
def execHoldExpire (n : Nat) (s : State) : Host.Outcome State Fault Refusal :=
  done (if n < s.member.channels then
    if (s.gr (n / 16)).acts then
      if (s.ch n).latch.held.isSome then
        withGates [n] (fun t => t.setCh n { t.ch n with latch := { (t.ch n).latch with held := none } }) s
      else s
    else if s.holdRuns n then expireHold n s
    else s
  else s)

/-! ### Group and arming commands (R164) -/

/-- The group temperature in 0.1 °C, none when not available (R167, R301). -/
def State.temp (s : State) (g : Nat) : Option Int :=
  let v := s.fld (grA g 0xC) 0 16
  if v = 0x8000 ∨ s.gFenced g .sar ∨ s.gFenced g .temp then none else some (sext 16 v)

/-- VFg in mV, none when unpowered or with sar fenced (R167). -/
def State.vf (s : State) (g : Nat) : Option Nat :=
  if !s.powered g || s.gFenced g .sar then none else some (s.fld (grA g 0x10) 0 16)

/-- GRP_GET (R164). -/
def execGrpGet (ln : Line) (g : Nat) (s : State) : Host.Outcome State Fault Refusal :=
  done (runLine ln { locked := false } (grObj g) (value fun t =>
    [kb "power" (t.powered g),
     kw "link" (if t.gFenced g .link then "fenced" else if t.linkUp g then "up" else "lost"),
     kw "latch" (if t.flag (aGstat g) 2 then "acting" else "idle"),
     (match t.temp g with | some v => kx "temp" v 1 "degC" | none => kw "temp" "-"),
     (match t.vf g with | some v => kx "vf" (roundDiv v 10) 2 "V" | none => kw "vf" "-"),
     { key := "doh", val := .n (t.dohSum g), unit := "mA" }, kn "retrains" (t.fld (aGstat g) 8 8)]) s)

/-- GRP_RETRAIN (R164): one training attempt now, whose end is r, if the link is lost. -/
def execGrpRetrain (ln : Line) (g : Nat) (r : Train) (s : State) : Host.Outcome State Fault Refusal :=
  done (runLine ln {} (fun t => grObj g t ++ [(.fenced, t.gFenced g .link), (.unpowered, t.unpowered g)])
    (okay fun t => if t.retraining g then attempt g r t else t) s)

/-- Arms the part (R160, R537): STARTUP and DISARMED go, and SAFE_RELEASE carries the outputs that moved to RUN. -/
def armPart (s : State) : State :=
  if s.sup.armed then s else
    let n := s.safeCount s.chans
    let t := { s with sup := { s.sup with armed := true } }
    let t := dropCause 0x30004 1 t.chans (dropCause 0x30004 0 t.chans t)
    t.emit .safeRelease .dev [fn (n - t.safeCount t.chans)]

/-- Disarms the part (R161, R537). -/
def disarmPart (s : State) : State :=
  if s.sup.armed then holdDev 1 { s with sup := { s.sup with armed := false } } else s

/-- ARM (R160). -/
def execArm (ln : Line) (s : State) : Host.Outcome State Fault Refusal :=
  done (runLine ln { locked := false } (fun _ => []) (okay armPart) s)

/-- DISARM (R161). -/
def execDisarm (ln : Line) (s : State) : Host.Outcome State Fault Refusal :=
  done (runLine ln { locked := false } (fun _ => []) (okay disarmPart) s)

/-! ### Channel commands (R165) -/

/-- CH_MODE (R162, R155 to R157). -/
def execChMode (ln : Line) (ch : ChRef) (m : Mode) (w4 : Bool) (s : State) : Host.Outcome State Fault Refusal :=
  done (runLine ln {} (fun t => chObj ch t ++
      [(.arg, w4 && (decide (ch.c % 2 = 1) || decide (m ≠ .air))), (.mode, t.flag (chA ch.n 0) 5), (.armed, t.sup.armed),
       (.range, decide (m = .doh) &&
         decide (12000 < t.dohSumWith ch.g ch.n (10 * t.fld (chA ch.n 0x140) 0 8)))])
    (okay (storeMode ch.n m.code w4)) s)

/-- MODE_ACTIVE (R162, R540): the new mode of a channel becomes active at the group; raw is the comparator output of a DI
or DIC channel. DESIGN CHOICE: assumption 44. -/
def execModeActive (n : Nat) (raw : Bool) (s : State) : Host.Outcome State Fault Refusal :=
  done (if decide (n < s.member.channels) && s.groupUp (n / 16) && !(s.ch n).isApplied && !s.dead && !s.sup.crawl then
    modeOn n raw s
  else s)

/-- One step of an analogue output code: base unit and the scale of R247 (0.375 µA, 187.5 µV). -/
def aoSteps (m : Nat) (q : Qty) : Int := if m = 8 then qSteps q .mA 8 3 else roundDiv (q.num * (scaleOf (q.unit.getD .V) * 16 : Nat)) (10 ^ q.dec * 3)

/-- The base unit of an analogue output (R247). -/
def aoUnit (m : Nat) : MUnit := if m = 8 then .mA else .V

/-- The kind and value of ch safe. -/
def SafeArg.kindOf : SafeArg → Nat
  | .off => 0 | .on => 1 | .value _ => 2 | .hold _ => 3

/-- CH_SAFE (R165, R152, R536). In an input mode and in OFF no kind exists, and every form answers MODE. DESIGN CHOICE:
assumption 105. -/
def execChSafe (ln : Line) (ch : ChRef) (a : SafeArg) (s : State) : Host.Outcome State Fault Refusal :=
  let n := ch.n
  done (runLine ln {} (fun t => chObj ch t ++
      [(.mode, !isOut (t.mode n) || !kindOk (t.mode n) (SafeArg.kindOf a) (t.flag (chA n 0) 7)), (.armed, t.sup.armed)] ++
      (match a with
       | .value v => [(.unit, qBad v (aoUnit (t.mode n))), (.range, outside (aoSteps (t.mode n) v) 0 (aoMax (t.mode n)))]
       | .hold h => [(.unit, qBad h .s), (.range, outside (qSteps h .s 1 100000000) 1 65535)]
       | _ => []))
    (okay (withSafe n fun t =>
      let t := t.setFld (chA n 4) 0 2 (SafeArg.kindOf a)
      match a with
      | .value v => t.setFld (chA n 4) 16 16 (aoSteps (t.mode n) v).toNat
      | .hold h => t.setFld (chA n 8) 0 16 (qSteps h .s 1 100000000).toNat
      | _ => t)) s)

/-- CH_ETS (R165, R152). -/
def execChEts (ln : Line) (ch : ChRef) (on : Bool) (s : State) : Host.Outcome State Fault Refusal :=
  done (runLine ln {} (fun t => chObj ch t ++ [(.armed, t.sup.armed)])
    (okay fun t => checkKind ch.n (t.setFlag (chA ch.n 0) 7 on)) s)

/-- CH_SOURCE (R165). -/
def execChSource (ln : Line) (ch : ChRef) (ring : Bool) (s : State) : Host.Outcome State Fault Refusal :=
  done (runLine ln {} (fun t => chObj ch t ++ [(.mode, !isOut (t.mode ch.n)), (.armed, t.sup.armed)])
    (okay fun t => t.setFlag (chA ch.n 0) 6 ring) s)

/-- Writes OUT, which the output selector takes (R165, R12, R20). -/
def setOut (n v : Nat) (s : State) : State := withGates [n] (fun t => t.setReg (chA n 0xC) (word (v % 0x10000))) s

/-- The value of ch set in steps of OUT, for a mode. -/
def setSteps (m : Nat) : SetArg → Int
  | .on => 1
  | .off => 0
  | .qty v => if isAo m then aoSteps m v else roundDiv v.num (10 ^ v.dec)

/-- CH_SET (R165, R21, R247). -/
def execChSet (ln : Line) (ch : ChRef) (v : SetArg) (s : State) : Host.Outcome State Fault Refusal :=
  let n := ch.n
  done (runLine ln { locked := false } (fun t =>
      let m := t.mode n
      chObj ch t ++ [(.mode, !isOut m), (.bound, t.flag (chA n 0) 6)] ++
      (match v with
       | .qty q =>
         if isAo m then [(.unit, qBad q (aoUnit m)), (.range, outside (setSteps m v) 0 (aoMax m))]
         else [(.arg, q.unit.isSome || decide (q.num % 10 ^ q.dec ≠ 0)), (.range, outside (setSteps m v) 0 1)]
       | _ => [(.arg, isAo m)]))
    (okay fun t => setOut n (setSteps (t.mode n) v).toNat t) s)

/-- An analogue output code as a value with 4 decimals: mA or V. -/
def aoFld (key : String) (m : Nat) (code : Nat) : Fld :=
  if m = 8 then kx key (roundDiv (code * 375 : Nat) 100) 4 "mA" else kx key (roundDiv (code * 1875 : Nat) 1000) 4 "V"

/-- A reading in nA or µV as a value with 4 decimals: mA or V. -/
def readFld (key : String) (m : Nat) (v : Int) : Fld :=
  kx key (roundDiv v 100) 4 (if m = 8 ∨ m = 5 then "mA" else "V")

/-- The names of BY (Table 1.2). -/
def byName : Nat → String
  | 0 => "normal" | 1 => "skip" | 2 => "safe" | 3 => "prot" | _ => "none"

/-- The value of a channel as ch get writes it (R165, R190, R259). -/
def State.valueFlds (s : State) (n : Nat) : List Fld :=
  let m := s.mode n
  if m = 0 then [fw "-"]
  else if m = 1 then [fw (onOff (s.flag (chA n 0x50) 0))]
  else if m = 2 then [fw (onOff (s.flag (chA n 0x50) 0)), kn "count" (s.liveCount n).toNat]
  else if m = 5 ∨ m = 6 then [readFld "" m (s.reg (chA n 0x248)).toInt]
  else if m = 7 then
    if s.fld (chA n 0x240) 3 2 = 2 then [kx "" (roundDiv (s.reg (chA n 0x248)).toInt 10) 2 "ohm"]
    else [kx "" (s.reg (chA n 0x248)).toInt 2 "degC"]
  else if isAo m then
    [readFld "" m (s.reg (chA n 0x348)).toInt, aoFld "req" m (s.fld (chA n 0xC) 0 16), kw "by" (byName (s.drive n).1)]
  else
    [fw (onOff ((s.drive n).2 != 0)), kb "req" (s.flag (chA n 0xC) 0), kw "by" (byName (s.drive n).1)]

/-- CH_GET (R165). -/
def execChGet (ln : Line) (ch : ChRef) (s : State) : Host.Outcome State Fault Refusal :=
  done (runLine ln { locked := false } (chObj ch) (value fun t => t.valueFlds ch.n ++ [t.statusFld ch.n]) s)

end Sys2Proof.Machine
end

