-- ==== Sys2Proof/Machine/Analogue.lean ====
section
/-!
DEFINITION. Analogue loops (chapter 9): the current limiter and its loop supply, compliance, the readback checks, the
range flags, the conversion of RTDs, and the analogue commands.
-/
namespace Sys2Proof.Machine

/-! ### Range flags (R245) -/

/-- One step of the time for which the valid results have met the change of a flag: the new time and whether the flag
changes. set is the flag, meets whether the result meets the change, d the output period, lim RNGT, in CLK_M cycles. -/
def rangeStep (meets : Bool) (d lim : Nat) (acc : Option Nat) : Option Nat × Bool :=
  if !meets then (none, false)
  else
    let a := match acc with
      | none => 0
      | some x => x + d
    if lim ≤ a then (none, true) else (some a, false)

/-- Whether a value meets the change of a range flag from its present state (Table 9.2): bit 16 UNDER, 17 OVER. -/
def rangeMeets (m b : Nat) (set : Bool) (v : Int) : Bool :=
  if m = 5 then
    if b = 16 then (if set then decide (3800000 ≤ v) else decide (v < 3600000))
    else (if set then decide (v ≤ 20800000) else decide (21000000 < v))
  else if m = 6 ∧ b = 17 then
    (if set then decide (v.natAbs ≤ 10400000) else decide (10500000 < v.natAbs))
  else false

/-- Changes a range flag; setting it sets RNGSEEN and queues its event (R245, R261). -/
def rangeToggle (n b : Nat) (s : State) : State :=
  let on := !s.flag (aStat n) b
  let t := s.setFlag (aStat n) b on
  if on then chEvent (if b = 16 then .underrange else .overrange) n (t.setFlag (aStat n) 24 true) else t

/-- RNGT of a channel in CLK_M cycles. -/
def State.rngt (s : State) (n : Nat) : Nat := s.fld (chA n 0x244) 0 14 * 20000

/-- The range flags take a valid result (R245). -/
def rangeResult (n : Nat) (v : Int) (s : State) : State :=
  let c := (s.ch n).conv
  let u := rangeStep (rangeMeets (s.mode n) 16 (s.flag (aStat n) 16) v) (s.outD n) (s.rngt n) c.under
  let o := rangeStep (rangeMeets (s.mode n) 17 (s.flag (aStat n) 17) v) (s.outD n) (s.rngt n) c.above
  let t := s.setCh n { s.ch n with conv := { c with under := u.1, above := o.1 } }
  let t := if u.2 then rangeToggle n 16 t else t
  if o.2 then rangeToggle n 17 t else t

/-- A boundary without a valid result: the time of the range flags goes on. -/
def rangeIdle (n : Nat) (s : State) : State :=
  let c := (s.ch n).conv
  s.setCh n { s.ch n with conv :=
    { c with under := c.under.map (· + s.outD n), above := c.above.map (· + s.outD n) } }

/-- A change of RNGT: a flag whose results have already met the change for the new time changes (R245). -/
def rangeAgain (n : Nat) (s : State) : State :=
  let c := (s.ch n).conv
  let due (a : Option Nat) : Bool := match a with | some x => decide (s.rngt n ≤ x) | none => false
  let t := s.setCh n { s.ch n with conv :=
    { c with under := if due c.under then none else c.under, above := if due c.above then none else c.above } }
  let t := if due c.under then rangeToggle n 16 t else t
  if due c.above then rangeToggle n 17 t else t

/-! ### RTD conversion (R243) -/

/-- 10^15 · 200^4 times the ratio R / R0 of IEC 60751 at u / 200 °C. -/
def rtdRatio (u : Int) : Int :=
  1000000000000000 * 1600000000 + 3908300000000 * 8000000 * u - 577500000 * 40000 * u * u -
    (if u < 0 then 4183 * (u - 20000) * u * u * u else 0)

/-- The greatest k with lo ≤ k < lo + 2 ^ n whose lower rounding limit k - 1/2, in 0.01 °C, has a resistance of at most
r mΩ, for R0 in mΩ; lo when there is none. -/
def rtdSearch (r r0 : Int) : Nat → Int → Int
  | 0, lo => lo
  | n + 1, lo =>
    let mid := lo + 2 ^ n
    if rtdRatio (2 * mid - 1) * r0 ≤ r * 1600000000000000000000000 then rtdSearch r r0 n mid else rtdSearch r r0 n lo

/-- The temperature in 0.01 °C of r mΩ, and whether it lies in -200 to +850 °C; outside it is the nearer limit (R243). -/
def rtdTemp (r r0 : Int) : Int × Bool :=
  let x := r * 1600000000000000000000000
  if x < rtdRatio (-40000) * r0 then (-20000, false)
  else if rtdRatio 170000 * r0 < x then (85000, false)
  else (clampI (-20000) 85000 (rtdSearch r r0 17 (-20000)), true)

/-- R0 in mΩ of a type, none for ohm (R243). -/
def rtdR0 (ty : Nat) : Option Int := match ty with | 0 => some 100000 | 1 => some 1000000 | _ => none

/-- The limit of R below which SHORT is judged, in mΩ (R244). -/
def shortLimit (ty : Nat) : Int := match ty with | 0 => 15000 | 1 => 150000 | _ => 5000

/-! ### Events of the loops -/

/-- Whether the front end of a channel in a mode reports now: active, its items arrive. -/
def State.loopLive (s : State) (n : Nat) (p : Nat → Bool) : Bool := s.converts n && p (s.mode n) && s.itemFrom (n / 16)

/-- AIC_INLIM (R238). -/
def execAicInlim (n : Nat) (s : State) : Host.Outcome State Fault Refusal :=
  done (if s.loopLive n (· == 5) then (s.item (n / 16)).setFlag (aStat n) 19 true else s)

/-- AIC_INLIM_CLEAR (R238). -/
def execAicInlimClear (n : Nat) (s : State) : Host.Outcome State Fault Refusal :=
  done (if s.loopLive n (· == 5) then (s.item (n / 16)).setFlag (aStat n) 19 false else s)

/-- LOOP_OFF (R238): the limiter has been active for 500 ms with LOOPSUP set. -/
def execLoopOff (n : Nat) (s : State) : Host.Outcome State Fault Refusal :=
  done (if s.loopLive n (· == 5) && s.flag (chA n 0x240) 0 && !s.flag (aStat n) 20 then
    chEvent .loopOff n ((s.item (n / 16)).setFlag (aStat n) 20 true)
  else s)

/-- LOOP_ON (R238): after 5 s off the loop supply switches on again. -/
def execLoopOn (n : Nat) (s : State) : Host.Outcome State Fault Refusal :=
  done (if s.loopLive n (· == 5) then (s.item (n / 16)).setFlag (aStat n) 20 false else s)

/-- COMPLY_SET (R248, R249). -/
def execComplySet (n : Nat) (s : State) : Host.Outcome State Fault Refusal :=
  done (if s.loopLive n isAo then (s.item (n / 16)).setFlag (aStat n) 18 true else s)

/-- COMPLY_CLEAR (R248, R249). -/
def execComplyClear (n : Nat) (s : State) : Host.Outcome State Fault Refusal :=
  done (if s.loopLive n isAo then (s.item (n / 16)).setFlag (aStat n) 18 false else s)

/-- Whether the readback checks of an output run (R252, R255). -/
def State.checksRun (s : State) (n : Nat) : Bool :=
  s.loopLive n isAo && !s.gFenced (n / 16) .mod && !s.gFenced (n / 16) .sar && !s.flag (aGstat (n / 16)) 2 &&
  !s.flag (aStat n) 19

/-- Twice the driven value in nA or µV (R247, R253). -/
def State.driven2 (s : State) (n : Nat) : Int :=
  ((s.drive n).2.toNat * (if s.mode n = 8 then 750 else 375) : Nat)

/-- One tenth of a percent of full scale in nA or µV (R251). -/
def aoFs (m : Nat) : Nat := if m = 8 then 24000 else 10500

/-- Whether the primary readback differs from the driven value by more than DEVTH (R253). -/
def State.deviates (s : State) (n : Nat) : Bool :=
  decide (2 * (s.fld (chA n 0x340) 0 7 * aoFs (s.mode n)) < (2 * (s.reg (chA n 0x348)).toInt - s.driven2 n).natAbs)

/-- Whether the two readbacks differ by more than RBTH (R254). -/
def State.disagrees (s : State) (n : Nat) : Bool :=
  decide (s.fld (chA n 0x344) 0 6 * aoFs (s.mode n) <
    ((s.reg (chA n 0x348)).toInt - (s.reg (chA n 0x34C)).toInt).natAbs)

/-- AO_DEVIATION (R253): the deviation has stood for DEVT. -/
def execAoDeviation (n : Nat) (s : State) : Host.Outcome State Fault Refusal :=
  done (if s.checksRun n && !s.aoOff n && s.deviates n && !s.flag (aStat n) 16 then
    refreshFault n (chEvent .aoDeviation n ((s.setFlag (aStat n) 16 true).setFlag (aStat n) 20 true))
  else s)

/-- AO_DEVIATION_CLEAR (R253, R256). -/
def execAoDeviationClear (n : Nat) (s : State) : Host.Outcome State Fault Refusal :=
  done (if s.checksRun n && !s.aoOff n && !s.deviates n && s.flag (aStat n) 16 then
    refreshFault n (s.setFlag (aStat n) 16 false)
  else s)

/-- AO_READBACK (R254): the disagreement has stood for RBT. -/
def execAoReadback (n : Nat) (s : State) : Host.Outcome State Fault Refusal :=
  done (if s.checksRun n && s.disagrees n && !s.flag (aStat n) 17 then
    refreshFault n (chEvent .aoReadback n ((s.setFlag (aStat n) 17 true).setFlag (aStat n) 21 true))
  else s)

/-- AO_READBACK_CLEAR (R254, R256). -/
def execAoReadbackClear (n : Nat) (s : State) : Host.Outcome State Fault Refusal :=
  done (if s.checksRun n && !s.disagrees n && s.flag (aStat n) 17 then
    refreshFault n (s.setFlag (aStat n) 17 false)
  else s)

/-! ### Register writes (R260, R262) -/

/-- A write of AI.CFG (Table 9.5). -/
def writeAiCfg (n : Nat) (v : Word) (s : State) : State :=
  let t3 := decide (bits v 3 2 = 3)
  let v := if t3 then setBits v 3 2 0 else v
  cfgErr n t3 (s.setReg (chA n 0x240) (v &&& 0xFFFF001F))

/-- A write of AI.DIAG (Table 9.5). -/
def writeAiDiag (n : Nat) (v : Nat) (s : State) : State :=
  rangeAgain n (cfgErr n (decide (10000 < v)) (s.setReg (chA n 0x244) (word (min 10000 v))))

/-- A write of AO.DEV (Table 9.7); setting or clearing DEVACT moves the fault (R253). -/
def writeAoDev (n : Nat) (v : Word) (s : State) : State :=
  let th := clamp 2 100 (bits v 0 7)
  let t := clamp 10 10000 (bits v 16 14)
  let w := setBits (setBits (v &&& 0x3FFF017F) 0 7 th) 16 14 t
  refreshFault n (cfgErr n (decide (th ≠ bits v 0 7) || decide (t ≠ bits v 16 14)) (s.setReg (chA n 0x340) w))

/-- A write of AO.RBCHK (Table 9.7). -/
def writeAoRbchk (n : Nat) (v : Word) (s : State) : State :=
  let th := clamp 6 50 (bits v 0 6)
  let t := clamp 10 10000 (bits v 16 14)
  let w := setBits (setBits (v &&& 0x3FFF003F) 0 6 th) 16 14 t
  cfgErr n (decide (th ≠ bits v 0 6) || decide (t ≠ bits v 16 14)) (s.setReg (chA n 0x344) w)

/-! ### Commands (R259) -/

/-- The checks of an analogue form: the modes it serves, and whether it is RWA. -/
def anChecks (ch : ChRef) (ok : Nat → Bool) (rwa : Bool) (s : State) : List (Code × Bool) :=
  chObj ch s ++ [(.mode, !ok (s.mode ch.n)), (.armed, rwa && s.sup.armed)]

/-- AIC_LOOP (R259, R237). -/
def execAicLoop (ln : Line) (ch : ChRef) (on : Bool) (s : State) : Host.Outcome State Fault Refusal :=
  done (runLine ln {} (anChecks ch (· == 5) true)
    (okay fun t => writeAiCfg ch.n (setBit (t.reg (chA ch.n 0x240)) 0 on) t) s)

/-- AIR_RTD (R243). -/
def execAirRtd (ln : Line) (ch : ChRef) (t : Rtd) (s : State) : Host.Outcome State Fault Refusal :=
  done (runLine ln {} (anChecks ch (· == 7) true)
    (okay fun u => writeAiCfg ch.n (setBits (u.reg (chA ch.n 0x240)) 3 2 t.ctorIdx) u) s)

/-- The excitation that a quantity names (R242): 1 mA or 250 µA. -/
def excCode (q : Qty) : Option Nat :=
  let v := q.num * (scaleOf (q.unit.getD .A) : Nat)
  if v = 1000 * 10 ^ q.dec then some 0 else if v = 250 * 10 ^ q.dec then some 1 else none

/-- AIR_EXC (R242). -/
def execAirExc (ln : Line) (ch : ChRef) (i : Qty) (s : State) : Host.Outcome State Fault Refusal :=
  done (runLine ln {} (fun t => anChecks ch (· == 7) true t ++
      [(.unit, qBad i .A), (.arg, !qBad i .A && (excCode i).isNone)])
    (okay fun t => writeAiCfg ch.n (setBits (t.reg (chA ch.n 0x240)) 2 1 ((excCode i).getD 0)) t) s)

/-- AIR_LEADS (R242): LEADR in mΩ, taken for 2 (Table 9.3); it keeps its value when left out (R542). -/
def execAirLeads (ln : Line) (ch : ChRef) (w3 : Bool) (r : Option Qty) (s : State) :
    Host.Outcome State Fault Refusal :=
  let v := r.map fun q => qSteps q .ohm 1000 1
  done (runLine ln {} (fun t => anChecks ch (· == 7) true t ++
      [(.unit, (r.map (qBad · .ohm)).getD false),
       (.range, (v.map (outside · 0 65535)).getD false)])
    (okay fun t =>
      let x := setBit (t.reg (chA ch.n 0x240)) 1 w3
      writeAiCfg ch.n (match v with | some y => if w3 then x else setBits x 16 16 y.toNat | none => x) t) s)

/-- AI_RNGT (R245). -/
def execAiRngt (ln : Line) (ch : ChRef) (t : Qty) (s : State) : Host.Outcome State Fault Refusal :=
  let v := qSteps t .ms 1 1000000
  done (runLine ln {} (fun u => anChecks ch (fun m => m == 5 || m == 6) false u ++
      [(.unit, qBad t .ms), (.range, outside v 0 10000)])
    (okay (writeAiDiag ch.n v.toNat)) s)

/-- AO_DEV_CFG (R253): DEVTH in 0.1 % FS, DEVT in ms. -/
def execAoDevCfg (ln : Line) (ch : ChRef) (p t : Qty) (report : Bool) (s : State) :
    Host.Outcome State Fault Refusal :=
  let th := qSteps p .percent 1 1000
  let v := qSteps t .ms 1 1000000
  done (runLine ln {} (fun u => anChecks ch isAo true u ++
      [(.unit, qBad p .percent || qBad t .ms), (.range, outside th 2 100 || outside v 10 10000)])
    (okay (writeAoDev ch.n (word (th.toNat + (if report then 256 else 0) + v.toNat * 65536)))) s)

/-- AO_RBCHK_CFG (R254): RBTH in 0.1 % FS, RBT in ms. -/
def execAoRbchkCfg (ln : Line) (ch : ChRef) (p t : Qty) (s : State) : Host.Outcome State Fault Refusal :=
  let th := qSteps p .percent 1 1000
  let v := qSteps t .ms 1 1000000
  done (runLine ln {} (fun u => anChecks ch isAo true u ++
      [(.unit, qBad p .percent || qBad t .ms), (.range, outside th 6 50 || outside v 10 10000)])
    (okay (writeAoRbchk ch.n (word (th.toNat + v.toNat * 65536)))) s)

/-- CH_READBACK (R259). -/
def execChReadback (ln : Line) (ch : ChRef) (s : State) : Host.Outcome State Fault Refusal :=
  let n := ch.n
  done (runLine ln {} (anChecks ch isAo false) (value fun t =>
    [readFld "a" (t.mode n) (t.reg (chA n 0x348)).toInt, readFld "b" (t.mode n) (t.reg (chA n 0x34C)).toInt,
     aoFld "drive" (t.mode n) (t.drive n).2.toNat,
     kx "aux" (10 * (t.reg (chA n 0x350)).toInt) 4 (if t.mode n = 8 then "V" else "mA")]) s)

end Sys2Proof.Machine
end

