-- ==== Sys2Proof/Machine/LineCode.lean ====
section
/-!
DEFINITION. The line of a Ringlet port: the bits of a frame in the order of R321, and the scrambler of R318.
-/
namespace Sys2Proof

/-- The six covered header bytes and LEN, AGE, SEQ of a frame: bytes 0 to 6 (Table 12.2). -/
def Frame.header (f : Frame) : List Byte :=
  [f.kind ++ f.fslot.extractLsb' 8 4, f.fslot.extractLsb' 0 8, f.source.seg, f.source.pos, f.len, f.age, f.seq]

end Sys2Proof

namespace Sys2Proof.Machine

/-- The bytes of words sent most significant byte first. -/
def msbBytes (l : List Word) : List Byte := l.flatMap fun x => (wordBytes x).reverse

/-- The bits of bytes, each least significant bit first (R321). -/
def bitsOfBytes (l : List Byte) : List Bool := l.flatMap fun b => (List.range 8).map b.getLsbD

/-- A byte from its bits, least significant first. -/
def byteOfBits (l : List Bool) : Byte := BitVec.ofNat 8 (l.foldr (fun b n => b.toNat + 2 * n) 0)

/-- The bytes of bits. -/
def bytesOfBits : List Bool → List Byte
  | a :: b :: c :: d :: e :: f :: g :: h :: l => byteOfBits [a, b, c, d, e, f, g, h] :: bytesOfBits l
  | _ => []

/-- Words from bytes, most significant byte first. -/
def msbWords : List Byte → List Word
  | a :: b :: c :: d :: l => (a ++ b ++ c ++ d : BitVec 32) :: msbWords l
  | _ => []

/-- The delimiter, and the round mark in its place in slot 0 (Table 12.1). -/
def delimiter (slot : Nat) : List Byte := if slot = 0 then [0x3A, 0x9C, 0x56, 0xE1] else [0xB5, 0xC2]

/-- The bits of a frame before scrambling, preamble and inter-frame gap among them (R321). -/
def frameBits (f : Frame) : List Bool :=
  bitsOfBytes ([0x55, 0x55] ++ delimiter f.slot ++ f.header ++ [f.hchk] ++ msbBytes f.cells ++ wordBytes f.crc) ++
    List.replicate 32 false

/-- The scrambler (R318): s[n] = d[n] XOR s[n-39] XOR s[n-58]; h holds the bits sent before, newest first. -/
def scramble (h : List Bool) : List Bool → List Bool
  | [] => []
  | d :: l =>
    let b := d ^^ h.getD 38 false ^^ h.getD 57 false
    b :: scramble ((b :: h).take 58) l

/-- The descrambler (R318); h holds the bits received before, newest first. -/
def descramble (h : List Bool) : List Bool → List Bool
  | [] => []
  | b :: l => (b ^^ h.getD 38 false ^^ h.getD 57 false) :: descramble ((b :: h).take 58) l

/-- The frame in the window of a slot, from the scrambled bits at the receive ball of a port: the 58 bits before the delimiter, which
synchronise the descrambler (R318), and those from the delimiter on (R321). none where no delimiter, or for slot 0 no mark, stands
there (R330). -/
def rxFrame (port slot : Nat) (line : List Bool) : Option Frame :=
  let d := descramble (line.take 58).reverse (line.drop 58)
  let start := bitsOfBytes (delimiter slot)
  if d.take start.length ≠ start then none
  else
    let l := bytesOfBits (d.drop start.length)
    let b (i : Nat) : Byte := l.getD i 0
    let n := 8 + 4 * (b 4).toNat
    some { port := port, slot := slot, kind := (b 0).extractLsb' 4 4, fslot := (b 0).extractLsb' 0 4 ++ b 1
           source := ⟨b 2, b 3⟩, len := b 4, age := b 5, seq := b 6, hchk := b 7
           cells := msbWords ((l.drop 8).take (4 * (b 4).toNat)), crc := leWord (b n) (b (n + 1)) (b (n + 2)) (b (n + 3)) }

end Sys2Proof.Machine
end

