-- ==== Sys2Proof/Machine/Conversion.lean ====
section
/-!
DEFINITION. Conversion (chapter 10): results and result slots, synchronising resets, the rotation of the spare, window
comparators, the monitor scan, the cross-check and the items of the barrier link that carry them.
-/
namespace Sys2Proof.Machine

/-! ### Window comparators (R284 to R286) -/

/-- Whether the setting of a window suspends its evaluation (R284). -/
def State.winBad (s : State) (n : Nat) : Bool :=
  let h : Int := (s.reg (chA n 0x94)).toNat
  decide ((s.reg (chA n 0x90)).toInt - h < (s.reg (chA n 0x8C)).toInt + h)

/-- The band that a value asks for from the present band, 3 for no change (R284): 0 MID, 1 LOW, 2 HIGH. From LOW a value
above HI goes to HIGH, from HIGH a value below LO to LOW. -/
def State.winChange (s : State) (n : Nat) (v : Int) : Nat :=
  let lo := (s.reg (chA n 0x8C)).toInt
  let hi := (s.reg (chA n 0x90)).toInt
  let h : Int := (s.reg (chA n 0x94)).toNat
  match s.fld (chA n 0x98) 0 2 with
  | 1 => if hi < v then 2 else if lo + h ≤ v then 0 else 3
  | 2 => if v < lo then 1 else if v ≤ hi - h then 0 else 3
  | _ => if v < lo then 1 else if hi < v then 2 else 3

/-- The name of a band. -/
def bandName : Nat → String
  | 1 => "low" | 2 => "high" | _ => "mid"

/-- CFGERR for a window whose action has a target that is no output (R286). -/
def checkTarget (n : Nat) (s : State) : State :=
  let w := s.fld (chA n 0x88) 4 7
  cfgErr n (s.flag (chA n 0x88) 1 && !(decide (w < s.member.channels) && isOut (s.mode w))) s

/-- The window comparator takes a valid result (R284, R285). -/
def winResult (n : Nat) (v : Int) (s : State) : State :=
  if !s.flag (chA n 0x88) 0 || s.winBad n || s.gFenced (n / 16) .mod then s
  else
    let c := s.winChange n v
    let a := s.ch n
    if c = 3 then s.setCh n { a with conv := { a.conv with winTo := 3, winN := 0 } }
    else
      let k := if a.conv.winTo = c then a.conv.winN + 1 else 1
      if s.fld (chA n 0x88) 16 8 ≤ k then
        let old := s.fld (chA n 0x98) 0 2
        let t := s.setCh n { a with conv := { a.conv with winTo := 3, winN := 0 } }
        let t := (t.setFld (chA n 0x98) 0 2 c).setFlag (chA n 0x98) 2 true
        let t := t.emit .window (.ch n) [fw (bandName old), fw (bandName c), { val := .n v }]
        refreshTarget n (checkTarget n t)
      else s.setCh n { a with conv := { a.conv with winTo := c, winN := k } }

/-- WEN is written: the band is set to MID (R284). -/
def winReset (n : Nat) (s : State) : State :=
  let t := s.setCh n { s.ch n with conv := { (s.ch n).conv with winTo := 3, winN := 0 } }
  refreshTarget n (t.setFld (chA n 0x98) 0 2 0)

/-- A change of WACT or WTGT moves the fault from the old target to the new one (R286). -/
def winTarget (n : Nat) (act : Bool) (tgt : Nat) (s : State) : State :=
  let old := s.fld (chA n 0x88) 4 7
  let t := (s.setFlag (chA n 0x88) 1 act).setFld (chA n 0x88) 4 7 tgt
  let t := checkTarget n t
  let t := if old < t.member.channels ∧ isOut (t.mode old) then refreshFault old t else t
  refreshTarget n t

/-- A write of WIN.CFG through wr (Table 10.10). -/
def writeWinCfg (n : Nat) (v : Word) (s : State) : State :=
  let t := s.setFlag (chA n 0x88) 0 (bit v 0)
  let t := cfgErr n (decide (bits v 16 8 = 0)) (t.setFld (chA n 0x88) 16 8 (max 1 (bits v 16 8)))
  winReset n (winTarget n (bit v 1) (bits v 4 7) t)

/-- A write of a limit of the window (Table 10.10). -/
def writeWinLimit (n o : Nat) (v : Word) (s : State) : State :=
  let t := s.setReg (chA n o) v
  cfgErr n (t.winBad n) t

/-! ### The cross-check (R291) -/

/-- The channel of a group's cross-check. -/
def State.xch (s : State) (g : Nat) : Nat := 16 * g + s.fld (grA g 0x54) 0 4

/-- XIDLE (R291): the cross-check is not evaluated. -/
def State.xIdle (s : State) (g : Nat) : Bool :=
  let m := s.mode (s.xch g)
  !s.flag (grA g 0x54) 4 || !(m == 5 || m == 6) || s.gFenced g .mod || s.gFenced g .sar || s.flag (aGstat g) 2

/-- A valid result of the cross-check channel is compared with the mean of the entry-34 samples of its period: the last
difference in % of full scale, which the register shows in 0.01 % (R291, Table 10.11). -/
def xchkResult (n : Nat) (v : Int) (s : State) : State :=
  let g := n / 16
  let a := s.gr g
  if s.xch g = n ∧ s.xIdle g = false ∧ a.conv.xNum ≠ 0 then
    let fs : Nat := if s.mode n = 5 then 25000000 else 11000000
    let x : Rat := ((v : Rat) - (a.conv.xSum : Rat) / a.conv.xNum) * 100 / fs
    let d := clampI (-32768) 32767 (x * 100 + 1 / 2).floor
    (s.setGr g { a with conv := { a.conv with xDiff := x } }).setFld (grA g 0x58) 16 16 ((d + 65536) % 65536).toNat
  else s

/-- Whether the last difference exceeds XCHTH (R291). -/
def State.xOver (s : State) (g : Nat) : Bool :=
  let x := (s.gr g).conv.xDiff
  let th : Rat := (s.fld (grA g 0x54) 8 8 : Rat) / 10
  decide (th < x ∨ x < -th)

/-- The output period of a channel ends at its boundary, with or without a valid result: the samples of the cross-check and of the
scan entries are gathered anew (R291, R287), for the partner of a 4-wire connection too. -/
def periodEnd (n : Nat) (s : State) : State :=
  let g := n / 16
  let a := s.gr g
  let s := if s.xch g = n then s.setGr g { a with conv := { a.conv with xSum := 0, xNum := 0 } } else s
  let clear (m : Nat) (t : State) : State :=
    t.setCh m { t.ch m with conv := { (t.ch m).conv with priSum := 0, priNum := 0, secSum := 0, secNum := 0 } }
  if s.flag (chA n 0) 4 then clear (n + 1) (clear n s) else clear n s

/-- The analogue outputs of a group. -/
def State.aoChans (s : State) (g : Nat) : List Nat := (grpChans g).filter fun n => isAo (s.mode n)

/-! ### The rotation (R276 to R281) -/

/-- The modulator that serves a channel. -/
def State.modOf (s : State) (n : Nat) : Nat := s.fld (chA n 0x84) 18 5

/-- The spare of a group, 0x1F when there is none. -/
def State.spare (s : State) (g : Nat) : Nat := s.fld (aRot g) 3 5

/-- The state of a rotation (Table 10.5). -/
def State.rotSt (s : State) (g : Nat) : Nat := s.fld (aRot g) 0 3

/-- The channel of the step. -/
def State.rotCh (s : State) (g : Nat) : Nat := 16 * g + s.fld (aRot g) 8 4

/-- Whether rotation runs: ROTEN set, ROTHALT clear, a spare present (R276). -/
def State.rotOn (s : State) (g : Nat) : Bool :=
  s.flag (grA g 0x44) 12 && !s.flag (aRot g) 12 && decide (s.spare g ≠ 0x1F)

/-- Whether a group's converters run: powered, its link up and not fenced for them. -/
def State.modLive (s : State) (g : Nat) : Bool := s.itemFrom g && !s.gFenced g .mod && !s.flag (aGstat g) 2

/-- The calibration of a modulator. -/
def State.cal (s : State) (g m : Nat) : ModCal := sget {} (s.gr g).conv.cals m

/-- A result of a modulator: G × (raw − O) (R278). -/
def State.modCode (s : State) (g m : Nat) (raw : Int) : Rat := (s.cal g m).gain * ((raw : Rat) - (s.cal g m).off)

/-- What a calibration finds, from the mean codes of the zero and of the reference in 1/64 code (R278); none is out of
bounds. -/
def calOf (zero ref : Int) : Option ModCal :=
  let o : Rat := (zero : Rat) / 64
  let d : Rat := (ref : Rat) / 64 - o
  if d = 0 then none else
    let g : Rat := 6990507 / d
    if 41943 < o ∨ o < -41943 ∨ g < 99 / 100 ∨ 101 / 100 < g then none else some { off := o, gain := g }

/-- A calibration of the spare; one out of bounds keeps O and G (R278). -/
def calSpare (g : Nat) (zero ref : Int) (s : State) : State :=
  match calOf zero ref with
  | some c =>
    let a := s.gr g
    s.setGr g { a with conv := { a.conv with cals := sset {} a.conv.cals (s.spare g) c } }
  | none => s

/-- A mismatch (R280): the channel keeps its modulator, the same channel is tried again, three in a row halt. -/
def mismatch (g : Nat) (s : State) : State :=
  let k := min 3 (s.fld (aRot g) 15 2 + 1)
  let t := ((s.setFlag (aRot g) 13 true).setFld (aRot g) 15 2 k).emit .calMismatch (.grp g) []
  let t := t.setGr g { t.gr g with conv := { (t.gr g).conv with next := t.fld (aRot g) 8 4, pairs := 0 } }
  if k = 3 then (t.setFlag (aRot g) 12 true).setFld (aRot g) 0 3 6 else t.setFld (aRot g) 0 3 5

/-- The spare takes a channel and the relieved modulator becomes the spare; RECAL follows (R276, R279). -/
def swapSpare (g n : Nat) (s : State) : State :=
  let old := s.modOf n
  ((s.setFld (chA n 0x84) 18 5 (s.spare g)).setFld (aRot g) 3 5 old).setFld (aRot g) 0 3 5

/-- A compared pair (R279, R280): at most 419 codes apart. -/
def comparePair (n : Nat) (raw spare : Int) (s : State) : State :=
  let g := n / 16
  if s.rotSt g = 4 ∧ s.rotCh g = n then
    let d := s.modCode g (s.modOf n) raw - s.modCode g (s.spare g) spare
    if d ≤ 419 ∧ -419 ≤ d then
      let a := s.gr g
      s.setGr g { a with conv := { a.conv with pairs := min 3 (a.conv.pairs + 1) } }
    else mismatch g s
  else s

/-- The first channel from c on, cyclic, that can take a step: one not in AOC or AOV (R276). -/
def State.stepFrom (s : State) (g : Nat) : Nat → Nat → Option Nat
  | 0, _ => none
  | f + 1, c => if isAo (s.mode (16 * g + c % 16)) then s.stepFrom g f (c + 1) else some (c % 16)

/-! ### Filters (R266, R267) -/

/-- The impulse response of the sinc3 filter of length D, three boxes of D in cascade (R266): its taps add to D³. -/
def sincTap (d i : Nat) : Int :=
  let tri (k : Nat) : Int := (k * (k + 1) / 2 : Nat)
  tri (i + 1) - 3 * tri (i + 1 - d) + 3 * tri (i + 1 - 2 * d)

/-- The sum of the taps from i on over a bitstream, latest bit first, a one as +1 and a zero as -1. -/
def sincSum (d : Nat) : Nat → List Bool → Int
  | _, [] => 0
  | i, b :: l => (if b then sincTap d i else -sincTap d i) + sincSum d (i + 1) l

/-- The code that the sinc3 filter makes of a stream, on full scale 2^23 (R266). The rounding is not stated. DESIGN CHOICE:
assumption 95. -/
def streamOut (d : Nat) : Stream → Int
  | .code x => x
  | .bits l => roundDiv (8388608 * sincSum d 0 (l.reverse.take (3 * d - 2))) (d * d * d)

/-- The three-tap notch filter on the outputs x[n], x[n-1], x[n-2] of the sinc3 filter, taps in 2^-24 (R267, Table 10.2). The rounding
is not stated. DESIGN CHOICE: assumption 95. -/
def notch (k : Nat) (x x1 x2 : Int) : Int :=
  match k with
  | 1 => roundDiv (4194304 * x + 8388608 * x1 + 4194304 * x2) 16777216
  | 2 => roundDiv (4637108 * x + 7503000 * x1 + 4637108 * x2) 16777216
  | _ => x

/-- The value units that a modulator's result stands for, where full scale stands for full of them (R278). -/
def State.valueOf (s : State) (n full : Nat) (code : Int) : Int :=
  (s.modCode (n / 16) (s.modOf n) code * full / 8388608 + 1 / 2).floor

/-- The mean of sum / num samples. -/
def meanOf (sum : Int) (num : Nat) : Option Rat := if num = 0 then none else some ((sum : Rat) / num)

/-- The value that an analogue input delivers with its group's modulators fenced: from its primary and secondary scan entries averaged
over the output period (R287, Tables 9.1, 10.7). AIV is the terminal voltage, AIR the resistance of its connection, before LEADR is
taken off. How AIC follows from its voltages no rule states: a free value. DESIGN CHOICE: assumption 96. -/
def State.lowValue (s : State) (n : Nat) : Option Int :=
  let c := (s.ch n).conv
  let p := meanOf c.priSum c.priNum
  let q := meanOf c.secSum c.secNum
  let r := meanOf (s.ch (n + 1)).conv.secSum (s.ch (n + 1)).conv.secNum
  let scaled (k : Nat) (v : Option Rat) : Option Int := v.map fun x => (x * (k : Rat) + 1 / 2).floor
  match s.mode n with
  | 5 => some (Config.freeWord s.freeIdx).toInt
  | 6 => scaled 5000 p
  | 7 =>
    let k := if s.flag (chA n 0x240) 2 then 20000 else 5000
    if s.flag (chA n 0) 4 then scaled k (q.bind fun a => r.map fun b => a - b)
    else if s.flag (chA n 0x240) 1 then scaled k (q.bind fun a => p.map fun b => 2 * a - b)
    else scaled k p
  | _ => none

/-! ### Results (R265 to R269) -/

/-- Adds 1 to AGE, saturating (R269). -/
def ageUp (n : Nat) (s : State) : State := s.setFld (chA n 0x84) 0 16 (min 65535 (s.fld (chA n 0x84) 0 16 + 1))

/-- A flag of an RTD follows two output periods that stand against it (R244): the new count and whether it changes. -/
def rtdStep (flag cond : Bool) (k : Nat) : Nat × Bool :=
  if flag = cond then (0, false) else if k = 0 then (1, false) else (0, true)

/-- Changes OPEN or SHORT; setting it sets RNGSEEN and STALE and queues its event (R244). -/
def rtdToggle (n b : Nat) (s : State) : State :=
  let on := !s.flag (aStat n) b
  let t := s.setFlag (aStat n) b on
  if on then
    chEvent (if b = 21 then .rtdOpen else .rtdShort) n ((t.setFlag (aStat n) 24 true).setFlag (chA n 0x84) 16 true)
  else t

/-- R of an RTD in mΩ: 2-wire connection takes LEADR off (Table 9.1). -/
def State.rtdR (s : State) (n : Nat) (v : Int) : Int :=
  if s.flag (chA n 0) 4 || s.flag (chA n 0x240) 1 then v else v - s.fld (chA n 0x240) 16 16

/-- OPEN and SHORT take an output period (R244); SHORT is judged on outputs that are not discarded, of which v is the value. -/
def rtdPeriod (n : Nat) (high : Bool) (v : Option Int) (s : State) : State :=
  if s.mode n ≠ 7 then s else
    let c := (s.ch n).conv
    let o := rtdStep (s.flag (aStat n) 21) high c.openN
    let h := match v with
      | some x => rtdStep (s.flag (aStat n) 22) (decide (s.rtdR n x < shortLimit (s.fld (chA n 0x240) 3 2))) c.shortN
      | none => (c.shortN, false)
    let t := s.setCh n { s.ch n with conv := { c with openN := o.1, shortN := h.1 } }
    let t := if o.2 then rtdToggle n 21 t else t
    if h.2 then rtdToggle n 22 t else t

/-- The value that a measured quantity gives, SATUR, RTDRANGE, and AI.RES (R239, R241, R243). A resistance outside the measured span of
R242 lies outside -200 to +850 °C too, so that a temperature is then the nearer limit; what AI.RES holds of it no rule states.
DESIGN CHOICE: assumption 51. -/
def State.convert (s : State) (n : Nat) (v : Int) : Int × Bool × Bool × Int :=
  match s.mode n with
  | 5 => (clampI 0 25000000 v, decide (v < 0 ∨ 25000000 < v), false, 0)
  | 6 => (clampI (-11000000) 11000000 v, decide (v < -11000000 ∨ 11000000 < v), false, 0)
  | 7 =>
    let r := s.rtdR n v
    let shown := if r < 0 ∨ 4000000 < r then (Config.freeWord s.freeIdx).toInt else r
    match rtdR0 (s.fld (chA n 0x240) 3 2) with
    | some r0 => let x := rtdTemp r r0
                 (x.1, false, !x.2, shown)
    | none => (shown, false, false, shown)
  | _ => (v, false, false, 0)

/-- A valid result of an analogue input. -/
def inputResult (n : Nat) (v : Int) (s : State) : State :=
  let x := s.convert n v
  let t := (slotValid n s).draw
  let t := (t.setReg (chA n 0x248) (wordI x.1)).setReg (chA n 0x24C) (wordI x.2.2.2)
  let t := t.setPair (chA n 0x254) t.clk.ts
  let t := (t.setFlag (aStat n) 18 x.2.1).setFlag (aStat n) 23 x.2.2.1
  xchkResult n x.1 (winResult n x.1 (rangeResult n x.1 t))

/-- Whether the readbacks of an output have settled since the driven code changed (R252): 50 µs and N_settle output periods
have passed, by the clock or by the boundaries counted. -/
def State.settled (s : State) (n : Nat) : Bool :=
  let c := (s.ch n).conv
  let need := 20000 + s.nSettle n * s.outD n * 20
  decide (c.codeAt + need ≤ s.clk.raw) || decide (need ≤ (c.codeN - 1) * s.outD n * 20)

/-- A valid result of the primary readback (R251, R252). -/
def outputResult (n : Nat) (v : Int) (s : State) : State :=
  let t := (slotValid n s).setReg (chA n 0x348) (wordI v)
  t.setFlag (aStat n) 19 (!t.settled n)

/-- An output of the filter at a boundary (R268, R267): it is counted, and the sinc3 output x enters the history of the notch. -/
def boundary (n : Nat) (x : Int) (s : State) : State :=
  let a := s.ch n
  let c := a.conv
  s.setCh n { a with conv := { c with outs := min 5 (c.outs + 1), codeN := c.codeN + 1, x1 := x, x2 := c.x1 } }

/-- The output of the spare that converts in parallel (R277, R267): its code, and its history. -/
def spareOut (n : Nat) (x : Int) (s : State) : Int × State :=
  let g := n / 16
  let c := (s.gr g).conv
  (notch (s.fld (chA n 0x80) 4 2) x c.spare1 c.spare2, s.setGr g { s.gr g with conv := { c with spare1 := x, spare2 := c.spare1 } })

/-- CONVERSION_RESULT (R265, R268, R269): an output is completed at its boundary. A discarded output, or one without a valid value,
adds 1 to AGE. -/
def convResult (n : Nat) (m : Measure) (s : State) : State :=
  let s := s.item (n / 16)
  let c := (s.ch n).conv
  let x := streamOut (s.outD n) m.src
  let y := notch (s.fld (chA n 0x80) 4 2) x c.x1 c.x2
  let low := s.gFenced (n / 16) .mod
  let t := boundary n x s
  let ok := decide (t.nSettle n ≤ (t.ch n).conv.outs)
  let v := if !ok then none else if low then s.lowValue n else some (s.valueOf n m.full y)
  let t := rtdPeriod n m.high v t
  let t := if isAi (t.mode n) && !low then t.setReg (chA n 0x250) (wordI y &&& 0xFFFFFF) else t
  let t := match v with
    | some v =>
      if decide (t.mode n = 7) && (t.flag (aStat n) 21 || t.flag (aStat n) 22) then rangeIdle n (ageUp n t)
      else if isAi (t.mode n) then inputResult n v t else outputResult n v t
    | none => rangeIdle n (ageUp n t)
  let t := periodEnd n t
  match m.spare with
  | some z =>
    let r := spareOut n (streamOut (t.outD n) z) t
    if ok then comparePair n y r.1 r.2 else r.2
  | none => t

/-- Whether the results of a channel can be delivered: its modulator, or for an input the monitor converter (Table 2.8). -/
def State.delivers (s : State) (n : Nat) : Bool :=
  s.converts n && s.itemFrom (n / 16) && !s.flag (aGstat (n / 16)) 2 &&
  (!s.gFenced (n / 16) .mod || (isAi (s.mode n) && !s.gFenced (n / 16) .sar))

/-- CONVERSION_RESULT (R265). -/
def execConversionResult (n : Nat) (m : Measure) (s : State) : Host.Outcome State Fault Refusal :=
  done (if s.delivers n then convResult n m s else s)

/-- RESULT_BOUNDARY_MISSED (R269): no valid result at a boundary, which the fabric times on its own clock. The filter has made its
output all the same (R268); what the sinc3 filter gave is not known: a free value. -/
def execResultBoundaryMissed (n : Nat) (s : State) : Host.Outcome State Fault Refusal :=
  done (if s.converts n && !s.dead && !s.sup.crawl then
    periodEnd n (rangeIdle n (ageUp n (boundary n (Config.freeWord s.freeIdx).toInt s.draw)))
  else s)

/-! ### Synchronising resets (R271 to R275) -/

/-- The mask of a list of groups. -/
def maskOf (l : List Nat) : Nat := l.foldl (fun m g => m ||| 2 ^ g) 0

/-- A request for a synchronising reset of some groups (R272): its edge is the first edge of the sample strobe, every 20th CLK_M edge
(R77), at least 3 µs later. Requests with one edge make one reset. -/
def requestSync (mask : Nat) (s : State) : State :=
  if mask = 0 then s else
    let e := ceilDiv (s.clk.raw + 1200) 400
    if s.syncs.any (·.1 = e) then { s with syncs := s.syncs.map fun x => if x.1 = e then (e, x.2 ||| mask) else x }
    else { s with syncs := s.syncs ++ [(e, mask)] }

/-- The synchronising reset of a group (R273): every converting filter restarts, a rotation step is aborted, the scan restarts at
entry 0. -/
def syncGroup (g : Nat) (s : State) : State :=
  if s.powered g && s.linkUp g then
    let s := s.setGr g { s.gr g with conv := { (s.gr g).conv with scanAt := 0 } }
    forAll (grpChans g) (fun n t => if t.converts n then filterStart n (rotResume n t) else rotResume n t) s
  else s

/-- SYNC_BALL_EDGE (R275, R271). -/
def execSyncBallEdge (s : State) : Host.Outcome State Fault Refusal :=
  done (if s.running && !s.replaying then
    let t := s.record 0x05 1 1 []
    requestSync (maskOf (t.groups.filter fun g => t.flag (grA g 0x40) 0 && t.powered g)) t
  else s)

/-- SYNC_EDGE (R272, R273): the oldest sync edge set comes. -/
def execSyncEdge (s : State) : Host.Outcome State Fault Refusal :=
  done (if s.running then
    match s.syncs with
    | [] => s
    | x :: l =>
      let t := { s with syncs := l }.record 0x29 0 0 [word x.2]
      forAll (t.groups.filter fun g => x.2.testBit g) syncGroup t
  else s)

/-! ### Events of the rotation and the modulators -/

/-- ROTATION_STEP_START (R276): the spare starts a step with a calibration; a channel in an analogue output mode is passed
over. -/
def execRotationStepStart (g : Nat) (s : State) : Host.Outcome State Fault Refusal :=
  done (if s.modLive g && s.rotOn g && decide (s.rotSt g = 0) then
    let t := s.setFld (aRot g) 0 3 1
    match t.stepFrom g 16 (t.gr g).conv.next with
    | some c => (t.setFld (aRot g) 8 4 c).setGr g { t.gr g with conv := { (t.gr g).conv with next := (c + 1) % 16 } }
    | none => t
  else s)

/-- CAL_COMPLETE (R278, R277): the means of the zero and reference codes in 1/64 code. A group without a channel that can
take a step only calibrates the spare (R276). DESIGN CHOICE: assumption 74. -/
def execCalComplete (g : Nat) (zero ref : Int) (s : State) : Host.Outcome State Fault Refusal :=
  done (if s.modLive g && decide (s.rotSt g = 1) then
    if (calOf zero ref).isNone then mismatch g s
    else
      let t := calSpare g zero ref s
      if t.flag (grA g 0x44) 12 then
        t.setFld (aRot g) 0 3 (if (t.stepFrom g 16 0).isNone || isAo (t.mode (t.rotCh g)) then 0 else 2)
      else t.setFld (aRot g) 0 3 6
  else s)

/-- ROT_CONNECT (R277, R276, R281): a silent swap for a channel that does not convert, else the parallel run, once the
channel's filter has delivered a first valid result. -/
def execRotConnect (g : Nat) (s : State) : Host.Outcome State Fault Refusal :=
  done (if s.modLive g && decide (s.rotSt g = 2) then
    let n := s.rotCh g
    if isAo (s.mode n) then s.setFld (aRot g) 0 3 0
    else if isAi (s.mode n) then
      if decide (s.nSettle n ≤ (s.ch n).conv.outs) && s.active n then
        (s.setFld (aRot g) 0 3 3).setGr g { s.gr g with conv := { (s.gr g).conv with spare1 := 0, spare2 := 0 } }
      else s
    else swapSpare g n s
  else s)

/-- ROT_SETTLE_DONE (R277). -/
def execRotSettleDone (g : Nat) (s : State) : Host.Outcome State Fault Refusal :=
  done (if s.modLive g && decide (s.rotSt g = 3) then
    (s.setFld (aRot g) 0 3 4).setGr g { s.gr g with conv := { (s.gr g).conv with pairs := 0 } }
  else s)

/-- HANDOVER (R279): three pairs have agreed. Later results, and the history of the filter, are those of the spare. -/
def execHandover (g : Nat) (s : State) : Host.Outcome State Fault Refusal :=
  done (if s.modLive g && decide (s.rotSt g = 4) && decide ((s.gr g).conv.pairs = 3) then
    let n := s.rotCh g
    let c := (s.gr g).conv
    let t := swapSpare g n s
    let t := t.setCh n { t.ch n with conv := { (t.ch n).conv with x1 := c.spare1, x2 := c.spare2 } }
    let t := (t.setFld (aRot g) 15 2 0).count (grA g 0x4C)
    t.setGr g { t.gr g with conv := { (t.gr g).conv with pairs := 0 } }
  else s)

/-- RECAL_COMPLETE (R277, R278): a calibration out of bounds keeps O and G. With rotation off the spare is HALTED. -/
def execRecalComplete (g : Nat) (zero ref : Int) (s : State) : Host.Outcome State Fault Refusal :=
  done (if s.modLive g && decide (s.rotSt g = 5) then
    (calSpare g zero ref s).setFld (aRot g) 0 3 (if s.flag (grA g 0x44) 12 then 0 else 6)
  else s)

/-- Starts rotation from HALTED (Table 10.5). -/
def rotStart (g : Nat) (s : State) : State :=
  if s.rotSt g = 6 ∧ s.rotOn g then s.setFld (aRot g) 0 3 5 else s

/-- The channel that a modulator serves. -/
def State.servedBy (s : State) (g m : Nat) : Option Nat := (grpChans g).find? fun n => s.modOf n = m

/-- The failure of a modulator (R282, R283): it is retired; the spare substitutes, and without one gN.mod is fenced. -/
def modFail (g m : Nat) (s : State) : State :=
  let t := (s.setFlag (grA g 0x50) m true).emit .modFail (.grp g) []
  let sp := t.spare g
  let noSpare (u : State) : State :=
    ((u.setFld (aRot g) 3 5 0x1F).setFlag (aRot g) 12 true).setFld (aRot g) 0 3 6
  if sp = m then noSpare t
  else match t.servedBy g m with
    | none => t
    | some n =>
      if sp = 0x1F then fenceUnit true (.grp g .mod) t
      else
        let t := noSpare ((t.setFld (chA n 0x84) 18 5 sp).setFlag (aRot g) 14 true)
        if t.converts n then filterStart n t else t

/-- MOD_FAIL (R282). -/
def execModFail (g m : Nat) (s : State) : Host.Outcome State Fault Refusal :=
  done (if s.modLive g && decide (m < 17) && !s.flag (grA g 0x50) m then modFail g m s else s)

/-- XCHK_FAIL (R291, R292): the difference has stood for XCHT. -/
def execXchkFail (g : Nat) (s : State) : Host.Outcome State Fault Refusal :=
  done (if s.itemFrom g && !s.xIdle g && s.xOver g && !s.flag (grA g 0x58) 0 then
    let t := (((s.item g).setFlag (grA g 0x58) 0 true).setFlag (grA g 0x58) 1 true).emit .xchkFail (.grp g) []
    forAll (t.aoChans g) refreshFault t
  else s)

/-- XCHK_CLEAR (R291, R292). -/
def execXchkClear (g : Nat) (s : State) : Host.Outcome State Fault Refusal :=
  done (if s.itemFrom g && !s.xIdle g && !s.xOver g && s.flag (grA g 0x58) 0 then
    forAll (s.aoChans g) refreshFault ((s.item g).setFlag (grA g 0x58) 0 false)
  else s)

/-! ### The monitor scan (R287 to R297) -/

/-- A code of 14 bits as two's complement. -/
def code14 (c : BitVec 14) : Int := c.toInt

/-- What a channel's primary entry gives (Table 10.7): with the modulators fenced it is gathered for the value of the period (R287). -/
def scanPrimary (n : Nat) (c : BitVec 14) (s : State) : State :=
  let s := if s.gFenced (n / 16) .mod then
      let k := (s.ch n).conv
      s.setCh n { s.ch n with conv := { k with priSum := k.priSum + code14 c, priNum := k.priNum + 1 } }
    else s
  if !s.active n then s else
  match s.mode n with
  | 3 => slotValid n (s.setFld (chA n 0x14C) 0 16 c.toNat)
  | 8 => s.setReg (chA n 0x34C) (word (2000 * c.toNat))
  | 9 => s.setReg (chA n 0x34C) (word (1000 * c.toNat))
  | _ => s

/-- What a channel's secondary entry gives (Table 10.7): AO.AUX. -/
def scanSecondary (n : Nat) (c : BitVec 14) (s : State) : State :=
  let s := if s.gFenced (n / 16) .mod then
      let k := (s.ch n).conv
      s.setCh n { s.ch n with conv := { k with secSum := k.secSum + code14 c, secNum := k.secNum + 1 } }
    else s
  if !s.active n then s else
  match s.mode n with
  | 8 => s.setReg (chA n 0x350) (wordI (5 * code14 c))
  | 9 => s.setReg (chA n 0x350) (word c.toNat)
  | _ => s

/-- Entries 35 and 36 (R290): 16 frames in a row beyond 25 codes fence gN.sar. -/
def scanCheck (g : Nat) (zero : Bool) (c : BitVec 14) (s : State) : State :=
  let a := s.gr g
  let bad := decide (25 < (code14 c - (if zero then 0 else 5000)).natAbs)
  let k := if bad then (if zero then a.conv.zeroN else a.conv.refN) + 1 else 0
  let t := s.setGr g { a with conv := if zero then { a.conv with zeroN := k } else { a.conv with refN := k } }
  if 16 ≤ k then fenceUnit true (.grp g .sar) t else t

/-- A sample of the monitor scan (R297, Tables 10.6 to 10.8). A frame has begun with entry 0, and with an entry that is not behind the
one last converted, whose item was lost. -/
def scanItem (g e : Nat) (code : BitVec 16) (s : State) : State :=
  let c : BitVec 14 := code.setWidth 14
  let a := s.gr g
  let k := a.conv.frames + (if e < a.conv.scanAt ∨ a.conv.scanAt = 0 then 1 else 0)
  let t := s.setGr g { a with conv := { a.conv with frames := k, scanAt := (e + 1) % 40 } }
  let a := t.gr g
  let t := t.setReg (grA g (0x100 + 4 * e)) (word (c.toNat + ((a.conv.frames - 1) % 65536) * 65536))
  if e < 16 then scanPrimary (16 * g + e) c t
  else if e < 32 then scanSecondary (16 * g + (e - 16)) c t
  else if e = 32 then t.setFld (grA g 0x10) 0 16 (5 * code14 c).toNat
  else if e = 33 then
    if t.gFenced g .temp then t else t.setFld (grA g 0x0C) 0 16 (wordI (roundDiv (code14 c * 625) 1000)).toNat
  else if e = 34 then
    let v : Int := if t.mode (t.xch g) = 5 then 2000 * c.toNat else 5000 * code14 c
    t.setGr g { a with conv := { a.conv with xSum := a.conv.xSum + v, xNum := a.conv.xNum + 1 } }
  else if e = 35 then scanCheck g true c t
  else if e = 36 then scanCheck g false c t
  else t

/-- LINK_ITEM_RECEIVE (R147, R463): an item whose check fails is discarded and counted in LINKERR; the group end's count
arrives with its heartbeat; a heartbeat that carries LATCHACT is a lost link (chapter 5.3). -/
def execLinkItemReceive (it : LinkItem) (s : State) : Host.Outcome State Fault Refusal :=
  done (match it with
    | .bad g => if s.linkLive g && !s.replaying then linkErr g 1 s else s
    | .downBad g => if s.linkLive g then s.setGr g { s.gr g with disc := (s.gr g).disc + 1 } else s
    | .heartbeat g act =>
      if s.itemFrom g then
        let t := s.recordFree 0x01 g 0 2
        let t := linkErr g (t.gr g).hbDisc t
        let t := t.setGr g { t.gr g with hbDisc := 0 }
        if act then linkLost g (latchAlone g t) else t
      else s
    | .scan g e code =>
      if s.itemFrom g && decide (e < 40) && !s.gFenced g .sar && !s.flag (aGstat g) 2 then
        scanItem g e code (s.recordFree 0x01 g 0 2)
      else s)

/-! ### Commands (R293) -/

/-- A write of CONV.CFG (R266, R267, R265): the filter restarts, a rotation step of the channel is aborted (R281). -/
def writeConvCfg (n : Nat) (v : Word) (s : State) : State :=
  let r := bits v 0 4
  let rate := if 8 < r then 5 else r
  let k := bits v 4 2
  let notch := if k = 3 ∨ rate ≠ 3 then 0 else k
  let t := s.setReg (chA n 0x80) (word (rate + 16 * notch))
  let t := cfgErr n (decide (rate ≠ r) || decide (notch ≠ k)) t
  let t := rotResume n t
  if t.converts n then filterStart n t else t

/-- The code of an output rate in S/s (Table 10.1). -/
def rateCode (r : Qty) : Option Nat :=
  let v := r.num * (scaleOf (r.unit.getD .Hz) : Nat)
  let p : Int := 10 ^ r.dec
  if v = 10 * p then some 0 else if v = 50 * p then some 1 else if v = 60 * p then some 2
  else if v = 100 * p then some 3 else if v = 400 * p then some 4 else if v = 1000 * p then some 5
  else if v = 4000 * p then some 6 else if v = 16000 * p then some 7 else if v = 50000 * p then some 8 else none

/-- The checks of a conversion form on a channel. -/
def cvChecks (ch : ChRef) (ok : Nat → Bool) (s : State) : List (Code × Bool) :=
  chObj ch s ++ [(.mode, !ok (s.mode ch.n))]

/-- The analogue modes. -/
def isAn (m : Nat) : Bool := isAi m || isAo m

/-- CONV_RATE (R265, R267). -/
def execConvRate (ln : Line) (ch : ChRef) (r : Qty) (notch : Notch) (s : State) : Host.Outcome State Fault Refusal :=
  done (runLine ln {} (fun t => cvChecks ch isAn t ++
      [(.unit, qBad r .Hz), (.arg, decide (notch ≠ .off) && !qBad r .Hz && decide (rateCode r ≠ some 3)),
       (.range, (rateCode r).isNone)])
    (okay (writeConvCfg ch.n (word ((rateCode r).getD 5 + 16 * notch.ctorIdx)))) s)

/-- The unit of a window's quantities and the value units in its smallest unit, as mul / div (R284). -/
def State.winUnit (s : State) (n : Nat) : MUnit × Nat × Nat :=
  match s.mode n with
  | 5 => (.mA, 1000, 1)
  | 6 => (.V, 1000, 1)
  | _ => if s.fld (chA n 0x240) 3 2 = 2 then (.ohm, 1000, 1) else (.degC, 100, 1)

/-- A window quantity in value units: one without a unit is in value units (R284). -/
def State.winQty (s : State) (n : Nat) (q : Qty) : Int :=
  let u := s.winUnit n
  match q.unit with
  | none => roundDiv q.num (10 ^ q.dec)
  | some _ => qSteps q u.1 u.2.1 u.2.2

/-- CONV_WINDOW (R284): a hysteresis or count left out keeps its value (R542). -/
def execConvWindow (ln : Line) (ch : ChRef) (lo hi : Qty) (hyst : Option Qty) (count : Option Nat) (s : State) :
    Host.Outcome State Fault Refusal :=
  let n := ch.n
  let h (t : State) : Int := match hyst with
    | some q => t.winQty n q
    | none => (t.reg (chA n 0x94)).toNat
  let k (t : State) : Nat := count.getD (t.fld (chA n 0x88) 16 8)
  done (runLine ln {} (fun t =>
      let b := (t.winUnit n).1
      cvChecks ch isAi t ++
      [(.unit, qBad lo b || qBad hi b || (hyst.map (qBad · b)).getD false),
       (.range, outside (t.winQty n lo) (-2147483648) 2147483647 || outside (t.winQty n hi) (-2147483648) 2147483647 ||
          outside (h t) 0 4294967295 || outside (k t) 1 255 ||
          decide (t.winQty n hi - h t < t.winQty n lo + h t))])
    (okay fun t =>
      let u := ((t.setReg (chA n 0x8C) (wordI (t.winQty n lo))).setReg (chA n 0x90) (wordI (t.winQty n hi))).setReg
        (chA n 0x94) (wordI (h t))
      winReset n ((u.setFld (chA n 0x88) 16 8 (k t)).setFlag (chA n 0x88) 0 true)) s)

/-- CONV_WINDOW_OFF (R293, R284). -/
def execConvWindowOff (ln : Line) (ch : ChRef) (s : State) : Host.Outcome State Fault Refusal :=
  done (runLine ln {} (cvChecks ch isAi) (okay fun t => winReset ch.n (t.setFlag (chA ch.n 0x88) 0 false)) s)

/-- CONV_WINDOW_FAULT (R286): none is event. -/
def execConvWindowFault (ln : Line) (ch : ChRef) (out : Option ChRef) (s : State) : Host.Outcome State Fault Refusal :=
  done (runLine ln {} (fun t => cvChecks ch isAi t ++
      (match out with | some o => chObj o t | none => []) ++ [(.armed, t.sup.armed)])
    (okay fun t => match out with
      | some o => winTarget ch.n true o.n t
      | none => winTarget ch.n false (t.fld (chA ch.n 0x88) 4 7) t) s)

/-- The output rates in S/s (Table 10.1). -/
def rateName : Nat → Nat
  | 0 => 10 | 1 => 50 | 2 => 60 | 3 => 100 | 4 => 400 | 5 => 1000 | 6 => 4000 | 7 => 16000 | _ => 50000

/-- A modulator as a value line names it: m and two digits. -/
def modName (m : Nat) : String := (if m < 10 then "m0" else "m") ++ toString m

/-- CONV_GET (R293). -/
def execConvGet (ln : Line) (ch : ChRef) (s : State) : Host.Outcome State Fault Refusal :=
  let n := ch.n
  done (runLine ln { locked := false } (cvChecks ch isAn) (value fun t =>
    [kn "rate" (rateName (t.fld (chA n 0x80) 0 4)),
     kw "notch" (match t.fld (chA n 0x80) 4 2 with | 1 => "50" | 2 => "60" | _ => "off"),
     kw "mod" (modName (t.modOf n)), kn "age" (t.fld (chA n 0x84) 0 16), ky "stale" (t.flag (chA n 0x84) 16),
     kw "band" (if isAi (t.mode n) && t.flag (chA n 0x88) 0 then bandName (t.fld (chA n 0x98) 0 2) else "off")]) s)

/-- A write of ROT.CFG (Table 10.11): ROTEN set runs a halted spare again, ROTEN cleared ends a step (R281). -/
def writeRotCfg (g : Nat) (v : Word) (s : State) : State :=
  let t := grpCfgErr g (decide (clamp 1 3600 (bits v 0 12) ≠ bits v 0 12))
    (s.setReg (grA g 0x44) (word (clamp 1 3600 (bits v 0 12) + 4096 * (bit v 12).toNat)))
  if bit v 12 then rotStart g t
  else
    let st := t.rotSt g
    if st = 0 ∨ st = 2 ∨ st = 3 ∨ st = 4 then t.setFld (aRot g) 0 3 6 else t

/-- CONV_ROTATE (R293): on clears ROTHALT and MISCNT if a spare exists; a step time left out keeps ROTSTEP (R542). -/
def execConvRotate (ln : Line) (g : Nat) (on : Bool) (step : Option Qty) (s : State) :
    Host.Outcome State Fault Refusal :=
  let v := step.map fun q => qSteps q .s 1 1000000000
  done (runLine ln {} (fun t => grObj g t ++
      [(.unit, (step.map (qBad · .s)).getD false), (.range, (v.map (outside · 1 3600)).getD false)])
    (okay fun t =>
      let w := ((v.map Int.toNat).getD (t.fld (grA g 0x44) 0 12))
      let t := if on && decide (t.spare g ≠ 0x1F) then (t.setFlag (aRot g) 12 false).setFld (aRot g) 15 2 0 else t
      writeRotCfg g (word (w + 4096 * on.toNat)) t) s)

/-- The names of the rotation states. -/
def rotName : Nat → String
  | 0 => "ready" | 1 => "cal" | 2 => "connect" | 3 => "settle" | 4 => "compare" | 5 => "recal" | _ => "halted"

/-- CONV_ROTATE_GET (R293): a channel is named while a step works on it or a mismatch has halted it. -/
def execConvRotateGet (ln : Line) (g : Nat) (s : State) : Host.Outcome State Fault Refusal :=
  done (runLine ln { locked := false } (grObj g) (value fun t =>
    let st := t.rotSt g
    let l := (List.range 17).filter fun m => t.flag (grA g 0x50) m
    [kw "state" (rotName st), kw "spare" (if t.spare g = 0x1F then "-" else modName (t.spare g)),
     (if st = 0 ∨ (st = 6 ∧ t.flag (aRot g) 12 = false) then kw "ch" "-" else kn "ch" (t.fld (aRot g) 8 4)),
     kn "handovers" (t.reg (grA g 0x4C)).toNat, kn "mismatches" (t.fld (aRot g) 15 2), ky "halt" (t.flag (aRot g) 12),
     { key := "retired", val := .ws (if l = [] then ["none"] else l.map modName) }]) s)

/-- A write of XCHK.CFG (Table 10.11). -/
def writeXchkCfg (g : Nat) (v : Word) (s : State) : State :=
  let w := setBits (setBits (v &&& 0x3FFFFF1F) 8 8 (clamp 1 50 (bits v 8 8))) 16 14 (clamp 10 10000 (bits v 16 14))
  let t := grpCfgErr g (decide (w ≠ v &&& 0x3FFFFF1F)) (s.setReg (grA g 0x54) w)
  t.setGr g { t.gr g with conv := { (t.gr g).conv with xSum := 0, xNum := 0 } }

/-- CONV_XCHK (R291): none is off. A channel of another group does not fit the form. -/
def execConvXchk (ln : Line) (g : Nat) (ch : Option ChRef) (lim : Option (Qty × Qty)) (s : State) :
    Host.Outcome State Fault Refusal :=
  let th := lim.map fun p => qSteps p.1 .percent 1 1000
  let v := lim.map fun p => qSteps p.2 .ms 1 1000000
  done (runLine ln {} (fun t => grObj g t ++ (match ch with | some r => chObj r t | none => []) ++
      [(.arg, match ch with | some r => decide (r.g ≠ g) | none => false),
       (.unit, (lim.map fun p => qBad p.1 .percent || qBad p.2 .ms).getD false),
       (.range, (th.map (outside · 1 50)).getD false || (v.map (outside · 10 10000)).getD false)])
    (okay fun t =>
      let x := t.reg (grA g 0x54)
      let x := match ch with
        | some r => setBit (setBits x 0 4 r.c) 4 true
        | none => setBit x 4 false
      let x := match th with | some y => setBits x 8 8 y.toNat | none => x
      let x := match v with | some y => setBits x 16 14 y.toNat | none => x
      writeXchkCfg g x t) s)

/-- CONV_XCHK_GET (R293). -/
def execConvXchkGet (ln : Line) (g : Nat) (s : State) : Host.Outcome State Fault Refusal :=
  done (runLine ln { locked := false } (grObj g) (value fun t =>
    [if t.flag (grA g 0x54) 4 then { key := "ch", val := .obj g (t.fld (grA g 0x54) 0 4) } else kw "ch" "off",
     ks "diff" (sext 16 (t.fld (grA g 0x58) 16 16)) 2 "%",
     kw "state" (if t.xIdle g then "idle" else if t.flag (grA g 0x58) 0 then "fail" else "ok")]) s)

/-- The value of a scan entry by its kind (Tables 10.7, 10.8). -/
def State.scanValue (s : State) (g e : Nat) : Fld :=
  let c : BitVec 14 := (s.reg (grA g (0x100 + 4 * e))).setWidth 14
  let volt : Fld := kx "" (5 * code14 c) 3 "V"
  let m := s.mode (16 * g + e % 16)
  if e < 16 then
    if m = 3 then kx "" c.toNat 0 "mA" else if m = 8 then kx "" (2 * c.toNat : Nat) 3 "mA"
    else if m = 9 then kx "" c.toNat 3 "V" else volt
  else if e < 32 then (if m = 9 then kx "" c.toNat 3 "mA" else volt)
  else if e = 33 then kx "" (code14 c * 625) 4 "degC"
  else if e = 34 then (if s.mode (s.xch g) = 5 then kx "" (2 * c.toNat : Nat) 3 "mA" else volt)
  else if e = 35 ∨ e = 36 then kx "" (5 * code14 c) 4 "V"
  else volt

/-- CONV_SCAN (R297, R293). -/
def execConvScan (ln : Line) (g e : Nat) (s : State) : Host.Outcome State Fault Refusal :=
  done (runLine ln {} (fun t => grObj g t ++ [(.range, decide (39 < e))]) (value fun t =>
    [t.scanValue g e, kn "frame" (t.fld (grA g (0x100 + 4 * e)) 16 16)]) s)

/-- A write of Gg.SYNC (Table 10.11): a code of SYNCRND that names no controller of the member is stored as off (R526). -/
def writeSync (g : Nat) (v : Word) (s : State) : State :=
  let r := bits v 1 2
  let r := if s.member.rings < r then 0 else r
  grpCfgErr g (decide (r ≠ bits v 1 2) || decide (bits v 16 16 = 0))
    (s.setReg (grA g 0x40) (word ((bit v 0).toNat + 2 * r + 65536 * max 1 (bits v 16 16))))

/-- CONV_SYNC_BALL (R271). -/
def execConvSyncBall (ln : Line) (g : Nat) (on : Bool) (s : State) : Host.Outcome State Fault Refusal :=
  done (runLine ln {} (grObj g) (okay fun t => t.setFlag (grA g 0x40) 0 on) s)

/-- CONV_SYNC_RING (R274): none is off; a count left out keeps SYNCDIV (R542). -/
def execConvSyncRing (ln : Line) (g : Nat) (ring : Option Nat) (every : Option Nat) (s : State) :
    Host.Outcome State Fault Refusal :=
  done (runLine ln {} (fun t => grObj g t ++
      (match ring with | some c => [(.arg, decide (2 ≤ c)), (.absent, decide (t.member.rings ≤ c))] | none => []) ++
      [(.range, (every.map fun k => decide (k < 1 ∨ 65535 < k)).getD false)])
    (okay fun t =>
      let w := t.reg (grA g 0x40)
      let w := setBits w 1 2 ((ring.map (· + 1)).getD 0)
      writeSync g (match every with | some k => setBits w 16 16 k | none => w) t) s)

/-- SYNC (R294): the groups named, or every powered group; an unpowered group is skipped. -/
def execSync (ln : Line) (gs : List Nat) (s : State) : Host.Outcome State Fault Refusal :=
  done (runLine ln { locked := false } (fun t => gs.flatMap fun g => grObj g t)
    (okay fun t => requestSync (maskOf ((if gs = [] then t.groups else gs).filter t.powered)) t) s)

end Sys2Proof.Machine
end

