-- ==== Sys2Proof/Machine/SafeState.lean ====
section
/-!
DEFINITION. Safe states (chapter 11): SAFE#, the supply and temperature of a group, release and the safe commands.
-/
namespace Sys2Proof.Machine

/-- Whether SAFE# is sampled: the root clock runs, and neither the floor nor a fenced SAFE stops the sampling (R300). -/
def State.pinSampled (s : State) : Bool := !s.dead && !s.fenced .safe

/-- SAFE_PIN (R300): SAFE# has been low for 200 ns. -/
def execSafePin (s : State) : Host.Outcome State Fault Refusal :=
  done (if s.pinSampled && !s.sup.safeLow then
    let t := s.record 0x05 0 0 []
    let t := { t with sup := { t.sup with safeLow := true } }
    let t := if t.flag 0x30004 18 then t else t.emit .safePin .dev []
    holdDev 2 t
  else s)

/-- SAFE_PIN_HIGH (R300): SAFE# has been high for 1 ms. -/
def execSafePinHigh (s : State) : Host.Outcome State Fault Refusal :=
  done (if s.pinSampled && s.sup.safeLow then
    let t := s.record 0x05 0 1 []
    clearCause 0x30004 2 .dev { t with sup := { t.sup with safeLow := false } }
  else s)

/-- Whether the scan of a group is read. -/
def State.scanRuns (s : State) (g : Nat) : Bool :=
  s.itemFrom g && !s.gFenced g .sar && !s.flag (aGstat g) 2

/-- VF_LOW (R298): VFg, below 17.5 V in its latest sample, has read so for 1 ms. -/
def execVfLow (g : Nat) (s : State) : Host.Outcome State Fault Refusal :=
  done (if s.scanRuns g && !s.flag (aSafeGrp g) 25 && (s.vf g).any (· < 17500) then
    holdGrp 9 g (s.emit .vfLow (.grp g) [])
  else s)

/-- VF_OK (R298): VFg, at or above 17.8 V in its latest sample, has read so for 10 ms. -/
def execVfOk (g : Nat) (s : State) : Host.Outcome State Fault Refusal :=
  done (if s.scanRuns g && s.flag (aSafeGrp g) 25 && (s.vf g).any (17800 ≤ ·) then
    clearCause (aSafeGrp g) 9 (.grp g) (s.emit .vfOk (.grp g) [])
  else s)

/-- VF_HIGH (R311): VFg, above 33.0 V in its latest sample, has read so for 1 ms; status only. -/
def execVfHigh (g : Nat) (s : State) : Host.Outcome State Fault Refusal :=
  done (if s.scanRuns g && !(s.gr g).vfHigh && (s.vf g).any (33000 < ·) then
    (s.setGr g { s.gr g with vfHigh := true }).emit .vfHigh (.grp g) []
  else s)

/-- VF_HIGH_END (R311): VFg, at or below 32.5 V in its latest sample, has read so for 10 ms. -/
def execVfHighEnd (g : Nat) (s : State) : Host.Outcome State Fault Refusal :=
  done (if s.scanRuns g && (s.gr g).vfHigh && (s.vf g).any (· ≤ 32500) then
    (s.setGr g { s.gr g with vfHigh := false }).emit .vfOk (.grp g) []
  else s)

/-- TEMP_WARN (R301): scan entry 33, at or above 125 °C in its latest sample, has read so for 1 ms. -/
def execTempWarn (g : Nat) (s : State) : Host.Outcome State Fault Refusal :=
  done (if s.scanRuns g && !s.gFenced g .temp && !s.flag (aGstat g) 3 && (s.temp g).any (1250 ≤ ·) then
    (s.setFlag (aGstat g) 3 true).emit .tempWarn (.grp g) []
  else s)

/-- TEMP_OK (R301): the junction is below 135 °C after a trip, or below 120 °C after a warning. -/
def execTempOk (g : Nat) (s : State) : Host.Outcome State Fault Refusal :=
  done (if s.itemFrom g && s.flag (aGstat g) 4 then
    clearCause (aSafeGrp g) 10 (.grp g) (((s.item g).setFlag (aGstat g) 4 false).emit .tempOk (.grp g) [])
  else if s.scanRuns g && !s.gFenced g .temp && s.flag (aGstat g) 3 && (s.temp g).any (· < 1200) then
    (s.setFlag (aGstat g) 3 false).emit .tempOk (.grp g) []
  else s)

/-- TEMP_TRIP (R301): every DOH of the group trips with OVERTEMP, TEMPTRIP is reported and TEMP is held. -/
def execTempTrip (g : Nat) (s : State) : Host.Outcome State Fault Refusal :=
  done (if s.itemFrom g && !s.flag (aGstat g) 4 then
    let t := ((s.item g).setFlag (aGstat g) 4 true).emit .tempTrip (.grp g) []
    let t := forAll (grpChans g) (fun n u =>
      if u.dohLive n then trip 4 .thermalTrip true n u else u) t
    holdGrp 10 g t
  else s)

/-! ### Release (R305, R306) -/

/-- The causes that a release removes from a cause register: held, not present, and of the removable ones. -/
def releasable (mask : Nat) (v : Word) : Nat := bits v 0 16 &&& (65535 - bits v 16 16) &&& mask

/-- The cause registers of an object with the causes that a release may remove at each scope (Table 11.1). -/
def State.relRegs (s : State) : SafeObj → List (Nat × Nat)
  | .dev => (0x30004, 0x3C) :: (s.groups.map fun g => (aSafeGrp g, 0xF40)) ++ s.chans.map fun n => (aSafeCh n, 0x5000)
  | .grp g => (aSafeGrp g, 0xF40) :: (grpChans g).map fun n => (aSafeCh n, 0x5000)
  | .ch r => [(aSafeCh r.n, 0x5000)]

/-- The channels of an object. -/
def State.relChans (s : State) : SafeObj → List Nat
  | .dev => s.chans
  | .grp g => grpChans g
  | .ch r => [r.n]

/-- The object of an event. -/
def SafeObj.obj : SafeObj → Obj
  | .dev => .dev
  | .grp g => .grp g
  | .ch r => .ch r.n

/-- Whether a release of an object removes any cause. -/
def State.anyRel (s : State) (o : SafeObj) : Bool :=
  (s.relRegs o).any fun (p : Nat × Nat) => decide (releasable p.2 (s.reg p.1) ≠ 0)

/-- safe release (R305): the number of channels that moved to RUN, and the state. -/
def release (o : SafeObj) (s : State) : Nat × State :=
  let l := s.relChans o
  let before := s.safeCount l
  let any := s.anyRel o
  let t := withGates l (fun t =>
    let u := (s.relRegs o).foldl (fun (u : State) (p : Nat × Nat) =>
      let v := u.reg p.1
      u.setReg p.1 (v &&& ~~~(word (releasable p.2 v)))) t
    forAll l leaveSafe u) s
  let n := before - t.safeCount l
  (n, if any then t.emit .safeRelease (SafeObj.obj o) [fn n] else t)

/-- Auto-release (R306): AGE of a channel with AUTOREL set goes when it has cleared and the controller of its binding has
entered RUN since. -/
def autoRelease (n : Nat) (s : State) : State :=
  if s.flag (0x30040 + 4 * (n / 32)) (n % 32) && s.flag (aSafeCh n) 14 && !s.flag (aSafeCh n) 30 && (s.ch n).rejoined then
    let k := s.safeCount [n]
    let t := dropCh 14 n s
    t.emit .safeRelease (.ch n) [fn (k - t.safeCount [n])]
  else s

/-! ### Commands (R315) -/

/-- The checks of an object of safe. -/
def safeObjChecks (o : SafeObj) (s : State) : List (Code × Bool) :=
  match o with
  | .dev => []
  | .grp g => grObj g s
  | .ch r => chObj r s

/-- SAFE_CMD (R315, R49, R50). -/
def execSafeCmd (ln : Line) (s : State) : Host.Outcome State Fault Refusal :=
  done (runLine ln { locked := false, core := true } (fun _ => [])
    (okay fun t => clearCause 0x30004 4 .dev (holdDev 4 t)) s)

/-- SAFE_RELEASE (R305). -/
def execSafeRelease (ln : Line) (o : SafeObj) (s : State) : Host.Outcome State Fault Refusal :=
  done (runLine ln { locked := false } (safeObjChecks o)
    (fun t => let r := release o t
              (r.2, .vals [kn "released" r.1, kn "safe" (r.2.safeCount (r.2.relChans o))])) s)

/-- Sets AUTOREL of a list of channels; a channel that meets R306 at once is released. -/
def setAutorel (l : List Nat) (on : Bool) (s : State) : State :=
  forAll l (fun n t => autoRelease n (t.setFlag (0x30040 + 4 * (n / 32)) (n % 32) on)) s

/-- SAFE_RELEASE_AUTO (R306, R315): the form takes a channel or a group. -/
def execSafeReleaseAuto (ln : Line) (o : SafeObj) (on : Bool) (s : State) : Host.Outcome State Fault Refusal :=
  done (runLine ln { locked := false } (fun t => safeObjChecks o t ++ [(.arg, decide (o = .dev))])
    (okay fun t => setAutorel (t.relChans o) on t) s)

/-- The causes held in a register, each with its state, under a prefix. -/
def causeWords (pre : String) (v : Word) : List String :=
  ((List.range 15).filter (bit v ·)).map fun b =>
    pre ++ causeName b ++ (if bit v (16 + b) then ":present" else ":clear")

/-- A list of words, or none. -/
def wordsOr (l : List String) : FVal := .ws (if l = [] then ["none"] else l)

/-- The hold time that remains on a channel in 0.1 s, rounded up; 0 when it holds none (Table 11.8). -/
def State.holdLeft (s : State) (n : Nat) : Nat :=
  if s.holdRuns n then ceilDiv (s.holdMax n - (s.clk.raw - (s.ch n).holdAt)) 40000000 else 0

/-- The kind of a channel's safe value as safe get writes it. -/
def State.safeWord (s : State) (n : Nat) : List Fld :=
  match s.fld (chA n 4) 0 2 with
  | 1 => [kw "value" "on"]
  | 2 => [kw "value" "value", aoFld "" (s.mode n) (s.fld (chA n 4) 16 16)]
  | 3 => [kw "value" "hold"]
  | _ => [kw "value" "off"]

/-- SAFE_GET (R315). -/
def execSafeGet (ln : Line) (o : SafeObj) (s : State) : Host.Outcome State Fault Refusal :=
  done (runLine ln { locked := false } (safeObjChecks o) (value fun t =>
    match o with
    | .dev =>
      [ky "armed" t.sup.armed, kw "pin" (if t.sup.safeLow then "low" else "high"),
       { key := "causes", val := wordsOr (causeWords "" (t.reg 0x30004)) }, kn "safe" (t.safeCount t.chans)]
    | .grp g =>
      [{ key := "causes", val := wordsOr (causeWords "" (t.reg (aSafeGrp g))) }, kn "safe" (t.safeCount (grpChans g))]
    | .ch r =>
      let n := r.n
      [kw "state" (match t.chst n with | 0 => "run" | 1 => "safe" | _ => "expired")] ++ t.safeWord n ++
      [(if t.holdLeft n = 0 then kw "hold" "-" else kx "hold" (t.holdLeft n : Nat) 1),
       { key := "causes", val := wordsOr (if isOut (t.mode n) then
          causeWords "dev." (t.reg 0x30004) ++ causeWords ("g" ++ toString r.g ++ ".") (t.reg (aSafeGrp r.g)) ++
          causeWords "" (t.reg (aSafeCh n)) else []) },
       kb "autorel" (t.flag (0x30040 + 4 * (n / 32)) (n % 32))]) s)

end Sys2Proof.Machine
end

