-- ==== Sys2Proof/Machine/TimeBase.lean ====
section
/-!
DEFINITION. Time discipline by the host (chapter 3): the meanings of the time commands and of the end of a slew.
-/
namespace Sys2Proof.Machine

/-- Whether any Ringlet controller is in a state other than STOPPED or OFF (R87). -/
def State.ringLive (s : State) : Bool :=
  (List.range s.member.rings).any fun c => decide (s.ringSt c ≠ 0) && decide (s.ringSt c ≠ 5)

/-- The source of T (R83): CLK.STAT[5:4]. -/
def State.timeSrc (s : State) : Nat := if !s.sup.pllLock then 0 else if s.clk.disc then 2 else 1

/-- The slew remainder in ticks, rounded toward zero (R92). -/
def State.slewTicks (s : State) : Int := Int.tdiv s.clk.slew (2 ^ 32)

/-- The limit of CLK.HOSTTRIM (R84). -/
def trimLimit (v : Int) : Int := clampI (-214748) 214748 v

/-- Loads a slew of a whole number of ticks (R85). -/
def startSlew (ticks : Int) (s : State) : State :=
  { s with clk := { s.clk with slewing := true, slew := ticks * 2 ^ 32 } }

/-- Applies what is left of a slew and ends it (R85). -/
def finishSlew (s : State) : State :=
  let sum : Int := (s.clk.frac.toNat : Int) + s.clk.slew
  ({ s with clk := { s.clk with
      ts := s.clk.ts + BitVec.ofInt 64 (Int.fdiv sum (2 ^ 32))
      frac := BitVec.ofInt 32 sum
      slew := 0
      slewing := false } }).emit .timeSlewed .none []

/-- TIME_GET (R91). -/
def execTimeGet (ln : Line) (s : State) : Host.Outcome State Fault Refusal :=
  done (runLine ln { locked := false } (fun _ => []) (value fun t =>
    [{ val := .n t.clk.ts.toNat },
     ks "trim" (roundDiv (t.effT * 1000000000) (2 ^ 32)) 3 "ppm",
     kw "src" (match t.timeSrc with | 0 => "none" | 1 => "host" | _ => "ring"),
     { key := "slew", val := .n t.slewTicks }]) s)

/-- TIME_SET (R86, R87). -/
def execTimeSet (ln : Line) (ticks : Nat) (s : State) : Host.Outcome State Fault Refusal :=
  done (runLine ln {} (fun t => [(.notstopped, t.ringLive), (.range, decide (2 ^ 64 ≤ ticks))])
    (okay (State.stepTime (BitVec.ofNat 64 ticks))) s)

/-- TIME_TRIM (R84, R87). -/
def execTimeTrim (ln : Line) (t : Qty) (s : State) : Host.Outcome State Fault Refusal :=
  done (runLine ln {} (fun u => [(.unit, qBad t .ppm), (.disciplined, u.clk.disc)])
    (okay fun u => u.setReg 0x10010 (wordI (trimLimit (qSteps t .ppm (2 ^ 32) 1000000)))) s)

/-- TIME_SLEW (R85, R87): one tick is 2.5 ns. -/
def execTimeSlew (ln : Line) (t : Qty) (s : State) : Host.Outcome State Fault Refusal :=
  let v := qSteps t .s 2 5
  done (runLine ln {} (fun u =>
      [(.unit, qBad t .s), (.disciplined, u.clk.disc), (.range, outside v (-2000000000) 2000000000)])
    (okay (startSlew v)) s)

/-- Whether a slew stands in its last cycle, where the remainder is smaller than the term (R85); the clock runs, and no discipline has
cut the slew. -/
def State.slewEnds (s : State) : Bool :=
  s.clk.slewing && s.sup.pllLock && !s.dead && !s.asleep && !s.clk.disc && decide (s.clk.slew.natAbs < 214748)

/-- SLEW_COMPLETE (R85): the remainder is used up in the last cycle of a slew. -/
def execSlewComplete (s : State) : Host.Outcome State Fault Refusal :=
  done (if s.slewEnds then finishSlew s else s)

end Sys2Proof.Machine
end

