-- ==== Sys2Proof/Machine/Ring.lean ====
section
/-!
DEFINITION. The shared operations of the Ringlet controllers (chapters 12 and 13): state changes, the port counters, the
check of the schedule, the check of a frame, ages and bindings, time transfer, MAIL payloads and the remote responses.
-/
namespace Sys2Proof.Machine

/-! ### Frames (R321, R385, R389) -/

/-- Whether HCHK passes. -/
def hchkOk (f : Frame) : Bool := decide (crc8 f.header = f.hchk.toNat)

/-- Whether the frame CRC passes; it is not evaluated where HCHK fails. -/
def frameOk (f : Frame) : Bool :=
  hchkOk f && decide (crc32 (f.header ++ [f.hchk] ++ msbBytes f.cells) = f.crc.toNat)

/-- The address of a register of check-value unit u (R399). -/
def aCvu (u o : Nat) : Nat := 0x40000 + 0x10 * u + o

/-- Counts a completed check in a unit, and its failure (R397). -/
def cvuCount (u : Nat) (ok : Bool) (s : State) : State :=
  let t := s.count (aCvu u 4)
  if ok then t else t.count (aCvu u 8)

/-- Whether RLEN enables port p of a controller (R38). -/
def State.portOn (s : State) (c p : Nat) : Bool := s.flag 0x24 (24 + 2 * c + p)

/-- The level of TXENk, k = 2c + p (R502). -/
def State.txen (s : State) (k : Nat) : Bool :=
  decide (k / 2 < s.member.rings) && s.portOn (k / 2) (k % 2) && decide (s.ringSt (k / 2) ≠ 0) && decide (s.ringSt (k / 2) ≠ 6)

/-- Whether port p of a controller receives and sends: it is enabled, the controller runs and its check-value unit is not fenced
(Table 2.8, R396). -/
def State.portRuns (s : State) (c p : Nat) : Bool :=
  decide (c < s.member.rings) && decide (p < 2) && s.portOn c p && !s.dead && !s.sup.crawl && !s.fenced (ringUn c) && !s.fenced (cvuL c p) &&
  !s.fenced .shadow && decide (s.ringSt c ≠ 0) && decide (s.ringSt c ≠ 6)

/-- Whether a controller is the member's, unfenced, and clocked. -/
def State.ringRuns (s : State) (c : Nat) : Bool :=
  decide (c < s.member.rings) && !s.dead && !s.sup.crawl && !s.fenced (ringUn c) && !s.fenced .shadow

/-! ### The two directions (R319, R363, R388) -/

/-- The port that takes the primary direction: port 0, or port 1 under WRAPUP. -/
def State.inPort (s : State) (c : Nat) : Nat := if s.flag (rgA c 0x44) 5 then 1 else 0
/-- The port that the primary direction leaves by: port 1, or port 0 under WRAPDN. -/
def State.outPort (s : State) (c : Nat) : Nat := if s.flag (rgA c 0x44) 6 then 0 else 1

/-- The port by which what arrives at port p leaves: in the primary direction, or in the secondary one. -/
def State.exitOf (s : State) (c p : Nat) : Option Nat :=
  if p = s.inPort c then some (s.outPort c) else if p = 1 then some 0 else none

/-- Puts a frame out by its port, if that port sends. -/
def ringPut (c : Nat) (f : Frame) (s : State) : State :=
  if s.portRuns c f.port then s.setRg c { s.rg c with tx := { at_ := s.clk.raw, frame := f } :: (s.rg c).tx } else s

/-- An own frame as it leaves by a port: the transmit engine computes HCHK and the frame CRC (R388). -/
def TxFrame.frame (f : TxFrame) (port : Nat) : Frame :=
  let x : Frame := { port := port, slot := f.slot, kind := BitVec.ofNat 4 f.kind, fslot := BitVec.ofNat 12 f.slot
                     source := f.source, len := BitVec.ofNat 8 f.len, age := BitVec.ofNat 8 f.age, seq := BitVec.ofNat 8 f.seq
                     hchk := 0, cells := f.cells, crc := 0 }
  let y := { x with hchk := BitVec.ofNat 8 (crc8 x.header) }
  { y with crc := word (crc32 (y.header ++ [y.hchk] ++ msbBytes y.cells)) }

/-- Sends an own frame in the primary direction; a wrap takes it out of port 0 (R363). -/
def ringSend (c : Nat) (f : TxFrame) (s : State) : State := ringPut c (f.frame (s.outPort c)) s

/-- Whether a frame that arrives in the window of a slot is an own one that returns (R319, R362): a ROUND frame of a controller that
sends the marks, or a frame of an own slot with the own address, or the probe. DEDUCED: assumption 104. -/
def State.ownBack (s : State) (c : Nat) (f : Frame) : Bool :=
  if s.ringSt c = 4 then
    if f.slot = 0 then s.sendsMarks c && decide (f.source = { seg := s.seg c, pos := 0 })
    else s.isOwn c f.slot && decide (f.source = s.ringAddr c)
  else decide (s.ringSt c = 3) && !(s.rg c).fixed &&
    decide (f.source = { seg := s.seg c, pos := BitVec.ofNat 8 (s.rg c).probe })

/-- Passes a frame on, bit for bit, whether or not it is valid (R319, R388); an own one that returns is removed. -/
def passOn (c : Nat) (f : Frame) (s : State) : State :=
  match s.exitOf c f.port with
  | some p => if s.ownBack c f then s else ringPut c { f with port := p } s
  | none => s

/-! ### Port counters (R380, R383) -/

/-- Register o of port p of controller c. -/
def rpA (c p o : Nat) : Nat := rgA c (0x80 + 0x20 * p + o)

/-- The implied state of a port. -/
def RingAux.port (a : RingAux) (p : Nat) : RingPort := if p = 0 then a.port0 else a.port1
/-- A controller's implied state with that of a port replaced. -/
def RingAux.setPort (a : RingAux) (p : Nat) (x : RingPort) : RingAux :=
  if p = 0 then { a with port0 := x } else { a with port1 := x }

/-- Adds 1 to a 16-bit saturating counter of a port. -/
def bumpPort (c p o lo : Nat) (s : State) : State :=
  let t := s.setFld (rpA c p o) lo 16 (min 0xFFFF (s.fld (rpA c p o) lo 16 + 1))
  t.setRg c ((t.rg c).setPort p { (t.rg c).port p with rose := true })

/-- The end of a round at a port: NOISE and FIRSTOOW, then SUSPECT_UPSTREAM over the last 16 rounds. -/
def portRound (c p : Nat) (noise : Option Nat) (s : State) : State :=
  let t := match noise with
    | some x => (bumpPort c p 0xC 0 s).setReg (rpA c p 0x10) (word (x % (max 1 (s.roundN c)) % 0x1000000))
    | none => s
  let a := (t.rg c).port p
  let h := (a.rose :: a.hist).take 16
  let t := t.setRg c ((t.rg c).setPort p { hist := h, rose := false })
  let sus := t.flag (rpA c p 0) 2
  if !sus && decide (4 ≤ h.countP id) then
    (t.setFlag (rpA c p 0) 2 true).emit .suspectUpstream (.unit (ringUn c)) [fn p]
  else if sus && decide (h.length = 16) && !h.any id then t.setFlag (rpA c p 0) 2 false
  else t

/-- The end of a round at both ports, in RUN (R380). -/
def roundEnd (c : Nat) (e : RoundEnd) (s : State) : State :=
  if s.ringSt c = 4 then portRound c 1 e.noise1 (portRound c 0 e.noise0 s) else s

/-! ### The schedule (R325 to R327) -/

/-- The map kind of cell i of ordinal j. -/
def State.mapKind (s : State) (c j i : Nat) : Nat := s.fld (aMap c j i) 0 4

/-- Whether the map descriptors of a slot are valid (R335). -/
def State.mapOk (s : State) (c j len : Nat) : Bool :=
  (List.range len).all fun i =>
    let k := s.mapKind c j i
    decide (k ≤ 5) && (decide (k ≠ 3) || (decide (i + 1 < len) && decide (s.mapKind c j (i + 1) = 4))) &&
    (decide (k ≠ 4) || (decide (0 < i) && decide (s.mapKind c j (i - 1) = 3)))

/-- What the check of the schedule carries from slot to slot: the end of the slot before, the last owner position, the
slots owned and received so far. -/
structure Scan where
  bad  : Option Nat := none
  fin  : Nat := 0
  pos  : Nat := 0
  own  : Nat := 0
  rx   : Nat := 0
deriving DecidableEq, Repr

/-- The check of one slot (R327). -/
def scanSlot (s : State) (c : Nat) (x : Scan) (n : Nat) : Scan :=
  let e := s.slot c n
  let fin := e.start + slotBits e
  let mine := decide (e.kind ≠ 5) && decide (s.ringPos c = some e.owner.pos.toNat) && decide (e.owner.seg = s.seg c)
  let own := x.own + mine.toNat
  let rx := x.rx + e.rx.toNat
  let ok1 := if n = 0 then decide (e.kind = 1) && decide (e.start = 0) && decide (e.len = 6) && decide (e.owner.pos = 0)
    else decide (2 ≤ e.kind) && decide (e.kind ≤ 5) && decide (e.len ≤ 64) && (decide (e.kind ≠ 4) || decide (34 ≤ e.len)) &&
      decide (x.fin ≤ e.start)
  let ok4 := decide (e.kind = 5) || (decide (e.owner.seg = s.seg c) && decide (x.pos ≤ e.owner.pos.toNat))
  let ok5 := decide (n + 1 ≠ s.nslot c) || decide (fin + s.fld (rgA c 0x14) 0 24 ≤ s.roundN c)
  let ok6 := decide (own ≤ 64) && decide (rx ≤ 256)
  let ok7 := !mine || decide (e.kind ≠ 2) || s.mapOk c (own - 1) e.len
  { bad := match x.bad with
      | some b => some b
      | none => if ok1 && ok4 && ok5 && ok6 && ok7 then none else some n
    fin := fin
    pos := if e.kind = 5 then x.pos else e.owner.pos.toNat
    own := own
    rx := rx }

/-- The first offending slot of a schedule (R327); an empty schedule offends in slot 0. -/
def State.badSlot (s : State) (c : Nat) : Option Nat :=
  if s.nslot c = 0 then some 0 else ((List.range (s.nslot c)).foldl (scanSlot s c) {}).bad

/-- SCHEDID (R326). -/
def State.schedId (s : State) (c : Nat) : Word :=
  let head := [word (s.period c), word (s.nslot c), word (s.fld (rgA c 0x14) 0 24), if s.long c then 1 else 0]
  let body := (List.range (s.nslot c)).flatMap fun n =>
    [s.reg (aSched c n), setBit (s.reg (aSched c n + 4)) 11 false]
  word (crc32 (msbBytes (head ++ body)))

/-- Writes the slot numbers of the receive entries (R337, R348). -/
def nameEntries (c : Nat) (s : State) : State :=
  (s.rxSlots c).zipIdx.foldl (fun t x => t.setFld (aRxStat c x.2) 0 12 x.1) s

/-! ### States (R349) -/

/-- The controller that disciplines the timebase (R83): among the followers that are not OFF, ring1 when bridging, else
ring0, else ring1. -/
def State.discCtl (s : State) : Option Nat :=
  let f (c : Nat) : Bool := decide (c < s.member.rings) && decide (s.role c ≠ 1) && decide (s.ringSt c ≠ 0)
  if s.bridging && f 1 then some 1 else if f 0 then some 0 else if f 1 then some 1 else none

/-- A controller leaves RUN (R336): no slot has had a commit since. -/
def leaveRun (c : Nat) (s : State) : State :=
  s.setRg c { s.rg c with slots := (s.rg c).slots.map fun x => (x.1, { x.2 with since := false, ready := none }) }

/-- Moves a controller to a state. -/
def ringTo (c st : Nat) (s : State) : State :=
  let t := if s.ringSt c = 4 ∧ st ≠ 4 then leaveRun c s else s
  t.setFld (rgA c 0) 0 4 st

/-- Enters STOPPED (R331): the position is forgotten (13.3.7), an acting backup stops acting, and the discipline of the
timebase ends with the disciplining controller (R83, R88). -/
def ringStopped (c : Nat) (s : State) : State :=
  let d := s.clk.disc && decide (s.clk.discBy = c)
  let t := ringTo c 5 s
  let a := t.rg c
  let t := t.setRg c { a with fixed := false, pos := 0, begun := false, cands := 0, stop := 0, mute := false, prev := none
                              sleep := none, wake := none, parts := [] }
  let t := (t.setFlag (rgA c 0x44) 4 false).setFld (rgA c 0x44) 8 2 0
  if d then t.endDisc else t

/-- Enters LISTEN (R331, R54): through S7 or ring start the flags of an earlier joining go (R357). -/
def ringListen (c : Nat) (s : State) : State :=
  let t := nameEntries c (ringTo c 1 s)
  let t := t.setReg (rgA c 0x44) (t.reg (rgA c 0x44) &&& 0xE0)
  t.setRg c { t.rg c with fixed := false, begun := false, cands := 0, fromSt := 1, bkWait := true, stop := 0, mute := false
                          misId := none, sleep := none, wake := none }

/-- ring start on a controller whose schedule is good: only STOPPED moves (R331, R349). -/
def ringGo (c : Nat) (s : State) : State :=
  if s.ringSt c = 5 then
    ringListen c (((s.setReg (rgA c 0x18) (s.schedId c)).setFlag (rgA c 0x2C) 1 false).setFlag (rgA c 0x2C) 0 false)
  else s

/-- The channels bound to a controller: SRC = 1, an output mode, CTRL (R339). -/
def State.boundTo (s : State) (c : Nat) : List Nat :=
  s.chans.filter fun n => isOut (s.mode n) && s.flag (chA n 0) 6 && decide (s.fld (0x50800 + 8 * n) 18 1 = c)

/-- Enters RUN (R336, R306): owned slots without a commit since the controller left RUN start with AGE 255. -/
def enterRun (c : Nat) (s : State) : State :=
  let t := ringTo c 4 s
  let a := t.rg c
  let slots := (t.owned c).foldl (fun m n =>
    let x := sget {} m n
    if x.since then m else sset {} m n { x with age := 255 }) a.slots
  let t := t.setRg c { a with slots := slots, marks := 0, begun := false, bkWait := false, wake := none }
  let t := t.setFld (rgA c 0x44) 8 2 0
  forAll (t.boundTo c) (fun n u => autoRelease n (u.setCh n { u.ch n with rejoined := true })) t

/-- RUN after JOIN: RING_JOINED. -/
def joinRun (c : Nat) (s : State) : State := (enterRun c s).emit .ringJoined (.unit (ringUn c)) []

/-- Fixes a position in JOIN; a backup away from its rank sets BKPOS (R358). -/
def fixPos (c p : Nat) (s : State) : State :=
  let t := s.setRg c { s.rg c with fixed := true, pos := p }
  t.setFlag (rgA c 0x44) 3 (decide (t.role c = 2) && decide (t.rank c ≠ p))

/-! ### Ages and bindings (R337 to R340) -/

/-- Whether a binding names a slot that it may (R339). -/
def State.bindOk (s : State) (c n cell : Nat) : Bool :=
  decide (c < s.member.rings) && decide (n < s.nslot c) && decide ((s.slot c n).kind = 2) && (s.slot c n).rx &&
  decide (cell < (s.slot c n).len)

/-- The controller, slot and cell of a channel's binding (R347). -/
def State.bind (s : State) (n : Nat) : Nat × Nat × Nat :=
  (s.fld (0x50800 + 8 * n) 18 1, s.fld (0x50800 + 8 * n) 0 12, s.fld (0x50800 + 8 * n) 12 6)

/-- The total age of a channel's binding (R338, R339). -/
def State.bindTotal (s : State) (n : Nat) : Nat :=
  let (c, sl, cell) := s.bind n
  if s.bindOk c sl cell then s.fld (aRxStat c (s.rxIdx c sl) + 4) 16 16 else min 0xFFFF (s.ch n).bindAge

/-- The limit of a channel's binding. -/
def State.ageLimit (s : State) (n : Nat) : Nat := max 1 (s.fld (0x50804 + 8 * n) 0 16)

/-- Holds AGE at the limit (R340), and FENCE with it where a fenced unit receives the cell (Table 2.8). DEDUCED: assumption 71. -/
def judgeAge (n : Nat) (s : State) : State :=
  if isOut (s.mode n) && s.flag (chA n 0) 6 && decide (s.ageLimit n ≤ s.bindTotal n) && !s.flag (aSafeCh n) 30 &&
     !s.fenced .safe then
    let t := holdCh 14 n (chEvent .ageLimit n s)
    holdFence [n] (t.setCh n { t.ch n with rejoined := false })
  else s

/-- Sets LAGE of an entry, and its total age (R337, R338). -/
def setLage (c r v : Nat) (s : State) : State :=
  let v := min 0xFFFF v
  let t := s.setFld (aRxStat c r + 4) 0 16 v
  t.setFld (aRxStat c r + 4) 16 16 (min 0xFFFF (v + t.fld (aRxStat c r) 24 8))

/-- The total age of a slot is the age of the bindings that name it, from which they go on when a later schedule makes them invalid
(R339). -/
def keepAge (c n : Nat) (s : State) : State :=
  forAll ((s.boundTo c).filter fun m => decide ((s.bind m).2.1 = n) && s.bindOk c n (s.bind m).2.2) (fun m t =>
    t.setCh m { t.ch m with bindAge := s.bindTotal m }) s

/-- Adds to LAGE of the entry of a slot and judges the channels bound to it. -/
def ageSlot (c k : Nat) (n : Nat) (s : State) : State :=
  let r := s.rxIdx c n
  let t := keepAge c n (setLage c r (s.fld (aRxStat c r + 4) 0 16 + k) s)
  forAll ((t.boundTo c).filter fun m => decide ((t.bind m).2.1 = n)) judgeAge t

/-- One missed round for the bindings that name no slot they may (R339). -/
def ageBad (c k : Nat) (s : State) : State :=
  forAll ((s.boundTo c).filter fun m => !s.bindOk c (s.bind m).2.1 (s.bind m).2.2) (fun m t =>
    judgeAge m (t.setCh m { t.ch m with bindAge := min 0xFFFF ((t.ch m).bindAge + k) })) s

/-- Adds to LAGE of every entry of a controller. -/
def ageAll (c k : Nat) (s : State) : State := ageBad c k (forAll (s.rxSlots c) (ageSlot c k) s)

/-- The entries of DATA slots. -/
def State.rxData (s : State) (c : Nat) : List Nat := (s.rxSlots c).filter fun n => decide ((s.slot c n).kind = 2)

/-- A cell received for a bound channel (R339, R340, R247). -/
def bindWrite (n : Nat) (v : Word) (s : State) : State :=
  let m := s.mode n
  let x := bits v 0 (if isAo m then 16 else 1)
  let t := if isAo m then cfgErr n (decide (aoMax m < x)) (setOut n (min (aoMax m) x) s) else setOut n x s
  if t.bindTotal n < t.ageLimit n then autoRelease n (clearCause (aSafeCh n) 14 (.ch n) t) else judgeAge n t

/-- A valid frame replaces the receive entry of its slot (R337). -/
def storeEntry (c n : Nat) (f : Frame) (s : State) : State :=
  let r := s.rxIdx c n
  let t := f.cells.zipIdx.foldl (fun u x => u.setReg (aRxCell c r x.2) x.1) s
  let t := t.setReg (aRxStat c r) (word (n + f.seq.toNat * 0x10000 + f.age.toNat * 0x1000000))
  let t := setLage c r 0 t
  (t.setReg (aRxStat c r + 8) (t.clk.ts.extractLsb' 0 32)).setReg (aRxStat c r + 12) (t.clk.ts.extractLsb' 32 32)

/-- A valid frame is delivered to the entry and the bindings of its slot. -/
def deliver (c n : Nat) (f : Frame) (s : State) : State :=
  if (s.slot c n).rx then
    let t := keepAge c n (storeEntry c n f s)
    forAll ((t.boundTo c).filter fun m => decide ((t.bind m).2.1 = n) && t.bindOk c n (t.bind m).2.2) (fun m u =>
      bindWrite m (f.cells.getD (u.bind m).2.2 0) u) t
  else s

/-- Whether a frame of a slot is valid (R330). -/
def State.frameValid (s : State) (c : Nat) (f : Frame) : Bool :=
  let e := s.slot c f.slot
  let owner : Node := if f.slot = 0 then { seg := s.seg c, pos := 0 } else e.owner
  frameOk f && decide (f.slot < s.nslot c) && decide (f.kind.toNat = e.kind) && decide (f.fslot.toNat = f.slot) &&
  decide (f.source = owner) &&
  (match e.kind with
   | 1 => decide (f.len = 6)
   | 2 => decide (f.len.toNat = e.len)
   | 3 => decide (f.len.toNat ≤ e.len)
   | 4 => decide (f.len.toNat ≤ e.len)
   | _ => false)

/-- Whether a controller delivers what it receives: in RUN with agreeing schedules (R326, R353). -/
def State.ringDelivers (s : State) (c : Nat) : Bool := decide (s.ringSt c = 4) && !s.flag (rgA c 0x2C) 0

/-! ### Time transfer (R333) -/

/-- The transfer delay D in ticks. -/
def State.transfer (s : State) (c : Nat) : Int :=
  let q := (s.ringPos c).getD 0
  let hops : Int := ((List.range q).map fun i => roundDiv (s.fld (0x40028000 + 0x400 * c + 4 * (i + 1)) 0 16 : Nat) 25).sum
  ((q : Int) - 1) * (if s.long c then 256 else 64) + hops

/-- A controller becomes the one that disciplines the timebase (R83, R88). DEDUCED: assumption 65. -/
def startDisc (c : Nat) (s : State) : State :=
  if s.clk.disc && decide (s.clk.discBy = c) then s
  else if s.clk.disc then { s with clk := { s.clk with discBy := c } }
  else
    let t := if s.clk.slewing then s.emit .timeSlewcut .none [{ val := .n s.slewTicks }] else s
    { t.endSlew with clk := { t.endSlew.clk with disc := true, discBy := c, ringT := 0 } }

/-- The limit of R82. -/
def discLimit (v : Int) : Int := clampI (-1073741) 1073741 v

/-- Disciplines the timebase from an accepted ROUND with timestamp v (R333). -/
def discipline (c : Nat) (v : BitVec 64) (s : State) : State :=
  let a := s.rg c
  let e := (v + BitVec.ofInt 64 (s.transfer c) - a.markTs).toInt
  let raw := a.markAt.getD s.clk.raw
  let first := !s.clk.disc || decide (s.clk.discBy ≠ c)
  let t := startDisc c s
  let t := match (if first then none else a.prev) with
    | none => t.stepTime (t.clk.ts + BitVec.ofInt 64 e)
    | some (pts, praw) =>
      if e < -4000 ∨ 4000 < e then t.stepTime (t.clk.ts + BitVec.ofInt 64 e)
      else
        let dTS := (v - pts).toInt
        let dRaw : Int := (raw : Int) - praw
        { t with clk := { t.clk with
          ringT := discLimit (Int.tdiv ((dTS - dRaw) * 2 ^ 32) dRaw + Int.tdiv (e * 2 ^ 32) (8 * dRaw)) } }
  t.setRg c { t.rg c with prev := some (v, raw) }

/-- What a valid ROUND frame brings (R324, R326, R329, R331, R333, R337). -/
def takeRound (c : Nat) (f : Frame) (s : State) : State :=
  let cell (i : Nat) : Word := f.cells.getD i 0
  let id := cell 3
  let bad := decide (id ≠ s.reg (rgA c 0x18))
  let t := if bad && decide ((s.rg c).misId ≠ some id) then
      s.emit .schedMismatch (.unit (ringUn c)) [{ val := .un (ringUn c) }, { val := .hex id }] else s
  let t := t.setFlag (rgA c 0x2C) 0 bad
  let t := t.setRg c { t.rg c with misId := if bad then some id else none, round := cell 4
                                   stop := if bit (cell 2) 24 then 2 else (t.rg c).stop }
  let t := (t.setReg (rgA c 0x1C) (cell 4)).setReg (rgA c 0x20) (cell 5 &&& 0xFFFFFF)
  let t := if t.ringDelivers c && (t.slot c 0).rx then storeEntry c 0 f t else t
  if t.ringDelivers c && decide (t.discCtl = some c) && !t.sendsMarks c then discipline c (cell 1 ++ cell 0) t else t

/-! ### MAIL payloads (R342 to R344) -/

/-- An address as 16 bits. -/
def nodeBits (a : Node) : Nat := a.seg.toNat * 256 + a.pos.toNat

/-- An address from 16 bits. -/
def bitsNode (x : Nat) : Node := { seg := BitVec.ofNat 8 (x / 256), pos := BitVec.ofNat 8 x }

/-- The cells of a fragment (Table 12.7). -/
def MailFrag.cells (f : MailFrag) : List Word :=
  let dest := match f.dest with
    | some a => nodeBits a
    | none => 0
  [word (dest * 0x10000 + nodeBits f.origin),
   word (((f.tag.getD 0).toNat * 0x10000) + f.text.length * 0x100 + f.last.toNat * 0x80 + f.second.toNat * 0x40 +
     (if f.port = .cp1 then 1 else 0) * 0x10 + f.dup.toNat * 8 + f.tag.isSome.toNat * 4 + f.dest.isNone.toNat * 2 +
     f.resp.toNat)] ++
  (bytesWords f.text).map fun x => leWord (x.extractLsb' 24 8) (x.extractLsb' 16 8) (x.extractLsb' 8 8) (x.extractLsb' 0 8)

/-- The fragment of a payload (Table 12.7). -/
def fragOf (l : List Word) : MailFrag :=
  let a := l.getD 0 0
  let b := l.getD 1 0
  { dest := if bit b 1 then none else some (bitsNode (bits a 16 16))
    origin := bitsNode (bits a 0 16)
    tag := if bit b 2 then some (b.extractLsb' 16 16) else none
    text := (msbBytes (l.drop 2)).take (bits b 8 8)
    last := bit b 7
    second := bit b 6
    port := if bits b 4 2 = 1 then .cp1 else .cp0
    dup := bit b 3
    resp := bit b 0 }

/-- Whether an address is one of the part's own, of a controller in RUN (R360). -/
def State.isSelf (s : State) (a : Node) : Bool :=
  (List.range s.member.rings).any fun c => decide (s.ringSt c = 4) && decide (s.ringAddr c = a)

/-- The response of a remote line reaches its port (R125, R126): its tag entry is completed and the response is
sent, with a suffix where the port appends one now (R117), and with the prompt in typed mode (R112). -/
def remoteResponse (e : Ep) (x : Outst) (src : Node) (text : List Byte) (dup : Bool) (s : State) : State :=
  let p := s.port e
  let s := s.setPort e { p with
    remote := p.remote.filter (·.id ≠ x.id)
    tags := p.tags.map fun t => if x.tag = some t.tag ∧ t.resp = none then { t with resp := some (.rem src text) } else t }
  let t := s.send e (.resp none (.rem src text) dup (s.suffixed e x.crc))
  if s.generated e then t else (sendEvents e t).send e .prompt

/-- A complete line or response that MAIL has brought (R124, R125); a line enters the FIFO of the mail entry point, a terminator inside
it as a byte that is invalid there. -/
def mailTake (f : MailFrag) (text : List Byte) (s : State) : State :=
  if f.resp then
    match (s.port f.port).remote.find? fun x => decide (x.dst = f.origin) && decide (x.tag = f.tag) with
    | some x => remoteResponse f.port x f.origin text f.dup s
    | none => s
  else if text.all isSep then s
  else s.setPort .mail { s.mail with
    rx := s.mail.rx ++ text.map (fun b => if isTerm (.b b) then .b 0 else .b b) ++ [.b 13]
    heads := s.mail.heads ++ [{ origin := { node := f.origin, port := f.port, bcast := f.dest.isNone }, tag := f.tag }] }

/-- A fragment for this part: a second one completes the first of the same origin, within 4 rounds (R344). -/
def mailFrag (c : Nat) (f : MailFrag) (s : State) : State :=
  let a := s.rg c
  let same (p : Part) : Bool := decide (p.frag.origin = f.origin)
  if !f.second then
    if f.last then mailTake f f.text s
    else
      let t := s.setRg c { a with parts := a.parts.filter (!same ·) ++ [{ frag := f, round := a.round.toNat }] }
      if a.parts.any same then mailDiscard c 1 t else t
  else
    match a.parts.find? same with
    | none => mailDiscard c 1 s
    | some p =>
      let t := s.setRg c { a with parts := a.parts.filter (!same ·) }
      if (a.round - word p.round).toNat ≤ 4 then mailTake f (p.frag.text ++ f.text) t else mailDiscard c 2 t

/-- A bridge forwards a fragment (R368, R371). -/
def bridgeMail (c : Nat) (f : MailFrag) (s : State) : State :=
  if !s.bridging then s else
    match f.dest with
    | none => if s.flag (rgA 1 0x40) 7 then mailForward (1 - c) f s else s
    | some a =>
      if c = 0 then (if s.segBit 0x4002A820 a.seg then s else mailForward 1 f s)
      else (if s.segBit 0x4002A820 a.seg then mailForward 0 f s else s)

end Sys2Proof.Machine
end

