-- ==== Sys2Proof/Machine/CheckValue.lean ====
section
/-!
DEFINITION. The check-value units (chapter 14): the known-answer test and the commands on a unit.
-/
namespace Sys2Proof.Machine

/-- The number u of a check-value unit in the register map (R399); none for another unit. -/
def cvuNum : Un → Option Nat
  | .cvuL0 => some 0 | .cvuL1 => some 1 | .cvuL2 => some 2 | .cvuL3 => some 3
  | .cvuC0 => some 4 | .cvuC1 => some 5 | .cvuF => some 6
  | _ => none

/-- Seconds since the last passed known-answer test of unit u. -/
def State.katAge (s : State) (u : Nat) : Nat := (s.clk.raw - sget 0 s.kat u) / 400000000

/-- KNOWN_ANSWER_TEST (R395): a pass starts the time of lastkat again, a failure fences the unit (R309). -/
def execKnownAnswerTest (u : Un) (pass : Bool) (s : State) : Host.Outcome State Fault Refusal :=
  done (match cvuNum u with
    | none => s
    | some i =>
      if s.dead || s.asleep || s.fenced u || !s.hasUnit u then s
      else if pass then { s with kat := sset 0 s.kat i s.clk.raw }
      else fenceUnit true u s)

/-- CVU_GET (R398). -/
def execCvuGet (ln : Line) (u : Un) (s : State) : Host.Outcome State Fault Refusal :=
  done (runLine ln { locked := false } (fun _ => [(.object, (cvuNum u).isNone)])
    (value fun t =>
      let i := (cvuNum u).getD 0
      let here := t.hasUnit u
      [kw "state" (if !here then "absent" else if t.fenced u then "fenced" else "ok"),
       kn "lastkat" (if here then t.katAge i else 0),
       kn "checked" (if here then (t.reg (aCvu i 4)).toNat else 0),
       kn "errors" (if here then (t.reg (aCvu i 8)).toNat else 0)]) s)

/-- CVU_CLEAR (R398). -/
def execCvuClear (ln : Line) (u : Un) (s : State) : Host.Outcome State Fault Refusal :=
  done (runLine ln {} (fun t => [(.object, (cvuNum u).isNone), (.absent, !t.hasUnit u)])
    (okay fun t =>
      let i := (cvuNum u).getD 0
      (t.setReg (aCvu i 4) 0).setReg (aCvu i 8) 0) s)

end Sys2Proof.Machine
end

