-- ==== Sys2Proof/Machine/RFlash.lean ====
section
/-!
DEFINITION. The record flash and the trail (chapter 16): pages and HBUF, the table of bad blocks and erase counters, the
operations of a bank, the words of the trail.
-/
namespace Sys2Proof.Machine

/-! ### Pages (R435 to R440) -/

/-- FLASHCTL.RSTAT of a bank. -/
def aRst (b : Nat) : Nat := 0x80120 + 4 * b
/-- FLASHCTL.RTSTAT. -/
def aRtstat : Nat := 0x8010C
/-- The number of a block (R448). -/
def rfBlock (b blk : Nat) : Nat := 64 * b + blk
/-- The key of a page. -/
def rfKey (b blk p : Nat) : Nat := rfBlock b blk * 256 + p

/-- The name of a block. -/
def blockText (b blk : Nat) : String := toString b ++ "." ++ toString blk
/-- The name of a page. -/
def pageText (b blk p : Nat) : String := blockText b blk ++ "." ++ toString p

/-- What word i reads as where it is not listed. -/
def Fill.at : Fill → Nat → Word
  | .ones, _ => 0xFFFFFFFF
  | .undef k, i => leWord (Config.undefByte k (4 * i)) (Config.undefByte k (4 * i + 1)) (Config.undefByte k (4 * i + 2))
      (Config.undefByte k (4 * i + 3))
  | .uncorr k, i => Config.uncorrWord k i

/-- What word i of a page reads as where it is not listed: words 0 to 4,095 are its data area, 4,096 to 4,607 its spare, whose
first 270 words are the parity of a programmed page (R436). -/
def Page.base (p : Page) (i : Nat) : Word :=
  match p.fill with
  | .undef k => Fill.at (.undef k) i
  | .uncorr k => Fill.at (.uncorr k) i
  | f => if p.prog && decide (4096 ≤ i) && decide (i < 4366) then Config.parityWord p.par i else f.at i

/-- Word i of a page. -/
def Page.get (p : Page) (i : Nat) : Word := sget (p.base i) p.words i

/-- A page with word i set. -/
def Page.put (p : Page) (i : Nat) (v : Word) : Page := { p with words := sset (p.base i) p.words i v }

/-- The page that a list of cells makes, all other words ones. -/
def pageOf (l : List (Nat × Word)) : Page := l.foldl (fun p x => p.put x.1 x.2) {}

/-- Cells of a list of words from word i on. -/
def cellsAt (i : Nat) (l : List Word) : List (Nat × Word) := l.zipIdx.map fun x => (i + x.2, x.1)

/-- A page whose data area is one CVU-F block: its content words, ones to word 4,094, then their CRC-32C (R394). -/
def cvuBlock (l : List Word) : Page :=
  let c := l ++ List.replicate (4095 - l.length) 0xFFFFFFFF
  pageOf (cellsAt 0 l ++ [(4095, word (crc32c (wordsBytes c)))])

/-- Whether the CVU-F check of a page passes (R394). -/
def Page.crcOk (p : Page) : Bool := decide (word (crc32c (wordsBytes ((List.range 4095).map p.get))) = p.get 4095)

/-- The content words of a table page (Table 16.5). -/
def tableWords (banks : Nat) (c : TblCopy) : List Word :=
  [0x54424652, c.seq, word (banks + 64 * 256 + 0xFFFF0000)] ++
  (List.range 16).map (fun i => c.bad.extractLsb' (32 * i) 32) ++
  (List.range 16).map (fun i => c.fact.extractLsb' (32 * i) 32) ++
  (List.range 256).map fun i => (sget 0 c.cnt (2 * i + 1) ++ sget 0 c.cnt (2 * i) : BitVec 32)

/-- A page of the record flash: the table copies stand in the pages of the table blocks. -/
def State.rfPage (s : State) (b blk p : Nat) : Page :=
  let x := sget {} s.rf.pages (rfKey b blk p)
  if b = 0 ∧ blk < 2 ∧ x = {} then
    match s.rf.copies.find? fun c => decide (c.blk = blk) && decide (c.page = p) with
    | some c => { cvuBlock (tableWords s.member.banks c) with prog := true }
    | none => x
  else x

/-- The state with a page replaced. -/
def setRfPage (k : Nat) (p : Page) (s : State) : State := { s with rf := { s.rf with pages := sset {} s.rf.pages k p } }

/-- The operation in progress in a bank. -/
def State.rfOp (s : State) (b : Nat) : Option RfOp := sget none s.rf.ops b
/-- Whether a bank is busy. -/
def State.rfBusy (s : State) (b : Nat) : Bool := (s.rfOp b).isSome
/-- Sets the operation of a bank. -/
def setRfOp (b : Nat) (o : Option RfOp) (s : State) : State := { s with rf := { s.rf with ops := sset none s.rf.ops b o } }

/-- Whether a block is bad (R451). -/
def State.rfBad (s : State) (n : Nat) : Bool := s.rf.bad.getLsbD n || s.rf.fact.getLsbD n
/-- The erase counter of a block. -/
def State.rfCount (s : State) (n : Nat) : Nat := (sget 0 s.rf.cnt n).toNat
/-- The blocks of the member. -/
def State.rfBlocks (s : State) : List Nat := List.range (64 * s.member.banks)
/-- The bad blocks. -/
def State.badBlocks (s : State) : Nat := (s.rfBlocks.filter (s.rfBad ·)).length

/-! ### The table (R448 to R451) -/

/-- A table write falls due (R449); while cvu.f is fenced it is suspended and DEFERRED is set. -/
def tableDue (s : State) : State :=
  let t := { s with rf := { s.rf with due := true } }
  if t.fenced .cvuF then t.setFlag aRtstat 7 true else t

/-- Marks a block bad (R451). -/
def markBad (n : Nat) (why : String) (s : State) : State :=
  if s.rfBad n then s else
    tableDue ({ s with rf := { s.rf with bad := s.rf.bad ||| BitVec.ofNat 512 (2 ^ n) } }.emit .rflashBad (.unit .rflash)
      [fw (blockText (n / 64) (n % 64)), fw why])

/-- Sets an erase counter, and reports the block that wears out (R450). -/
def setCounter (n c : Nat) (s : State) : State :=
  let t := { s with rf := { s.rf with cnt := sset 0 s.rf.cnt n (BitVec.ofNat 16 c) } }
  if c = 3000 then t.emit .rflashWorn (.unit .rflash) [fw (blockText (n / 64) (n % 64))] else t

/-- Counts an erase towards the next table write, due after 64 (R449). -/
def pendErase (s : State) : State :=
  let k := s.fld aRtstat 1 6
  if k < 63 then s.setFld aRtstat 1 6 (k + 1) else tableDue s

/-- Counts the end of an erase (R449, R450): the counter saturates. -/
def countErase (n : Nat) (s : State) : State :=
  let c := s.rfCount n
  pendErase (if c < 65535 then setCounter n (c + 1) s else s)

/-- The pages of a table block that hold copies, in order (R448): the lower and unpaired pages. -/
def nextTablePage (p : Nat) : Option Nat :=
  if p ≤ 4 then some p else
    let q := p + p % 2
    if q ≤ 254 then some q else none

/-- Whether a table write may start (R449, R35). -/
def State.tableReady (s : State) : Bool :=
  s.rf.due && !s.dead && !s.asleep && !s.sup.crawl && !s.fenced .rflash && !s.fenced .cvuF && !s.sup.holdupLow && !s.rfBusy 0

/-- The copy that a table write stores in a page. -/
def State.newCopy (s : State) (blk p : Nat) : TblCopy :=
  { blk := blk, page := p, seq := s.reg 0x80108 + 1, bad := s.rf.bad, fact := s.rf.fact, cnt := s.rf.cnt }

/-- Starts the program of a table page: the write is no longer due, and the count of erases begins again. -/
def startTable (blk p : Nat) (s : State) : State :=
  let t := setRfOp 0 (some { erase := false, block := blk, page := p, owner := .table, tbl := some (s.newCopy blk p) })
    { s with rf := { s.rf with due := false, nextPg := sset 0 s.rf.nextPg blk (p + 1) } }
  (t.setFld aRtstat 1 6 0).setFlag aRtstat 7 false

/-- Starts a table write (R448, R451): the next page of the active block, else the other block erased first. -/
def writeTable (s : State) : State :=
  let a := s.fld aRtstat 0 1
  let o := 1 - a
  let erase (blk : Nat) : State := setRfOp 0 (some { erase := true, block := blk, owner := .table }) s
  match (if s.rfBad a then none else nextTablePage (sget 0 s.rf.nextPg a)) with
  | some p => startTable a p s
  | none =>
    if !s.rfBad o then erase o
    else if !s.rfBad a then erase a
    else fenceUnit true .rflash s

/-! ### Operations (R439, R441 to R447) -/

/-- Records the start of a program: a page programmed against the order leaves every page of its block undefined (R439).
DEDUCED: assumption 60. -/
def rfPrograms (b blk p : Nat) (img : Page) (s : State) : State :=
  let n := rfBlock b blk
  if sget 0 s.rf.nextPg n ≤ p then
    let keep := img.words.filter fun (x : Nat × Word) => decide (x.1 < 4096) || decide (4366 ≤ x.1)
    let t := setRfPage (rfKey b blk p) { img with words := keep, prog := true, par := s.freeIdx } s
    { t with rf := { t.rf with nextPg := sset 0 t.rf.nextPg n (p + 1) }, freeIdx := t.freeIdx + 1 }
  else
    let t := (List.range 256).foldl (fun t i => setRfPage (rfKey b blk i) { fill := .undef (s.freeIdx + i), prog := true } t) s
    { t with freeIdx := t.freeIdx + 256 }

/-- A block erased: every page reads ones. -/
def rfErased (b blk : Nat) (s : State) : State :=
  let n := rfBlock b blk
  { s with rf := { s.rf with
      pages := s.rf.pages.filter fun (x : Nat × Page) => decide (x.1 / 256 ≠ n)
      copies := if b = 0 then s.rf.copies.filter fun c => decide (c.blk ≠ blk) else s.rf.copies
      nextPg := s.rf.nextPg.filter fun (x : Nat × Nat) => decide (x.1 ≠ n) } }

/-- The result codes of RSTAT ERR. -/
def rfResult : Nat → String
  | 0 => "done" | 1 => "progfail" | _ => "erasefail"

/-- Ends the operation of a bank in its flags (R460, Table 17.1): DONE, ERR, the FLASHDONE record. -/
def rfEnd (b code : Nat) (s : State) : State :=
  (((setRfOp b none s).setFld (aRst b) 4 3 code).setFlag (aRst b) 3 true).record 0x09 (8 + b) code []

/-- Reports a read (R447), with its FLASHDONE record (Table 17.1). -/
def rfReport (b blk p : Nat) (r : PageRead) (erased : Bool) (s : State) : State :=
  let t := (((s.setFld (aRst b) 4 3 (if r.uncorr then 3 else 0)).setFld (aRst b) 7 3 r.rt).setFlag (aRst b) 10 erased).setFld
    (aRst b) 16 7 (min 72 r.corr)
  let t := (t.setFlag (aRst b) 3 true).record 0x09 (8 + b) (if r.uncorr then 3 else 0) []
  let t := if !r.uncorr && decide (0 < r.corr) then t.setFlag (aRst b) 11 true else t
  let ev (x : String) (u : State) : State := u.emit .rflashEcc (.unit .rflash) [fw (pageText b blk p), fw x]
  let t := if !r.uncorr && decide (1 ≤ r.rt) then ev ("rt" ++ toString r.rt) t else t
  if r.uncorr then ev "uncorr" (t.setFlag (aRst b) 12 true) else t

/-- The read that the mode of RCFG makes of an outcome (R445, R446): manual reads use RTSET alone; an uncorrectable page is
delivered as read at RT0, or at RTSET. An unprogrammed page reads erased. -/
def State.rfRead (s : State) (r : PageRead) (erased : Bool) : PageRead :=
  let man := s.flag 0x80100 0
  let set := if man then s.fld 0x80100 1 3 else 0
  if erased then { rt := set }
  else if r.uncorr then { rt := set, uncorr := true }
  else { rt := if man then set else r.rt % 8, corr := min 72 r.corr }

/-- Reads a page into HBUF (R442). -/
def readPage (b blk p : Nat) (r0 : PageRead) (s : State) : PageRead × State :=
  let x := s.rfPage b blk p
  let erased := !x.prog
  let r := s.rfRead r0 erased
  let t := if r.uncorr then { s with rf := { s.rf with hbuf := { fill := .uncorr s.freeIdx } }, freeIdx := s.freeIdx + 1 }
    else { s with rf := { s.rf with hbuf := x } }
  (r, rfReport b blk p r erased t)

/-- CVU-F checks a block that it reads, the page at a key (R394, R397). -/
def blockCheck (key : Nat) (ok : Bool) (s : State) : State :=
  let b := key / 16384
  let blk := key / 256 % 64
  let p := key % 256
  let t := s.count (aCvu 6 4)
  if ok then t
  else ((t.count (aCvu 6 8)).setReg (aCvu 6 0xC) (word (b + 8 * blk + 512 * p))).emit .blockCrc (.unit .cvuF)
    [fw (pageText b blk p)]

/-! ### The refusals of page commands (R451 to R453, R458) -/

/-- The objects of a page command (R435). -/
def rfObj (b blk p : Nat) (s : State) : List (Code × Bool) :=
  [(.absent, decide (s.member.banks ≤ b)), (.range, decide (64 ≤ blk) || decide (256 ≤ p))]

/-- The refusals of a read. -/
def rfReadChecks (b blk p : Nat) (s : State) : List (Code × Bool) :=
  rfObj b blk p s ++ [(.fenced, s.fenced .rflash), (.busybank, s.rfBusy b)]

/-- The refusals of a program or an erase. -/
def rfWriteChecks (b blk p : Nat) (s : State) : List (Code × Bool) :=
  rfObj b blk p s ++ [(.fenced, s.fenced .rflash),
    (.range, s.rfBad (rfBlock b blk) || s.flag 0x80104 b || (decide (b = 0) && decide (blk < 2))),
    (.busybank, s.rfBusy b), (.holdup, s.sup.holdupLow)]

/-- Starts a host program of HBUF (R442). -/
def hostProgram (b blk p : Nat) (s : State) : State :=
  setRfOp b (some { erase := false, block := blk, page := p, owner := .host, img := s.rf.hbuf }) s

/-- Starts a host erase (R442). -/
def hostErase (b blk : Nat) (s : State) : State := setRfOp b (some { erase := true, block := blk, owner := .host }) s

/-- An outcome of a page read that nothing names: a free value (a read that RCMD starts through wr).
DESIGN CHOICE: assumption 32. -/
def freeRead (k : Nat) : PageRead :=
  let x := Config.freeWord k
  { rt := bits x 0 3, corr := bits x 3 7 % 73, uncorr := bit x 10 }

/-- The bank, block and page of RADDR. -/
def State.raddr (s : State) : Nat × Nat × Nat := (s.fld 0x80110 0 3, s.fld 0x80110 3 6, s.fld 0x80110 9 8)

/-- The refusals of a write of RCMD (R460): those of the corresponding command. -/
def rcmdChecks (v : Word) (s : State) : List (Code × Bool) :=
  match s.raddr with
  | (b, blk, p) =>
    match bits v 0 2 with
    | 1 => rfReadChecks b blk p s
    | 2 => rfWriteChecks b blk p s
    | 3 => rfWriteChecks b blk 0 s
    | _ => []

/-- A write of RCMD (R460). -/
def writeRcmd (v : Word) (s : State) : State :=
  match s.raddr with
  | (b, blk, p) =>
    match bits v 0 2 with
    | 1 => (readPage b blk p (freeRead s.freeIdx) s.draw).2
    | 2 => hostProgram b blk p s
    | 3 => hostErase b blk s
    | _ => s

/-! ### HBUF and the trail as registers (R455 to R457, R460) -/

/-- The HBUF word at an address. -/
def hbufIdx (a : Nat) : Nat := (a - 0x88000) / 4

/-- Writes an HBUF word. -/
def writeHbuf (a : Nat) (v : Word) (s : State) : State :=
  { s with rf := { s.rf with hbuf := s.rf.hbuf.put (hbufIdx a) v } }

/-- The 32-bit word of the trail window at an offset (R457): 0 where it counts as unwritten. -/
def State.trailWord (s : State) (off : Nat) : Word :=
  if off < (s.reg 0x70F08).toNat ∧ off < s.member.trailSize then
    (sget 0 s.chrys.trail (off / 8)).extractLsb' (if off % 8 < 4 then 0 else 32) 32
  else 0

/-- An uncorrectable trail word is met (R455): counted, its address kept, TRAIL_ECC; two within 1 s fence the trail. -/
def trailEcc (i : Nat) (s : State) : State :=
  let a := word (0xC0000000 + 8 * i)
  let t := ((s.count 0x70F10).setReg 0x70F14 a).emit .trailEcc (.unit .trail) [{ val := .hex a }]
  let near := match s.chrys.badAt with
    | some x => decide (s.clk.raw ≤ x + 400000000)
    | none => false
  let t := { t with chrys := { t.chrys with badAt := some s.clk.raw
                                            trailBad := if t.chrys.trailBad.contains i then t.chrys.trailBad
                                              else t.chrys.trailBad ++ [i] } }
  if near then fenceUnit true .trail t else t

/-- A read of trail words by the host meets those known to be uncorrectable. -/
def trailMeet (l : List Nat) (s : State) : State :=
  l.foldl (fun t off => if s.chrys.trailBad.contains (off / 8) && decide (off < (s.reg 0x70F08).toNat) then trailEcc (off / 8) t
    else t) s

end Sys2Proof.Machine
end

