-- ==== Sys2Proof/Machine/Copy.lean ====
section
/-!
DEFINITION. Epochs, keyframes, and the capsule that Chrysalis copies to the record flash or holds in the trail (R462 to R482).
-/
namespace Sys2Proof.Machine

/-! ### Keyframes (R469, R470) -/

/-- The address of a stored register: the sets of a channel share their offsets (R530). -/
def keyAddr (k : Nat) : Nat :=
  if 0x10000000 ≤ k ∧ k < 0x18000000 ∧ k % 0x1000000 < 0x10000 ∧ 0x140 ≤ k % 0x1000 then k - (k % 0x1000 / 0x100) * 0x100 else k

/-- The registers whose content differs from what the loaded profile made at S5. DESIGN CHOICE: assumption 57. -/
def State.changed (s : State) : Sparse Word :=
  let now := s.regs.filter fun (x : Nat × Word) => decide (sget (resetWord x.1) s.s5regs x.1 ≠ x.2)
  let old := (s.s5regs.map (·.1)).filter fun k => decide (s.reg k = resetWord k)
  let regs := old.foldl (fun m k => sput m k (s.reg k)) now
  sput (sput regs 0x10004 (s.clk.ts.extractLsb' 0 32)) 0x10008 (s.clk.ts.extractLsb' 32 32)

/-- The words that a keyframe gives to the state without a register: the event queue, and of each entry point the received bytes and
the tag cache; the timers of the watchdog and of the slew; the pending sync resets. -/
def State.hiddenWords (s : State) : Nat :=
  8 * s.evq.length + s.cp0.rx.length + s.cp1.rx.length + s.mail.rx.length + 8 * s.cp0.tags.length + 8 * s.cp1.tags.length +
    8 * s.mail.tags.length + (if s.wdog.running then 1 else 0) + (if s.clk.slewing then 2 else 0) + s.syncs.length

/-- A number of words as KFDATA payloads of an address and up to 254 values. -/
def kfParts : Nat → Nat → List Nat
  | 0, _ => []
  | k + 1, n => if n = 0 then [] else if n ≤ 254 then [n + 1] else 255 :: kfParts k (n - 254)

/-- The KFDATA payloads of the state without a register, to which the spec gives neither address nor coding: free values.
DESIGN CHOICE: assumption 57. -/
def State.hiddenData (s : State) : List (List Word) :=
  ((kfParts (s.hiddenWords + 1) s.hiddenWords).zipIdx.map fun (x : Nat × Nat) =>
    (List.range x.1).map fun i => Config.freeWord (s.freeIdx + 255 * x.2 + i))

/-- Cells as runs of consecutive addresses, at most 254 values each. -/
def kfRuns : List (Nat × Word) → List (Nat × List Word)
  | [] => []
  | (k, v) :: l =>
    match kfRuns l with
    | (k', vs) :: r => if k' = keyAddr k + 4 ∧ vs.length < 254 then (keyAddr k, v :: vs) :: r else (keyAddr k, [v]) :: (k', vs) :: r
    | [] => [(keyAddr k, [v])]

/-- Takes a keyframe: KFBEGIN and the KFDATA records. KFEND follows when it is complete. -/
def takeKeyframe (s : State) : State :=
  if !s.chrys.run || s.flag aRecStat 7 then s else
    let c := s.chrys
    let k : Kf := { num := c.kfNum, line := c.line, lseq := c.lseq, raw := s.clk.raw, ts := s.clk.ts, done := false }
    let data := ((kfRuns s.changed).map fun (r : Nat × List Word) => word r.1 :: r.2) ++ s.hiddenData
    let s := { s with freeIdx := s.freeIdx + 255 * s.hiddenData.length }
    let t := s.record 0x21 0 0 [word c.kfNum]
    let t := { t with chrys := { t.chrys with kfs := k :: t.chrys.kfs, kfNum := c.kfNum + 1, kfData := data.flatten } }
    data.foldl (fun u l => u.record 0x22 0 0 l) t

/-- Completes the newest keyframe: KFEND. -/
def endKeyframe (s : State) : State :=
  match s.chrys.kfs with
  | k :: l =>
    if k.done || !s.chrys.run then s else
      let t := s.record 0x23 0 0 [word s.chrys.kfData.length, word (crc32c (wordsBytes s.chrys.kfData))]
      { t with chrys := { t.chrys with kfs := { k with done := true } :: l } }
  | [] => s

/-! ### The capsule stream (R476, R477) -/

/-- The banks claimed since the epoch start (R453). -/
def State.claimed (s : State) : List Nat := (List.range s.member.banks).filter fun b => s.flag 0x80104 b

/-- The header of a capsule (Table 17.4): 256 words. Until the span has ended its end is not known: free values stand in TRIGCNT,
TEND, LINES, FLAGS, KFCOUNT and HCRC. DEDUCED: assumption 58. -/
def State.capHeader (s : State) (c : Cap) : List Word :=
  let free (i : Nat) (v : Word) : Word := if c.post then Config.freeWord (s.freeIdx + i) else v
  let uid (i : Nat) : Word := s.uid.extractLsb' (32 * i) 32
  let flags := (decide (s.sup.profSrc = 0)).toNat + 2 * c.gap.toNat + 4 * c.atReset.toNat + 8 * c.repl.toNat
  let body := [0x43525953, word (1 + s.member.groups * 0x10000 + s.member.sysId.toNat % 256 * 0x1000000),
     uid 0, uid 1, uid 2, uid 3, word c.id,
     (c.trigObj ++ (free 0 (word c.trigCnt)).extractLsb' 0 8 ++ BitVec.ofNat 8 c.trig : BitVec 32)] ++
    halves c.ttrig ++ halves c.tstart ++ [free 1 (c.tend.extractLsb' 0 32), free 2 (c.tend.extractLsb' 32 32)] ++
    [c.win, s.reg 0x24, 2048, word (4 * s.chrys.prof.length), free 3 (word c.lines), free 4 (word flags), s.reg 0x80010,
     (0xFF#8 ++ c.epoch ++ s.chrys.profCrc : BitVec 32), c.flseq, free 5 (word c.kfs)]
  let body := body ++ List.replicate (255 - body.length) 0xFFFFFFFF
  body ++ [free 6 (word (crc32c (wordsBytes body)))]

/-- Whether a line of the trail holds an uncorrectable word. -/
def State.lineBad (s : State) (l : Nat) : Bool := s.chrys.trailBad.any fun i => decide (i / 8 = l)

/-- A word of a line as it is copied: every 64-bit word of a line that reads uncorrectable is a GAP record (R478). -/
def State.lineWord (s : State) (l w : Nat) : Word :=
  if s.lineBad l then (if w % 2 = 0 then 0x2E else 0)
  else (sget 0 s.chrys.trail (8 * l + w / 2)).extractLsb' (32 * (w % 2)) 32

/-- The trailer (Table 17.3). -/
def capTrailer (c : Cap) : List Word :=
  [0x54524C52, word c.id, word c.lines, word (c.lcrc ^^^ 0xFFFFFFFF)] ++ List.replicate 12 0xFFFFFFFF

/-- Words of the stream before the lines. -/
def State.capHead (s : State) : Nat := 768 + s.chrys.prof.length

/-- Word i of the capsule stream (Table 17.3), ones behind its end. -/
def State.capWord (s : State) (c : Cap) (hdr : List Word) (i : Nat) : Word :=
  if i < 256 then hdr.getD i 0
  else if i < 768 then Config.trimWord (i - 256)
  else if i < s.capHead then s.chrys.prof.getD (i - 768) 0
  else
    let k := i - s.capHead
    if c.post ∨ k < 16 * c.lines then s.lineWord ((c.first + k / 16) % s.trailLines) (k % 16)
    else (capTrailer c).getD (k - 16 * c.lines) 0xFFFFFFFF

/-- The capsule pages that hold data, W banks claimed; one more where the last would fill the last page of a block, which leaves
the seal no page. -/
def State.dataPages (s : State) (c : Cap) (w : Nat) : Nat :=
  let n := ceilDiv (s.capHead + 16 * c.lines + 16) 4095
  let full (j : Nat) : Bool := decide ((j - 1) % (256 * w) / w = 255)
  (List.range w).foldl (fun m _ => if full m then m + 1 else m) n

/-- The tag of a capsule page (R477): spare bytes 1,080 on, three times. -/
def tagCells (id pidx kind : Nat) : List (Nat × Word) :=
  let t := [word id, word pidx, word (0xFFFFFF00 + kind), 0xFFFFFFFF]
  cellsAt 4366 (t ++ t ++ t)

/-- A page with its tag. -/
def Page.tagged (p : Page) (id pidx kind : Nat) : Page := (tagCells id pidx kind).foldl (fun q x => q.put x.1 x.2) p

/-- The indices of the line words in capsule page j. -/
def State.pageLines (s : State) (c : Cap) (j : Nat) : List Nat :=
  (List.range 4095).filterMap fun i =>
    let k := 4095 * j + i
    if s.capHead ≤ k ∧ (c.post ∨ k < s.capHead + 16 * c.lines) then some (k - s.capHead) else none

/-- Composes data page j: the running CRC of the lines takes those it carries, and the uncorrectable words met count (R455). -/
def composePage (c : Cap) (j : Nat) (s : State) : Page × Cap × State :=
  let ks := s.pageLines c j
  let at_ (k : Nat) : Nat := (c.first + k / 16) % s.trailLines
  let crc := (wordsBytes (ks.map fun k => s.lineWord (at_ k) (k % 16))).foldl (fun r b => crcShr 0x82F63B78 8 (r ^^^ b.toNat)) c.lcrc
  let c := { c with lcrc := crc, repl := c.repl || ks.any fun k => s.lineBad (at_ k) }
  let hdr := s.capHeader c
  let img := (cvuBlock ((List.range 4095).map fun i => s.capWord c hdr (4095 * j + i))).tagged c.id j 1
  let t := { s with freeIdx := s.freeIdx + 7 }
  let t := trailMeet ((ks.filter fun k => decide (k % 2 = 0)).map fun k => 64 * at_ k + 4 * (k % 16)) t
  (img, c, t)

/-! ### The copy (R478 to R481) -/

/-- Sets the capsule that is copied. -/
def setCap (c : Option Cap) (s : State) : State := { s with chrys := { s.chrys with cap := c } }

/-- A trigger that waits is lost with the copy that it waits for. -/
def losePending (s : State) : State :=
  match s.chrys.pend with
  | none => s
  | some p => ({ s with chrys := { s.chrys with pend := none } }.setFlag aRecStat 5 false).trigLost p.kind

/-- Holds the capsule in the trail (R480, R481). -/
def holdTrail (s : State) : State :=
  match s.chrys.cap with
  | none => s
  | some c =>
    losePending (({ s with chrys := { s.chrys with cap := none, trailCap := some c } }.setFld aRecStat 3 2 0).setFlag aRecStat 6 true)

/-- Blocks of the capsules that the directory keeps. -/
def State.keptBlocks (s : State) : List Nat :=
  s.chrys.dir.flatMap fun d => if d.st = .opened then [] else d.blocks

/-- Whether a capsule may take a block: neither bad nor a table block, and of no kept capsule. -/
def State.takes (s : State) (n : Nat) : Bool :=
  !s.rfBad n && decide (2 ≤ n) && !s.keptBlocks.contains n &&
  !(match s.chrys.cap with | some c => c.blocks.contains n | none => false) &&
  !s.chrys.erasing.any fun e => e.2.contains n

/-- The next block of a bank from its cursor (R476). -/
def State.nextBlock (s : State) (b : Nat) : Option Nat :=
  let k := sget 0 s.chrys.cursor b
  ((List.range 64).map fun i => (k + i) % 64).find? fun blk => s.takes (rfBlock b blk)

/-- Blocks that the claimed banks have free. -/
def State.freeBlocks (s : State) : Nat :=
  (s.claimed.flatMap fun b => (List.range 64).filter fun blk => s.takes (rfBlock b blk)).length

/-- The oldest capsule of the directory. -/
def State.oldest (s : State) : Option DirEnt :=
  (s.chrys.dir.filter fun d => decide (d.st ≠ .opened)).foldl (fun m d =>
    match m with
    | none => some d
    | some x => if d.id < x.id then some d else some x) none

/-- Takes a capsule out of the directory and erases its blocks in turn (R480, R491). -/
def eraseCap (id : Nat) (s : State) : State :=
  match s.chrys.dir.find? fun d => decide (d.id = id) with
  | none => s
  | some d =>
    let dir := s.chrys.dir.filter fun x => decide (x.id ≠ id)
    { s with chrys := { s.chrys with dir := dir, erasing := s.chrys.erasing ++ [(id, d.blocks)] } }

/-- The state of bank index i of a copy. -/
def Cap.bank (c : Cap) (i : Nat) : CapBank := sget {} c.banks i
/-- Sets it. -/
def Cap.setBank (c : Cap) (i : Nat) (x : CapBank) : Cap := { c with banks := sset {} c.banks i x }

/-- Takes a block for a bank of the copy; with none left the oldest capsule is erased first, or the copy ends (R480). -/
def takeBlock (c : Cap) (i b stripe : Nat) (s : State) : State :=
  match s.nextBlock b with
  | some blk =>
    let n := rfBlock b blk
    let opened (d : DirEnt) : DirEnt := { d with blocks := d.blocks.filter (· ≠ n) }
    let c := { c.setBank i { c.bank i with stripe := stripe, block := some blk, erased := false, page := 0 } with
      blocks := c.blocks ++ [n] }
    { s with chrys := { s.chrys with cap := some c, cursor := sset 0 s.chrys.cursor b ((blk + 1) % 64)
                                     dir := (s.chrys.dir.map opened).filter fun d => decide (d.blocks ≠ []) } }
  | none =>
    if s.chrys.erasing ≠ [] then s
    else match (if s.flag 0x70000 1 then s.oldest else none) with
      | some d => eraseCap d.id s
      | none => (holdTrail s).emit .recFull (.unit .chrys) []

/-- Starts an operation of Chrysalis. -/
def chrysOp (b : Nat) (o : RfOp) (s : State) : State := setRfOp b (some o) s

/-- Starts the program of a page of the copy's block. -/
def chrysProgram (b : Nat) (x : CapBank) (img : Page) (idx : Option Nat) (s : State) : State :=
  match x.block with
  | some blk => chrysOp b { erase := false, block := blk, page := x.page, owner := .chrys, img := img, idx := idx } s
  | none => s

/-- The last data page in the last stripe's block of bank index i, and the page that the block is padded through (R479); none
where the block holds no data. -/
def padEnd (n w i : Nat) : Option Nat :=
  let r := (n - 1) % (256 * w)
  if r < i then none
  else
    let k := (r - i) / w
    let l := min k 250 / 2 * 2
    some (max k (l + 5))

/-- The seal page (R479). -/
def State.sealPage (s : State) (c : Cap) : Page :=
  pageOf (cellsAt 0 (s.capHeader c) ++ cellsAt 256 (capTrailer c))

/-- The seal as one CVU-F block. -/
def State.sealBlock (s : State) (c : Cap) : Page :=
  cvuBlock ((List.range 4095).map (s.sealPage c).get)

/-- The capsule page index of page p of bank index i in a stripe. -/
def capIdx (w stripe i p : Nat) : Nat := 256 * w * stripe + w * p + i

/-- Pads or seals with bank index i, once every data page has been started (R479). -/
def pumpPad (c : Cap) (i b : Nat) (s : State) : State :=
  let l := s.claimed
  let w := l.length
  let n := s.dataPages c w
  let x := c.bank i
  let own := (n - 1) % (256 * w) % w
  match padEnd n w i with
  | none => s
  | some d =>
    if x.stripe ≠ (n - 1) / (256 * w) then s
    else if x.page < d ∨ (x.page = d ∧ i ≠ own) then
      chrysProgram b x ((pageOf []).tagged c.id (capIdx w x.stripe i x.page) 2) none s
    else if x.page = d then
      let ready := (List.range w).all fun j => decide (j = i) ||
        (decide (s.rfOp (l.getD j 0) = none) && decide ((c.bank j).redo = []) &&
         (match padEnd n w j with | some e => decide (e < (c.bank j).page) | none => true))
      if ready then chrysProgram b x ((s.sealBlock c).tagged c.id (capIdx w x.stripe i x.page) 3) none s else s
    else s

/-- Whether data page j can be composed: its bytes stand in whole lines, or the span has ended. -/
def State.composable (s : State) (c : Cap) (j w : Nat) : Bool :=
  if c.post then decide (4095 * (j + 1) ≤ s.capHead + 16 * (s.chrys.lseq - c.flseq).toNat) else decide (j < s.dataPages c w)

/-- What bank index i of the copy does next while its bank b is idle. -/
def pumpBank (i b : Nat) (s : State) : State :=
  if s.rfBusy b then s else
  match s.chrys.erasing with
  | (_, l) :: _ =>
    match l.find? fun n => decide (n / 64 = b) with
    | some n => chrysOp b { erase := true, block := n % 64, owner := .chrys } s
    | none => s
  | [] =>
  match s.chrys.cap with
  | none => s
  | some c =>
    let w := s.claimed.length
    let x := c.bank i
    let write (x : CapBank) (go : CapBank → State) (stripe : Nat) : State :=
      match x.block with
      | none => takeBlock c i b stripe s
      | some blk => if x.erased then go x else chrysOp b { erase := true, block := blk, owner := .chrys } s
    match x.redo with
    | img :: _ => write x (fun x => chrysProgram b x img none s) x.stripe
    | [] =>
      let j := c.sent
      let st := j / (256 * w)
      if !c.post && decide (s.dataPages c w ≤ j) then pumpPad c i b s
      else if j % (256 * w) % w ≠ i || !s.composable c j w then s
      else if x.block.isSome && x.stripe ≠ st then takeBlock c i b st s
      else write x (fun x =>
        match composePage c j s with
        | (img, c, t) => chrysProgram b x img (some j) (setCap (some { c with sent := j + 1 }) t)) st

/-- Every claimed bank takes its next step, several passes so that each bank that may start does; HOLDUP_LOW lets nothing start
(R480), and with no bank claimed or rflash or cvu.f fenced the capsule is held in the trail once its span has ended.
DEDUCED: assumption 59. -/
def pump (s : State) : State :=
  if s.dead || s.sup.crawl || s.asleep || s.replaying then s
  else if s.claimed = [] || s.fenced .rflash || s.fenced .cvuF then
    match s.chrys.cap with
    | some c => if c.post then s else holdTrail s
    | none => s
  else if s.sup.holdupLow then s
  else
    let pass (t : State) : State := s.claimed.zipIdx.foldl (fun u (x : Nat × Nat) => pumpBank x.2 x.1 u) t
    (List.range (3 * s.claimed.length)).foldl (fun t _ => pass t) s

/-- Ends the span of the capsule (R473): its lines, its complete keyframes, the timestamp of its last record. -/
def closeCap (gap : Bool) (s : State) : State :=
  match s.chrys.cap with
  | none => s
  | some c =>
    if !c.post then s else
      let n := (s.chrys.lseq - c.flseq).toNat + (decide (s.chrys.word ≠ 0)).toNat
      let kfs := (s.chrys.kfs.filter fun k => k.done && decide ((k.lseq - c.flseq).toNat < n)).length
      let c := { c with post := false, lines := n, kfs := kfs, tend := s.chrys.lastTs, gap := c.gap || gap }
      (setCap (some c) s).setFld aRecStat 3 2 2

/-- Resumes recording where the copy has freed the line (R478): the span that the pause cut ends, then GAP and a keyframe. -/
def resumeRec (s : State) : State :=
  if s.flag aRecStat 7 && s.chrys.run && !s.lineProtected s.chrys.line then
    let t := (closeCap true s).setFlag aRecStat 7 false
    let d := s.clk.raw - s.chrys.gapFrom
    let t := t.record 0x2E 0 0 (halves (BitVec.ofNat 64 d))
    takeKeyframe (t.emit .recGap (.unit .chrys) [fn d])
  else s

/-- COPY shows padding once every data page has been started. -/
def showCopy (s : State) : State :=
  match s.chrys.cap with
  | some c =>
    if c.post then s.setFld aRecStat 3 2 1
    else s.setFld aRecStat 3 2 (if s.dataPages c s.claimed.length ≤ c.sent then 3 else 2)
  | none => s.setFld aRecStat 3 2 0

/-- The copy goes on after a change. -/
def copyOn (s : State) : State := showCopy (resumeRec (pump s))

/-- The capsule is durable (R479): the directory takes it. -/
def sealDone (c : Cap) (s : State) : State :=
  let w := s.claimed.length
  let n := s.dataPages c w
  let pages := (n - 1) / (256 * w) * (256 * w) +
    (List.range w).foldl (fun m i => m + (match padEnd n w i with | some d => d + 1 | none => 0)) 0
  let d : DirEnt :=
    { id := c.id, st := .durable, trig := c.trig, obj := c.trigObj, ttrig := c.ttrig, pages := pages, kfs := c.kfs
      gen := if s.sup.profSrc = 0 then none else some (s.reg 0x80010).toNat, groups := s.member.groups
      step := s.member.sysId.extractLsb' 0 8, lines := c.lines, proflen := 4 * s.chrys.prof.length
      start := c.blocks.getD 0 0, blocks := c.blocks }
  { s with chrys := { s.chrys with cap := none, dir := s.chrys.dir ++ [d] } }.emit .recDurable (.unit .chrys) [fn c.id, fn pages]

/-- PKIND of a page's tag. -/
def Page.kind (p : Page) : Nat := bits (p.get 4368) 0 8

/-- An operation of Chrysalis has ended in bank b (R479, R480). -/
def capOpDone (b : Nat) (o : RfOp) (fail : Bool) (s : State) : State :=
  let n := rfBlock b o.block
  match (if o.erase then s.chrys.erasing else []) with
  | (id, l) :: r =>
    if l.contains n then
      let l := l.filter (· ≠ n)
      if l = [] then { s with chrys := { s.chrys with erasing := r } }.emit .recErased (.unit .chrys) [fn id]
      else { s with chrys := { s.chrys with erasing := (id, l) :: r } }
    else s
  | [] =>
  match s.chrys.cap with
  | none => s
  | some c =>
    let i := (s.claimed.takeWhile (· ≠ b)).length
    let x := c.bank i
    if x.block ≠ some o.block then s
    else if o.erase then
      setCap (some (c.setBank i (if fail then { x with block := none } else { x with erased := true }))) s
    else if fail then
      let old := (List.range o.page).map fun p => sget {} s.rf.pages (rfKey b o.block p)
      let redo := old ++ (if x.redo = [] then [o.img] else x.redo)
      setCap (some { c.setBank i { stripe := x.stripe, redo := redo } with blocks := c.blocks.filter (· ≠ n) }) s
    else
      let c := c.setBank i { x with page := x.page + 1, redo := x.redo.tail }
      if o.img.kind = 3 then sealDone c s else setCap (some c) s

/-! ### Epochs (R462, R467, R475) -/

/-- Whether an epoch may run (R462). -/
def State.mayRecord (s : State) : Bool := s.flag 0x70000 0 && !s.fenced .chrys && !s.fenced .trail

/-- Freezes the previous epoch (R475): the trigger instant is its last record, and POST is 0. -/
def freezePrev (s : State) : State :=
  if s.flag 0x70F00 0 && s.flag 0x70008 8 then
    let t := s.startCapsule { kind := 8, obj := 0xFFFF, ts := s.chrys.lastTs, raw := s.chrys.lastAt }
    match t.chrys.cap with
    | some c => closeCap false (setCap (some { c with atReset := true }) t)
    | none => t
  else s

/-- Starts an epoch (R462, R467): its EPOCH record and a keyframe. DESIGN CHOICE: assumption 57. -/
def startEpoch (s : State) : State :=
  if !s.mayRecord then s else
    let c := s.chrys
    let kept := s.flag 0x70F00 0
    let part := decide (c.word ≠ 0)
    let line := if kept then (if part then (c.line + 1) % s.trailLines else c.line) else 0
    let t := { s with chrys := { c with run := true, epoch := c.epoch + 1, line := line, word := 0
                                        lseq := if part then c.lseq + 1 else c.lseq
                                        lastAt := s.clk.raw, lastTs := s.clk.ts, kfs := [], kfNum := 0, gapFrom := s.clk.raw } }
    let t := ((t.setReg 0x70020 (word (c.epoch + 1).toNat)).setReg 0x80104 (t.reg 0x70018)).setFlag aRecStat 7 false
    takeKeyframe (t.record 0x20 0 0 [t.reg 0x28, t.reg 0x24, t.member.sysId])

/-- Ends an epoch (R462): the span of a capsule ends with it. -/
def endEpoch (s : State) : State :=
  if s.chrys.run then
    let t := closeCap false s
    copyOn { t with chrys := { t.chrys with run := false } }
  else s

/-! ### The directory (R482) -/

/-- A tagged page as the scan reads it: number, index, kind, key. -/
structure TagRead where
  id   : Nat
  pidx : Nat
  kind : Nat
  key  : Nat
deriving DecidableEq, Repr

/-- The tags of the pages in the claimed banks. -/
def State.tags (s : State) : List TagRead :=
  s.rf.pages.filterMap fun (x : Nat × Page) =>
    let p := x.2
    if p.prog && decide (p.fill = .ones) && s.claimed.contains (x.1 / 16384) && decide (p.get 4369 = 0xFFFFFFFF) &&
       decide (1 ≤ p.kind) && decide (p.kind ≤ 3) then
      some { id := (p.get 4366).toNat, pidx := (p.get 4367).toNat, kind := p.kind, key := x.1 }
    else none

/-- A list without repeats. -/
def dedup : List Nat → List Nat
  | [] => []
  | a :: l => if l.contains a then dedup l else a :: dedup l

/-- The directory entry of a capsule number; bad lists the pages whose read is uncorrectable. -/
def State.dirEnt (s : State) (bad : List Nat) (id : Nat) : DirEnt :=
  let l := s.tags.filter fun t => decide (t.id = id)
  let blocks := dedup (l.map fun t => t.key / 256)
  let start := match l.find? fun t => decide (t.pidx = 0) with
    | some t => t.key / 256
    | none => blocks.getD 0 0
  match l.find? fun t => decide (t.kind = 3) && !bad.contains t.key && (sget {} s.rf.pages t.key).crcOk with
  | some t =>
    let p := sget {} s.rf.pages t.key
    let w7 := p.get 7
    { id := id, st := .durable, trig := bits w7 0 8, obj := w7.extractLsb' 16 16, ttrig := (p.get 9 ++ p.get 8 : BitVec 64)
      pages := l.length, kfs := (p.get 23).toNat, gen := if bit (p.get 19) 0 then none else some (p.get 20).toNat
      groups := bits (p.get 1) 16 8, step := (p.get 1).extractLsb' 24 8, lines := (p.get 18).toNat, proflen := (p.get 17).toNat
      start := start, blocks := blocks }
  | none => { id := id, st := .opened, pages := l.length, start := start, blocks := blocks }

/-- Scans the claimed banks: the directory, and the highest number found. -/
def scanDir (bad : List Nat) (s : State) : State :=
  let ids := dedup (s.tags.map (·.id))
  let dir := ids.map (s.dirEnt bad)
  let top := ids.foldl max (s.reg 0x70024).toNat
  let seals := s.tags.filter fun t => decide (t.kind = 3) && !bad.contains t.key
  let t := seals.foldl (fun u x => blockCheck x.key (sget {} s.rf.pages x.key).crcOk u) s
  { t.setReg 0x70024 (word top) with chrys := { t.chrys with dir := dir, scanned := true } }

/-- The durable capsules. -/
def State.durables (s : State) : Nat := (s.chrys.dir.filter fun d => decide (d.st ≠ .opened)).length

end Sys2Proof.Machine
end

