-- ==== Sys2Proof/Machine/PFlash.lean ====
section
/-!
DEFINITION. The profile flash (chapter 15): reads, the command sequencer, the operations of a bank and their ends, the
password, the seals of the slots, and the tally ladders. Addresses are offsets in the 4 MiB.
-/
namespace Sys2Proof.Machine

/-! ### Words (R400 to R407) -/

/-- The 64-bit word at an offset. -/
def State.pfWord (s : State) (a : Nat) : PWord := sget {} s.pf.words (a / 8)

/-- The state with the word at an offset replaced. -/
def setPfWord (a : Nat) (w : PWord) (s : State) : State :=
  { s with pf := { s.pf with words := sset {} s.pf.words (a / 8) w } }

/-- The operation in progress in a bank. -/
def State.pfOp (s : State) (b : Nat) : Option PfKind := sget none s.pf.ops b
/-- Whether a bank is busy. -/
def State.pfBusy (s : State) (b : Nat) : Bool := (s.pfOp b).isSome
/-- The sequencer of a bank. -/
def State.pfSeq (s : State) (b : Nat) : PfSeq := sget {} s.pf.seqs b
/-- Sets the operation of a bank. -/
def setPfOp (b : Nat) (k : Option PfKind) (s : State) : State := { s with pf := { s.pf with ops := sset none s.pf.ops b k } }
/-- Sets the sequencer of a bank. -/
def setPfSeq (b : Nat) (q : PfSeq) (s : State) : State := { s with pf := { s.pf with seqs := sset {} s.pf.seqs b q } }

/-- FLASHCTL.PSTAT of a bank. -/
def aPst (b : Nat) : Nat := 0x80000 + 4 * b
/-- The bank of an offset. -/
def pfBank (a : Nat) : Nat := a / 0x200000 % 2
/-- The password word of a configuration sector (R411). -/
def pwWord (b : Nat) : Nat := if b = 0 then 0x1FF000 else 0x3FB000
/-- The protection word of a group (R411). -/
def protWord (k : Nat) : Nat := (if k < 4 then 0x1FF010 else 0x3FB010) + 8 * (k % 4)
/-- The protection group of an offset (R400). -/
def protGroup (a : Nat) : Nat := a / 0x80000

/-- Whether a group is protected (R411). -/
def State.isProtected (s : State) (k : Nat) : Bool := s.pwSet && (s.pfWord (protWord k)).f1
/-- Whether a target is guarded now: protected, and the session closed (R415). -/
def State.guarded (s : State) (a : Nat) : Bool := s.isProtected (protGroup a) && !s.session

/-- Whether an offset lies where no program or sector erase goes (R416): the factory area, a configuration sector, a ladder
sector. -/
def pfFixed (a : Nat) : Bool :=
  decide (0x3FB000 ≤ a) || (decide (0x1FF000 ≤ a) && decide (a < 0x200000)) ||
  (decide (0x100000 ≤ a) && decide (a < 0x180000)) || (decide (0x300000 ≤ a) && decide (a < 0x380000))

/-- A read of the word at an offset (R403, R406, 15.3.1): the password words read 0, a corrected word sets ECCCOR, an
uncorrectable one is returned uncorrected, sets ECCBAD and LASTADDR and queues PFLASH_ECC. -/
def pfRead (a : Nat) (s : State) : BitVec 64 × State :=
  let a := a / 8 * 8
  let w := s.pfWord a
  if a = pwWord 0 ∨ a = pwWord 1 then (0, s)
  else if !w.f1 then (w.data, s)
  else match w.ecc with
    | .ok => (w.data, s)
    | .corrected => (w.data, s.setFlag (aPst (pfBank a)) 12 true)
    | .bad =>
      let t := (s.setFlag (aPst (pfBank a)) 13 true).setReg 0x8000C (word (0x80000000 + a))
      (w.data, t.emit .pflashEcc (.unit .pflash) [{ val := .hex (word (0x80000000 + a)) }])

/-- Whether a word reads correctable: it has a field, and that says so. -/
def PWord.readable (w : PWord) : Bool := w.f1 && decide (w.ecc ≠ .bad)

/-! ### Results (R431) -/

/-- The results by their code. DEDUCED: assumption 61. -/
def pfResult : Nat → String
  | 0 => "done" | 1 => "prog_3rd" | 2 => "prog_rise" | 3 => "bod_abort" | 4 => "protected" | 5 => "seqerr" | 6 => "range"
  | 7 => "pwwrong" | 8 => "pwlock" | 9 => "pwset" | 10 => "pwbad" | _ => "protnopw"

/-- Records a result in a bank: ERR and DONE, and the FLASHDONE record (Table 17.1). -/
def pfEnd (b code : Nat) (s : State) : State :=
  ((s.setFld (aPst b) 8 4 code).setFlag (aPst b) 4 true).record 0x09 b code []

/-- The line that waits for the operation of a bank. -/
def State.pfWho (s : State) (b : Nat) : Option Line := sget none s.pf.who b

/-- Makes a line wait for the operation of a bank, or none. -/
def setPfWho (b : Nat) (l : Option Line) (s : State) : State := { s with pf := { s.pf with who := sset none s.pf.who b l } }

/-- Answers the line that waits for a bank. -/
def pfAnswer (b : Nat) (r : Resp) (s : State) : State :=
  match s.pfWho b with
  | none => s
  | some ln => finishLine ln r (setPfWho b none s)

/-- The result of a form. -/
def resultResp (code : Nat) : Resp := .vals [kw "result" (pfResult code)]

/-- Ends the operation of a bank with a result, and answers the line that waits. -/
def pfFinish (b code : Nat) (s : State) : State := pfAnswer b (resultResp code) (pfEnd b code (setPfOp b none s))

/-! ### Programs and erases (R406, R407, R415 to R417) -/

/-- The result that a program of a word would end with before any pulse (R406, R407): 0 where it programs. -/
def progCode (w : PWord) (v : BitVec 64) : Nat :=
  if w.f1 && w.f2 then 1 else if v &&& ~~~w.data ≠ 0 then 2 else 0

/-- The word after a program. -/
def PWord.programmed (w : PWord) (v : BitVec 64) : PWord := { data := v, f1 := true, f2 := w.f1, ecc := .ok }

/-- Programs a word, where nothing refuses it. -/
def pfProgram (a : Nat) (v : BitVec 64) (s : State) : Nat × State :=
  let w := s.pfWord a
  let c := progCode w v
  (c, if c = 0 then setPfWord a (w.programmed v) s else s)

/-- Starts an operation in a bank, or ends it at once with a result that issues no pulse. -/
def pfStart (b code : Nat) (k : PfKind) (s : State) : State :=
  if code = 0 then setPfOp b (some k) s else pfFinish b code s

/-- Starts a program of a word. -/
def pfStartProgram (a : Nat) (v : BitVec 64) (s : State) : State :=
  pfStart (pfBank a) (if pfFixed a then 6 else if s.guarded a then 4 else progCode (s.pfWord a) v) (.program a v) s

/-- Starts an erase of a sector. -/
def pfStartErase (a : Nat) (s : State) : State :=
  pfStart (pfBank a) (if pfFixed a then 6 else if s.guarded a then 4 else 0) (.eraseSector (a / 4096 * 4096) [] false) s

/-- Starts a set password (R412): both banks are busy for its duration. b is the bank it was sent to. -/
def pfStartPassword (b : Nat) (v : BitVec 64) (s : State) : State :=
  if s.pwSet then pfFinish b 9 s
  else if v = 0xFFFFFFFFFFFFFFFF then pfFinish b 10 s
  else setPfOp 0 (some (.setPw v)) (setPfOp 1 (some (.setPw v)) s)

/-- Starts a protect group (R414). -/
def pfStartProtect (k : Nat) (s : State) : State :=
  pfStart (k / 4) (if !s.pwSet then 11 else progCode (s.pfWord (protWord k)) 0) (.protect k) s

/-- Words of an offset range removed: the range reads as erased. -/
def eraseWords (lo hi : Nat) (m : Sparse PWord) : Sparse PWord := m.filter fun (c : Nat × PWord) => !(lo ≤ 8 * c.1 && 8 * c.1 < hi)

/-! ### The password (R135, R136, R412, R413) -/

/-- Whether a value is the password: the CFG0 copy where it reads correctable, else the CFG1 copy. -/
def State.pwMatches (s : State) (v : BitVec 64) : Bool :=
  let w0 := s.pfWord (pwWord 0)
  let w1 := s.pfWord (pwWord 1)
  if w0.readable then decide (w0.data = v) else w1.readable && decide (w1.data = v)

/-- The code of an entry point in an UNLOCK mark. -/
def epCode : Ep → Nat
  | .cp0 => 0 | .cp1 => 1 | .mail => 2

/-- Compares a password (R136, R413): 0 opens the session, 7 is a wrong password, 8 the lockout, which compares nothing. With
no password set nothing is counted. The UNLOCK mark carries the outcome (Table 17.2). -/
def tryPassword (e : Ep) (v : BitVec 64) (s : State) : Nat × State :=
  let r : Nat × State :=
    if 3 ≤ s.pwFails then (8, s)
    else if !s.pwSet then (7, s)
    else if s.pwMatches v then (0, { s with pwFails := 0, session := true })
    else (7, { s with pwFails := s.pwFails + 1 })
  (r.1, r.2.record 0x2B 0 0 [word (epCode e), word r.1])

/-! ### The sequencer (R404) -/

/-- Abandons a sequence: SEQERR. -/
def seqAbandon (b : Nat) (s : State) : State := (setPfSeq b {} s).setFld (aPst b) 8 4 5

/-- A write into a bank that is not busy (Tables 15.2, 15.3): off is the offset in the 4 MiB. -/
def pfWrite (e : Ep) (off : Nat) (v : Word) (s : State) : State :=
  let b := pfBank off
  let o := off % 0x200000
  let lo := bits v 0 8
  let q := s.pfSeq b
  let idle (t : State) : State := setPfSeq b {} t
  match q.step with
  | 0 => if o = 0xA48 ∧ lo = 0x4F then setPfSeq b { step := 1 } s else s
  | 1 => if o = 0x152C ∧ lo = 0xB0 then setPfSeq b { step := 2 } s else seqAbandon b s
  | 2 =>
    if o ≠ 0xA48 then seqAbandon b s
    else if lo = 0x90 then (idle s).setFld (aPst b) 8 4 0 |>.setFlag (aPst b) 4 false
    else if lo = 0x30 ∨ lo = 0x21 ∨ lo = 0x2E ∨ lo = 0x70 ∨ lo = 0x7C ∨ lo = 0x64 then setPfSeq b { step := 3, cmd := lo } s
    else seqAbandon b s
  | _ =>
    match q.cmd with
    | 0x30 =>
      match q.low with
      | none => if off % 8 = 0 then setPfSeq b { q with addr := off, low := some v } s else seqAbandon b s
      | some l => if off = q.addr + 4 then pfStartProgram q.addr (v ++ l) (idle s) else seqAbandon b s
    | 0x21 => if lo = 0x21 then pfStartErase off (idle s) else seqAbandon b s
    | 0x2E => if lo = 0x2E ∧ o = 0 then setPfOp b (some (.eraseBank false)) (idle s) else seqAbandon b s
    | 0x64 => if o = 0xA48 ∧ lo < 4 then pfStartProtect (4 * b + lo) (idle s) else seqAbandon b s
    | c =>
      if o ≠ 0xA48 then seqAbandon b s
      else match q.low with
        | none => setPfSeq b { q with low := some v } s
        | some l =>
          if c = 0x70 then
            let r := tryPassword e (v ++ l) (idle s)
            pfEnd b r.1 r.2
          else pfStartPassword b (v ++ l) (idle s)

/-- Whether a write into a bank would start a set password while the other bank is busy. -/
def State.pwBlocked (s : State) (off : Nat) : Bool :=
  let q := s.pfSeq (pfBank off)
  decide (q.step = 3) && decide (q.cmd = 0x7C) && q.low.isSome && s.pfBusy (1 - pfBank off)

/-- Whether a write into a bank carries a word of a password (R464). -/
def State.pwSecret (s : State) (off : Nat) : Bool :=
  let q := s.pfSeq (pfBank off)
  decide (q.step = 3) && (decide (q.cmd = 0x70) || decide (q.cmd = 0x7C))

/-! ### The slots (R418 to R420) -/

/-- The offset of a slot. -/
def slotA (slot : Nat) : Nat := if slot = 0 then 0 else 0x200000

/-- A word's eight bytes, least significant first. -/
def bytes64 (v : BitVec 64) : List Byte := (List.range 8).map fun i => v.extractLsb' (8 * i) 8

/-- SCRC computed over a slot (R419). -/
def State.slotCrc (s : State) (slot : Nat) : BitVec 16 :=
  BitVec.ofNat 16 (crc16 ((List.range 0x7FFF).flatMap fun i => bytes64 (s.pfWord (slotA slot + 8 * i)).data))

/-- The uncorrectable words of a slot. -/
def State.slotBad (s : State) (slot : Nat) : List Nat :=
  (s.pf.words.filter fun (c : Nat × PWord) => decide (slotA slot ≤ 8 * c.1) && decide (8 * c.1 < slotA slot + 0x3FFF8) &&
    c.2.f1 && decide (c.2.ecc = .bad)).map fun c => 8 * c.1

/-- Reads a slot for its CRC by a prof form: the uncorrectable words met are reported (R432). -/
def readSlot (slot : Nat) (s : State) : State := (s.slotBad slot).foldl (fun t a => (pfRead a t).2) s

/-- Whether a slot is sealed. -/
def State.sealed (s : State) (slot : Nat) : Bool := (s.pfWord (sealA slot)).f1
/-- The generation of a slot's seal. -/
def State.slotGen (s : State) (slot : Nat) : Nat := (~~~((s.pfWord (sealA slot)).data.extractLsb' 0 32)).toNat
/-- LIVE of a slot's seal. -/
def State.slotLive (s : State) (slot : Nat) : BitVec 16 := (s.pfWord (sealA slot)).data.extractLsb' 48 16
/-- Whether the seal check of a slot passes (R418). -/
def State.sealOk (s : State) (slot : Nat) : Bool :=
  s.sealed slot && (s.pfWord (sealA slot)).readable && decide (s.slotBad slot = []) &&
  decide ((s.pfWord (sealA slot)).data.extractLsb' 32 16 = s.slotCrc slot)

/-- The values behind a record header (R420). -/
def State.recValues (s : State) (a count : Nat) : List Word :=
  (List.range count).map fun i => (s.pfWord (a + 8 * (i / 2))).data.extractLsb' (32 * (i % 2)) 32

/-- The records of a slot from an offset (R420): addresses with their values; none where a record breaks its form or no end
record stands before the seal. -/
def State.parseRecords (s : State) (slot : Nat) : Nat → Nat → Option (List (Nat × List Word))
  | 0, _ => none
  | fuel + 1, off =>
    if 0x3FFF8 ≤ off then none else
      let h := (s.pfWord (slotA slot + off)).data
      let kind := h.extractLsb' 48 8
      let count := (h.extractLsb' 32 16).toNat
      let addr := (h.extractLsb' 0 32).toNat
      if h = 0x00E0000000000000 then some []
      else if kind = 0x5C ∧ 1 ≤ count ∧ count ≤ 32768 ∧ addr % 4 = 0 ∧ off + 8 + 8 * ceilDiv count 2 ≤ 0x3FFF8 then
        match s.parseRecords slot fuel (off + 8 + 8 * ceilDiv count 2) with
        | some l => some ((addr, s.recValues (slotA slot + off + 8) count) :: l)
        | none => none
      else none

/-- The records of a slot. -/
def State.records (s : State) (slot : Nat) : Option (List (Nat × List Word)) := s.parseRecords slot 0x8000 0

/-! ### Tally ladders (R424 to R429) -/

/-- The offset of pair p of a ladder's sector. -/
def pairA (n sector p : Nat) : Nat := (if sector = 0 then 0x100000 else 0x300000) + 0x1000 * n + 0x10 * p

/-- Whether s1 is newer than s2 (R426). -/
def newer (s1 s2 : BitVec 16) : Bool := decide (1 ≤ (s1 - s2).toNat) && decide ((s1 - s2).toNat ≤ 32767)

/-- The committed snapshot of a pair (R426): SEQ and count. -/
def State.committed (s : State) (a : Nat) : Option (BitVec 16 × BitVec 64) :=
  let x := s.pfWord a
  let y := s.pfWord (a + 8)
  let seq := x.data.extractLsb' 32 16
  if x.readable && x.f2 && !x.data.getLsbD 48 && y.readable && decide (y.data.extractLsb' 32 16 = seq) &&
     decide (y.data.extractLsb' 48 16 = ~~~seq) then
    some (seq, (y.data.extractLsb' 0 32 ++ x.data.extractLsb' 0 32 : BitVec 64))
  else none

/-- The offsets of the A words of a ladder's sector that are not erased. -/
def State.usedPairs (s : State) (n sector : Nat) : List Nat :=
  (s.pf.words.filter fun (c : Nat × PWord) => decide (pairA n sector 0 ≤ 8 * c.1) &&
    decide (8 * c.1 < pairA n sector 256) && decide (c.1 % 2 = 0)).map fun c => 8 * c.1

/-- The first pair from p on whose B word is erased (R427). -/
def State.freePair (s : State) (n sector : Nat) : Nat → Nat → Nat
  | 0, p => p
  | fuel + 1, p =>
    if p < 256 ∧ s.pfWord (pairA n sector p + 8) ≠ {} then s.freePair n sector fuel (p + 1) else p

/-- The next free pair of a sector: behind its last used pair. -/
def State.nextPair (s : State) (n sector : Nat) : Nat :=
  let l := (s.usedPairs n sector).map fun a => (a - pairA n sector 0) / 16 + 1
  s.freePair n sector 256 (l.foldl max 0)

/-- The newest committed snapshot of a sector. -/
def State.newestIn (s : State) (n sector : Nat) : Option (BitVec 16 × BitVec 64) :=
  ((s.usedPairs n sector).filterMap s.committed).foldl (fun m x =>
    match m with
    | none => some x
    | some y => if newer x.1 y.1 then some x else some y) none

/-- The index entry of a ladder as S5 finds it (R429). -/
def State.scanLadder (s : State) (n : Nat) : Ladder :=
  let a := s.newestIn n 0
  let b := s.newestIn n 1
  let one := match a, b with
    | some x, some y => newer y.1 x.1
    | none, some _ => true
    | _, none => false
  let sector := if one then 1 else 0
  { value := if one then b else a, sector := sector, next := s.nextPair n sector }

/-- The index entry of a ladder. -/
def State.ladder (s : State) (n : Nat) : Ladder := sget {} s.pf.index n
/-- Sets the index entry of a ladder. -/
def setLadder (n : Nat) (l : Ladder) (s : State) : State := { s with pf := { s.pf with index := sset {} s.pf.index n l } }

/-- A bank erase clears the index entries concerned, those whose active sector lies in the bank (R429): a ladder that holds none has
sector 0 active. DEDUCED: assumption 62. -/
def clearIndex (b : Nat) (s : State) : State :=
  forAll s.chans (fun n t =>
    if (t.ladder n).sector = b then setLadder n { value := none, sector := 0, next := t.nextPair n 0 } t else t) s

/-- A snapshot fails (R188). -/
def tallyFail (n : Nat) (s : State) : State :=
  let t := setLadder n { s.ladder n with failed := true } s
  let t := if isDi (t.mode n) then t.setFlag (aStat n) 20 true else t
  t.emit .tallyFail (.ch n) []

/-- The A word of a snapshot (Table 15.5). -/
def snapA (v : BitVec 64) (seq : BitVec 16) (opn : Bool) : BitVec 64 :=
  ((0x7FFF : BitVec 15) ++ BitVec.ofBool opn ++ seq ++ v.extractLsb' 0 32 : BitVec 64)

/-- The B word of a snapshot (Table 15.5). -/
def snapB (v : BitVec 64) (seq : BitVec 16) : BitVec 64 := (~~~seq ++ seq ++ v.extractLsb' 32 32 : BitVec 64)

/-- The three programs of a snapshot (R425), up to the first that fails. -/
def writeSnap (a : Nat) (v : BitVec 64) (seq : BitVec 16) (s : State) : Nat × State :=
  let r1 := pfProgram a (snapA v seq true) s
  if r1.1 ≠ 0 then r1 else
    let r2 := pfProgram (a + 8) (snapB v seq) r1.2
    if r2.1 ≠ 0 then r2 else pfProgram a (snapA v seq false) r2.2

end Sys2Proof.Machine
end

