-- ==== Sys2Proof/Machine/RegMap.lean ====
section
/-!
DEFINITION. The register map of chapter 19: which addresses hold a register on the PLY-G8 and with which access code, and
which of them are absent on a smaller member.
-/
namespace Sys2Proof.Machine

/-- What a write meets (Table 0.2): only RO fields, only RO and W1C fields, RW or WO fields, RWS of a controller or of
both, RWA; a register set that the stored mode does not select; the sequencer of a profile bank; the trail. -/
inductive Acc where
  | ro | w1c | rw | wo | rws (c : Nat) | rwsAll | rwa | ignored | seq | trail
deriving DecidableEq, Repr

/-- The SYS, CLK, CMD, SAFE and CVU blocks (Tables 19.3 to 19.6). -/
def sysAcc (a : Nat) : Option Acc :=
  if a ≤ 0x10 ∨ a = 0x20 ∨ a = 0x24 ∨ a = 0x30 ∨ a = 0x34 then some .ro
  else if a = 0x28 ∨ a = 0x2C then some .w1c
  else if 0x40 ≤ a ∧ a < 0x60 then some .ro
  else if a = 0x10000 then some .w1c
  else if a = 0x10004 ∨ a = 0x10008 ∨ a = 0x1000C ∨ a = 0x10014 then some .ro
  else if a = 0x10010 ∨ a = 0x10018 then some .rw
  else if a = 0x20000 ∨ a = 0x20010 ∨ a = 0x20030 then some .rw
  else if a = 0x20004 ∨ a = 0x20014 ∨ a = 0x20020 then some .w1c
  else if a = 0x20034 ∨ a = 0x20040 then some .ro
  else if a = 0x30000 ∨ a = 0x30004 then some .ro
  else if a = 0x30008 then some .wo
  else if 0x30010 ≤ a ∧ a < 0x30030 then some .ro
  else if 0x30040 ≤ a ∧ a < 0x30050 then some .rw
  else if (0x30100 ≤ a ∧ a < 0x30500) then some .ro
  else if 0x40000 ≤ a ∧ a < 0x40070 then some (if a % 16 = 4 ∨ a % 16 = 8 then .rw else .ro)
  else none

/-- A register of controller c (Table 19.7). -/
def ringAcc (c o : Nat) : Option Acc :=
  if o = 4 ∨ o = 0x34 then some .wo
  else if o = 8 ∨ o = 0xC ∨ o = 0x10 ∨ o = 0x14 ∨ o = 0x40 then some (.rws c)
  else if o = 0x2C then some .w1c
  else if o = 0x48 then some .rw
  else if o ≤ 0x30 ∨ o = 0x44 ∨ o = 0x4C ∨ o = 0x50 then some .ro
  else if 0x80 ≤ o ∧ o < 0xC0 then
    let q := o % 0x20
    if q = 0 ∨ q = 0x10 then some .ro else if q ≤ 0xC then some .rw else none
  else none

/-- The RING, SKIP, REC and FLASHCTL blocks (Tables 19.7 to 19.10). -/
def blockAcc (a : Nat) : Option Acc :=
  if 0x50000 ≤ a ∧ a < 0x50200 then ringAcc (a / 0x100 % 2) (a % 0x100)
  else if 0x50800 ≤ a ∧ a < 0x50C00 then some .rwa
  else if a = 0x60000 ∨ a = 0x6000C ∨ a = 0x60010 then some .ro
  else if a = 0x60004 ∨ a = 0x60008 then some .rw
  else if 0x60100 ≤ a ∧ a < 0x60500 then
    let q := a % 0x20
    if q ≤ 8 then some .rwa else if q = 0xC then some .w1c else if q ≤ 0x18 then some .rw else none
  else if a = 0x70004 ∨ (0x7001C ≤ a ∧ a ≤ 0x70028) ∨ (0x70030 ≤ a ∧ a ≤ 0x70048) then some .ro
  else if 0x70000 ≤ a ∧ a ≤ 0x70018 then some .rw
  else if a = 0x70F0C ∨ a = 0x70F10 then some .rw
  else if 0x70F00 ≤ a ∧ a ≤ 0x70F14 then some .ro
  else if a = 0x80000 ∨ a = 0x80004 then some .w1c
  else if 0x80008 ≤ a ∧ a ≤ 0x80014 then some .ro
  else if a = 0x80100 ∨ a = 0x80110 then some .rw
  else if a = 0x80114 then some .wo
  else if 0x80104 ≤ a ∧ a ≤ 0x8010C then some .ro
  else if 0x80120 ≤ a ∧ a < 0x80140 then some .w1c
  else if 0x80400 ≤ a ∧ a < 0x80C00 then some .ro
  else if 0x88000 ≤ a ∧ a < 0x8C800 then some .rw
  else none

/-- A register of a group (Tables 19.11, 19.13). -/
def grpAcc (o : Nat) : Option Acc :=
  if o = 0 ∨ o = 8 ∨ o = 0xC ∨ o = 0x10 ∨ o = 0x50 then some .ro
  else if o = 4 ∨ o = 0x40 ∨ o = 0x44 ∨ o = 0x4C ∨ o = 0x54 then some .rw
  else if o = 0x48 ∨ o = 0x58 then some .w1c
  else if 0x100 ≤ o ∧ o < 0x1A0 then some .ro
  else none

/-- A register of the set that a mode selects (R530, Tables 19.12, 19.13). -/
def setAcc (m o : Nat) : Acc :=
  if m = 1 ∨ m = 2 then (if o = 0x50 ∨ o = 0x54 ∨ o = 0x58 then .ro else .rw)
  else if m = 3 then
    (if o = 0x40 ∨ o = 0x44 then .rwa else if o = 0x48 ∨ o = 0x54 then .rw else if o = 0x4C ∨ o = 0x50 then .ro
     else if o = 0x58 then .wo else .ignored)
  else if 5 ≤ m ∧ m ≤ 7 then (if o = 0x40 then .rwa else if o = 0x44 then .rw else if o ≤ 0x58 then .ro else .ignored)
  else if m = 8 ∨ m = 9 then (if o ≤ 0x44 then .rwa else if o ≤ 0x50 then .ro else .ignored)
  else .ignored

/-- A conversion register (Table 19.13). -/
def convAcc (m o : Nat) : Acc :=
  let ai := decide (5 ≤ m) && decide (m ≤ 7)
  if o = 0x80 then (if decide (5 ≤ m) && decide (m ≤ 9) then .rw else .ignored)
  else if o = 0x84 then (if decide (5 ≤ m) && decide (m ≤ 9) then .ro else .ignored)
  else if !ai then .ignored
  else if o = 0x88 then .rwa
  else if o = 0x98 then .w1c
  else .rw

/-- A register of a channel with stored mode m (Tables 19.12, 19.13). -/
def chanAcc (m o : Nat) : Option Acc :=
  if o = 0 ∨ o = 4 ∨ o = 8 then some .rwa
  else if o = 0xC then some .rw
  else if o = 0x10 then some .ro
  else if o = 0x14 then some .w1c
  else if 0x40 ≤ o ∧ o ≤ 0x64 then some (setAcc m o)
  else if 0x80 ≤ o ∧ o ≤ 0x98 then some (convAcc m o)
  else none

/-- The SRAM shadows and buffers (Table 19.14). -/
def shadowAcc (a : Nat) : Option Acc :=
  if 0x40002000 ≤ a ∧ a < 0x40002040 then some .rwa
  else if 0x40010000 ≤ a ∧ a < 0x40020000 then some (.rws (a / 0x8000 % 2))
  else if 0x40020000 ≤ a ∧ a < 0x40028000 then some (.rws (a / 0x4000 % 2))
  else if 0x40028000 ≤ a ∧ a < 0x40028800 then some (.rws (a / 0x400 % 2))
  else if 0x4002A000 ≤ a ∧ a < 0x4002A840 then some .rwsAll
  else if 0x4002C000 ≤ a ∧ a < 0x40030000 then (if a % 0x20 ≤ 0x10 then some (.rws (a / 0x2000 % 2)) else none)
  else if 0x40030000 ≤ a ∧ a < 0x40038000 then some .rw
  else if 0x40040000 ≤ a ∧ a < 0x40060000 then some .ro
  else if 0x40060000 ≤ a ∧ a < 0x40062000 then some .ro
  else none

/-- The size of the trail die (Table 1.3): the recording area and the test region of 1 MiB (R454). -/
def Member.dieSize (m : Member) : Nat := m.trailSize + 0x100000

/-- The channel of a channel register's address, and the offset. -/
def chanOf (a : Nat) : Nat × Nat := (16 * (a / 0x1000000 % 16) + a / 0x1000 % 16, a % 0x1000)

/-- The access code of the register at an address that is a multiple of 4; none where the register space holds nothing
(R524). -/
def State.access (s : State) (a : Nat) : Option Acc :=
  if a < 0x50000 then sysAcc a
  else if a < 0x10000000 then blockAcc a
  else if a < 0x18000000 then
    let o := a % 0x1000000
    if o < 0x10000 then chanAcc (s.mode (chanOf a).1) (chanOf a).2
    else if 0x100000 ≤ o then grpAcc (o - 0x100000)
    else none
  else if a < 0x80000000 then shadowAcc a
  else if a < 0x80400000 then some .seq
  else if 0xC0000000 ≤ a ∧ a < 0xC0000000 + s.member.dieSize then some .trail
  else none

/-- Whether the register at an address belongs to something the member lacks (R525). -/
def Member.lacks (m : Member) (a : Nat) : Bool :=
  let one := decide (m.rings = 1)
  if 0x40 ≤ a ∧ a < 0x60 then decide (m.groups ≤ (a - 0x40) / 4)
  else if 0x30010 ≤ a ∧ a < 0x30030 then decide (m.groups ≤ (a - 0x30010) / 4)
  else if 0x30040 ≤ a ∧ a < 0x30050 then decide (m.channels ≤ 32 * ((a - 0x30040) / 4))
  else if 0x30100 ≤ a ∧ a < 0x30300 then decide (m.channels ≤ (a - 0x30100) / 4)
  else if 0x30300 ≤ a ∧ a < 0x30500 then decide (m.channels ≤ (a - 0x30300) / 4)
  else if 0x40020 ≤ a ∧ a < 0x40040 then one
  else if 0x50100 ≤ a ∧ a < 0x50200 then one
  else if 0x50800 ≤ a ∧ a < 0x50C00 then decide (m.channels ≤ (a - 0x50800) / 8)
  else if 0x60100 ≤ a ∧ a < 0x60500 then decide (m.reflexes ≤ (a - 0x60100) / 0x20)
  else if 0x80120 ≤ a ∧ a < 0x80140 then decide (m.banks ≤ (a - 0x80120) / 4)
  else if 0x80400 ≤ a ∧ a < 0x80C00 then decide (64 * m.banks ≤ (a - 0x80400) / 4)
  else if 0x10000000 ≤ a ∧ a < 0x18000000 then decide (m.groups ≤ a / 0x1000000 % 16)
  else if 0x4002A000 ≤ a ∧ a < 0x4002A800 then one
  else one && ((decide (0x40018000 ≤ a) && decide (a < 0x40020000)) || (decide (0x40024000 ≤ a) && decide (a < 0x40028000)) ||
    (decide (0x40028400 ≤ a) && decide (a < 0x40028800)) || (decide (0x4002E000 ≤ a) && decide (a < 0x40030000)) ||
    (decide (0x40034000 ≤ a) && decide (a < 0x40038000)) || (decide (0x40050000 ≤ a) && decide (a < 0x40060000)) ||
    (decide (0x40061000 ≤ a) && decide (a < 0x40062000)))

/-- The condition of R7 on a write. -/
def State.accBlocked (s : State) : Acc → Option Code
  | .rws c => if s.fld (rgA c 0) 0 4 ≠ 0 ∧ s.fld (rgA c 0) 0 4 ≠ 5 then some .notstopped else none
  | .rwsAll => if (List.range s.member.rings).any fun c => decide (s.fld (rgA c 0) 0 4 ≠ 0) && decide (s.fld (rgA c 0) 0 4 ≠ 5)
      then some .notstopped else none
  | .rwa => if s.sup.armed then some .armed else none
  | _ => none

/-- Whether an address is a multiple of 4. -/
def aligned (a : Nat) : Bool := decide (a % 4 = 0)

end Sys2Proof.Machine
end

