-- ==== Sys2Proof/Machine/RingRounds.lean ====
section
/-!
DEFINITION. Ringlet I (chapter 12): marks, frames, slots, MAIL, and the ring and bind commands.
-/
namespace Sys2Proof.Machine

/-! ### Marks (R328 to R331, R350) -/

/-- The ROUND frame that a controller sends (R324, R358). -/
def State.roundFrame (s : State) (c : Nat) (stop : Bool) (no : Word) (seq : Nat) : TxFrame :=
  let back := decide (s.role c ≠ 1)
  { slot := 0, kind := 1, source := { seg := s.seg c, pos := 0 }, len := 6, age := 0, seq := seq
    cells := halves s.clk.ts ++
      [word (s.period c + stop.toNat * 2 ^ 24 + back.toNat * 2 ^ 25 + (if back then s.rank c else 0) * 2 ^ 26),
       s.reg (rgA c 0x18), no, word (s.fld (rgA c 0x20) 0 24)] }

/-- Sends a mark and its ROUND frame (R324, R328, R331): ROUNDNO rises by 1, a stop that waits is announced. -/
def sendMark (c : Nat) (s : State) : State :=
  let a := s.rg c
  let x := sget {} a.slots 0
  let seq := (x.seq + 1) % 256
  let f := s.roundFrame c (decide (a.stop = 1)) (a.round + 1) seq
  ringSend c f ((s.setReg (rgA c 0x1C) (a.round + 1)).setRg c { a with
    round := a.round + 1, mute := false, stop := if a.stop = 1 then 2 else a.stop
    slots := sset {} a.slots 0 { x with seq := seq } })

/-- ROUND_MARK_SEND (R328): N line-clock cycles have passed since the last mark. -/
def execRoundMarkSend (c : Nat) (e : RoundEnd) (s : State) : Host.Outcome State Fault Refusal :=
  done (if s.ringRuns c && decide (s.ringSt c = 4) && s.sendsMarks c && decide ((s.rg c).stop ≠ 2) then
    sendMark c (ageBad c 1 (roundEnd c e s))
  else s)

/-- Whether a controller follows marks: JOIN or RUN, and it sends none itself. -/
def State.follows (s : State) (c : Nat) : Bool :=
  s.ringRuns c && (decide (s.ringSt c = 3) || decide (s.ringSt c = 4)) && !s.sendsMarks c && decide ((s.rg c).stop ≠ 2)

/-- Anchors a round at the arrival of a mark (R328): L, N_meas and the local timestamp are kept. -/
def anchor (c : Nat) (s : State) : State :=
  let a := s.rg c
  let n := match a.markAt with
    | some x => (s.clk.raw - x) / (if s.long c then 16 else 4)
    | none => a.meas
  let t := s.setRg c { a with meas := n, markAt := some s.clk.raw, markTs := s.clk.ts, mute := false, round := a.round + 1 }
  let t := (t.setReg (rgA c 0x24) (s.clk.ts.extractLsb' 0 32)).setReg (rgA c 0x28) (s.clk.ts.extractLsb' 32 32)
  t.setFld (rgA c 0x44) 8 2 0

/-- What counts accepted marks in RUN (R274, R345): a sync is requested, RING_ROUND is queued. -/
def countMark (c : Nat) (s : State) : State :=
  let k := (s.rg c).marks + 1
  let t := s.setRg c { s.rg c with marks := k }
  let gs := t.groups.filter fun g =>
    decide (t.fld (grA g 0x40) 1 2 = c + 1) && decide (k % (max 1 (t.fld (grA g 0x40) 16 16)) = 0)
  let t := requestSync (maskOf gs) t
  if t.flag (rgA c 8) 1 && decide (k % (max 1 (t.fld (rgA c 8) 16 16)) = 0) then
    t.emit .ringRound (.unit (ringUn c)) [{ val := .un (ringUn c) }, fn (t.rg c).round.toNat]
  else t

/-- ROUND_MARK_ACCEPT (R328, R349): the mark anchors the round; in JOIN, the first mark after a full round with the position
fixed moves the controller to RUN. DEDUCED: assumption 64. -/
def execRoundMarkAccept (c : Nat) (e : RoundEnd) (s : State) : Host.Outcome State Fault Refusal :=
  done (if s.follows c then
    if s.ringSt c = 4 then countMark c (ageBad c 1 (anchor c (roundEnd c e s)))
    else
      let t := anchor c s
      let a := t.rg c
      if a.fixed && !t.flag (rgA c 0x2C) 0 then
        if a.begun then joinRun c t else t.setRg c { a with begun := true }
      else t
  else s)

/-- MARK_MISSED (R350, R330, R380): the round is invalid, nothing is sent, every RX DATA slot is missed; the fourth in a row
moves the follower to LOST. -/
def execMarkMissed (c port : Nat) (nonIdle : Bool) (e : RoundEnd) (s : State) : Host.Outcome State Fault Refusal :=
  done (if s.follows c && decide (s.ringSt c = 4) then
    let t := roundEnd c e s
    let t := if nonIdle && decide (port < 2) then bumpPort c port 8 16 t else t
    let t := t.setRg c { t.rg c with mute := true, round := (t.rg c).round + 1 }
    let t := ageBad c 1 (forAll (t.rxData c) (ageSlot c 1) t)
    let k := t.fld (rgA c 0x44) 8 2
    if k < 3 then t.setFld (rgA c 0x44) 8 2 (k + 1)
    else
      let t := ringTo c 7 t
      let t := t.setRg c { t.rg c with cands := 0, bkWait := false }
      t.emit .markLoss (.unit (ringUn c)) []
  else s)

/-- RINGDLY_MEASURE (R329): the mark is back after t bit times. -/
def execRingdlyMeasure (c t : Nat) (s : State) : Host.Outcome State Fault Refusal :=
  done (if s.ringRuns c && decide (s.ringSt c = 4) && s.sendsMarks c then s.setFld (rgA c 0x20) 0 24 (t + 16) else s)

/-- RING_STOPPED (R331): the round in which the stop took effect has ended. -/
def execRingStopped (c : Nat) (s : State) : Host.Outcome State Fault Refusal :=
  done (if s.ringRuns c && (decide (s.ringSt c = 3) || decide (s.ringSt c = 4)) && decide ((s.rg c).stop = 2) then
    (ringStopped c s).emit .ringStopped (.unit (ringUn c)) [{ val := .un (ringUn c) }]
  else s)

/-! ### Frames (R330, R337, R380, R389) -/

/-- What the receive engine does with a frame (R389, R397, R463): the check is counted, the frame is recorded, and in RUN a
failure is counted at the port. -/
def checkFrame (c : Nat) (f : Frame) (s : State) : State :=
  let k := 2 * c + f.port
  let t := cvuCount k (frameOk f) s
  let t := t.record 0x03 k ((hchkOk f).toNat + 2 * (frameOk f).toNat) (bytesWords (f.header ++ [f.hchk] ++ msbBytes f.cells))
  if t.ringSt c = 4 then
    if !hchkOk f then bumpPort c f.port 4 16 t
    else if !frameOk f then bumpPort c f.port 8 0 t
    else t
  else t

/-- What a controller in JOIN or RUN takes of a frame in the window of its slot (R330, R337, R339, R333); in a round without its mark no
frame is taken. -/
def takeFrame (c : Nat) (f : Frame) (s : State) : State :=
  if !(decide (s.ringSt c = 3) || decide (s.ringSt c = 4)) then s
  else
    let t := checkFrame c f s
    if !t.frameValid c f || (t.rg c).mute then t
    else if f.slot = 0 then (if t.follows c then takeRound c f t else t)
    else if t.ringSt c = 4 then
      if t.ringDelivers c then deliver c f.slot f t
      else if (t.rxData c).contains f.slot then ageSlot c 1 f.slot t
      else t
    else t

/-- FRAME_RECEIVE (R318, R319, R321, R330): the scrambled bits of a frame arrive at a port; it is passed on in every state but OFF and
COCOON, and taken. -/
def execFrameReceive (c : Nat) (x : RxLine) (s : State) : Host.Outcome State Fault Refusal :=
  done (if s.portRuns c x.port then
    match rxFrame x.port x.slot x.bits with
    | none => s
    | some f =>
      let t := passOn c f s
      if s.replaying then t else takeFrame c f t
  else s)

/-- RX_WINDOW_CLOSE (R337, R380, R51): the window of a slot closes without a valid frame; a port that does not run sees none, and the
ages rise all the same. -/
def execRxWindowClose (c slot port : Nat) (nonIdle : Bool) (s : State) : Host.Outcome State Fault Refusal :=
  done (if s.ringRuns c && decide (s.ringSt c = 4) && decide (slot < s.nslot c) && !(s.rg c).mute then
    let t := if nonIdle && s.portRuns c port then bumpPort c port 4 0 s else s
    if (t.rxData c).contains slot then ageSlot c 1 slot t else t
  else s)

/-- LAGE_ROUND_TICK (R337): outside RUN and COCOON, N line-clock cycles have passed. -/
def execLageRoundTick (c : Nat) (s : State) : Host.Outcome State Fault Refusal :=
  done (if decide (c < s.member.rings) && !s.dead && !s.sup.crawl && decide (s.ringSt c ≠ 4) && !s.asleep then ageAll c 1 s
  else s)

/-! ### Slots (R334 to R336, R370) -/

/-- The DI state cell (Table 6.2). -/
def State.diCell (s : State) (n : Nat) : Word :=
  word ((s.flag (chA n 0x50) 0).toNat + 2 * (s.flag (chA n 0x84) 16).toNat + 4 * (s.flag (aStat n) 16).toNat +
    8 * (s.flag (aStat n) 19).toNat + 0x10000 * s.fld (chA n 0x50) 16 16)

/-- DRIVE (R165, Table 5.7). -/
def State.driveWord (s : State) (n : Nat) : Word := word ((s.drive n).1 + 0x10000 * (s.drive n).2.toNat)

/-- The content of a mapped cell (Table 12.6); a kind that the mode does not provide yields 0. -/
def State.mapped (s : State) (d : Word) : Word :=
  let n := bits d 4 7
  let m := s.mode n
  if s.member.channels ≤ n then 0 else
  match bits d 0 4 with
  | 1 => if isDi m then s.diCell n else if isAi m then s.reg (chA n 0x248) else if isAo m then s.reg (chA n 0x348)
         else if isOut m then s.driveWord n else 0
  | 2 => word ((s.flag (chA n 0x84) 16).toNat + 2 * (s.inSafe n).toNat) ||| (s.stat n &&& 0xFFFF0000)
  | 3 => if m = 2 then (s.liveCount n).extractLsb' 0 32 else 0
  | 4 => if m = 2 then (s.liveCount n).extractLsb' 32 32 else 0
  | 5 => if isDi m then s.reg (chA n 0x64) else 0
  | _ => 0

/-- An entry of the bridge table (R384). -/
structure BridgeEnt where
  src   : Nat
  slot  : Nat
  cell  : Nat
  count : Nat
  j     : Nat
  dcell : Nat
deriving DecidableEq, Repr

/-- Entry e of the bridge table. -/
def State.bridgeEnt (s : State) (e : Nat) : BridgeEnt :=
  let a := 0x4002A000 + 8 * e
  { src := s.fld a 12 1, slot := s.fld a 0 12, cell := s.fld a 13 6, count := min 64 (s.fld a 19 7), j := s.fld (a + 4) 0 6
    dcell := s.fld (a + 4) 6 6 }

/-- The bridge entries that fill ordinal j of controller c (R370). -/
def State.bridgeTo (s : State) (c j : Nat) : List BridgeEnt :=
  if s.bridging then
    ((List.range 256).map s.bridgeEnt).filter fun e =>
      decide (e.src ≠ c) && decide (0 < e.count) && decide (e.j = j) && (s.rxData e.src).contains e.slot
  else []

/-- The bridge entry that fills cell i, if any. -/
def bridgeAt (l : List BridgeEnt) (i : Nat) : Option BridgeEnt :=
  l.find? fun e => decide (e.dcell ≤ i) && decide (i < e.dcell + e.count)

/-- Cell i of an own DATA slot at its assembly point. -/
def State.dataCell (s : State) (c j : Nat) (send : List Word) (l : List BridgeEnt) (i : Nat) : Word :=
  match bridgeAt l i with
  | some e => s.reg (aRxCell e.src (s.rxIdx e.src e.slot) (e.cell + (i - e.dcell)))
  | none =>
    let d := s.reg (aMap c j i)
    if bits d 0 4 = 0 then send.getD i 0 else s.mapped d

/-- The age that bridged entries give a slot (R370). -/
def State.bridgeAge (s : State) (c : Nat) (l : List BridgeEnt) : Nat :=
  l.foldl (fun m e =>
    let total := s.fld (aRxStat e.src (s.rxIdx e.src e.slot) + 4) 16 16
    max m (min 255 (ceilDiv (total * s.period e.src) (max 1 (s.period c))))) 0

/-- Sets the frame of a slot for its launch. -/
def setReady (c n : Nat) (x : TxSlot) (s : State) : State := s.setRg c { s.rg c with slots := sset {} (s.rg c).slots n x }

/-- The assembly of an own slot (R334, R336, R344, R370): the buffers exchange if committed, every cell is taken at once,
AGE is set. -/
def assemble (c n : Nat) (s : State) : State :=
  let e := s.slot c n
  let j := s.ordinal c n
  let x := sget {} (s.rg c).slots n
  let fill := (List.range 64).map fun i => s.reg (aFill c j i)
  let send := if x.commit then fill else x.send
  let src := s.ringAddr c
  match e.kind with
  | 2 =>
    let br := s.bridgeTo c j
    let host := (List.range e.len).any fun i => (bridgeAt br i).isNone && decide (s.mapKind c j i = 0)
    let age := if !host || x.commit then 0 else min 255 (x.age + 1)
    let head := max age (s.bridgeAge c br)
    setReady c n { x with
      commit := false, send := send, age := age
      ready := some { slot := n, kind := 2, source := src, len := e.len, age := head, seq := 0
                      cells := (List.range e.len).map (s.dataCell c j send br) } } s
  | 3 =>
    let age := if x.commit then 0 else min 255 (x.age + 1)
    setReady c n { x with
      commit := false, owed := x.owed || x.commit, send := send, age := age
      ready := if x.owed || x.commit then
          some { slot := n, kind := 3, source := src, len := x.len, age := age, seq := 0, cells := send.take x.len }
        else none } s
  | 4 =>
    setReady c n { x with
      ready := match (s.rg c).queue with
        | [] => none
        | f :: _ => some { slot := n, kind := 4, source := src, len := 2 + ceilDiv f.text.length 4, age := 0, seq := 0
                           cells := f.cells } } s
  | _ => s

/-- SLOT_ASSEMBLY (R334). -/
def execSlotAssembly (c slot : Nat) (s : State) : Host.Outcome State Fault Refusal :=
  done (if s.ringRuns c && decide (s.ringSt c = 4) && s.isOwn c slot then assemble c slot s else s)

/-- SLOT_LAUNCH (R328, R323, R330, R326): the assembled frame leaves, unless the round's mark was missed or the schedules
differ; a MAIL fragment leaves the queue with it, and the answer to a dev reset begins that reset (R67). -/
def execSlotLaunch (c slot : Nat) (s : State) : Host.Outcome State Fault Refusal :=
  done (if s.ringRuns c && decide (s.ringSt c = 4) && s.isOwn c slot then
    let a := s.rg c
    let x := sget {} a.slots slot
    match x.ready with
    | none => s
    | some f =>
      if a.mute || s.flag (rgA c 0x2C) 0 then setReady c slot { x with ready := none } s
      else
        let q := (x.seq + 1) % 256
        let t := ringSend c { f with seq := q } (s.setRg c { a with
          slots := sset {} a.slots slot { x with seq := q, ready := none, owed := false }
          queue := if f.kind = 4 then a.queue.tail else a.queue })
        if f.kind = 4 && (a.queue.head?.map (·.reset)).getD false then takeReset 4 t else t
  else s)

/-! ### MAIL (R344, R368) -/

/-- MAIL_FRAME_RECEIVE (R344, R124, R368, R371): a valid MAIL frame for this part, for every node, or to be bridged. The
window that found it is FRAME_RECEIVE's. -/
def execMailFrameReceive (c : Nat) (f : Frame) (s : State) : Host.Outcome State Fault Refusal :=
  done (if s.portRuns c f.port && s.ringDelivers c && !(s.rg c).mute && !s.replaying && s.frameValid c f &&
      decide (f.kind = 4) then
    let m := fragOf f.cells
    match m.dest with
    | none => bridgeMail c m (mailFrag c m s)
    | some a => if s.isSelf a then mailFrag c m s else bridgeMail c m s
  else s)

/-- MAIL_FRAGMENT_TIMEOUT (R344): 4 rounds have passed since a first fragment. -/
def execMailFragmentTimeout (c : Nat) (origin : Node) (s : State) : Host.Outcome State Fault Refusal :=
  done (if s.ringRuns c && (s.rg c).parts.any (fun p => decide (p.frag.origin = origin)) then
    mailDiscard c 1 (s.setRg c { s.rg c with parts := (s.rg c).parts.filter fun p => decide (p.frag.origin ≠ origin) })
  else s)

/-! ### Commands (R345) -/

/-- The checks of a controller (R345). -/
def ringObj (c : Nat) (s : State) : List (Code × Bool) :=
  [(.object, decide (2 ≤ c)), (.absent, decide (s.member.rings ≤ c))]

/-- NOTSTOPPED for RWS (R332, R7). -/
def rws (c : Nat) (s : State) : Code × Bool := (.notstopped, decide (s.ringSt c ≠ 0) && decide (s.ringSt c ≠ 5))

/-- FENCED for the forms that need the controller and the shadows. -/
def ringFenced (c : Nat) (s : State) : Code × Bool := (.fenced, s.fenced (ringUn c) || s.fenced .shadow)

/-- The checks of an RWS form. -/
def rwsChecks (c : Nat) (s : State) : List (Code × Bool) := ringObj c s ++ [rws c s, ringFenced c s]

/-- The controllers that ring start and ring stop without a name act on: those that are not OFF. -/
def State.ringSel (s : State) : Option Nat → List Nat
  | some c => [c]
  | none => (List.range s.member.rings).filter fun c => decide (s.ringSt c ≠ 0)

/-- The checks of a controller that may be omitted. -/
def ringSelObj (c : Option Nat) (s : State) : List (Code × Bool) :=
  match c with
  | some c => ringObj c s ++ [ringFenced c s]
  | none => []

/-- ring start (R327, R331, R349): every STOPPED controller named is checked first; the first bad schedule sets CFGBAD and is
answered with its slot. -/
def ringStart (l : List Nat) (s : State) : State × Resp :=
  let l := l.filter fun c => decide (s.ringSt c = 5)
  match l.filterMap fun c => (s.badSlot c).map fun n => (c, n) with
  | (c, n) :: _ => (s.setFlag (rgA c 0x2C) 1 true, .errAt .range n)
  | [] => (forAll l ringGo s, .ok)

/-- ring stop on one controller (R331). -/
def ringStop (c : Nat) (s : State) : State :=
  match s.ringSt c with
  | 0 => s
  | 4 => if (s.rg c).stop = 0 then s.setRg c { s.rg c with stop := if s.sendsMarks c then 1 else 2 } else s
  | _ => ringStopped c s

/-- RING_START (R331, R345). -/
def execRingStart (ln : Line) (c : Option Nat) (s : State) : Host.Outcome State Fault Refusal :=
  done (runLine ln {} (ringSelObj c) (fun t => ringStart (t.ringSel c) t) s)

/-- RING_STOP (R331, R345). -/
def execRingStop (ln : Line) (c : Option Nat) (s : State) : Host.Outcome State Fault Refusal :=
  done (runLine ln {} (ringSelObj c) (okay fun t => forAll (t.ringSel c) ringStop t) s)

/-- RING_LINE (R317). -/
def execRingLine (ln : Line) (c : Nat) (long : Bool) (s : State) : Host.Outcome State Fault Refusal :=
  done (runLine ln {} (rwsChecks c) (okay fun t => t.setFlag (rgA c 8) 0 long) s)

/-- RING_PERIOD (R345). -/
def execRingPeriod (ln : Line) (c : Nat) (t : Qty) (s : State) : Host.Outcome State Fault Refusal :=
  let v := qSteps t .us 1 1000
  done (runLine ln {} (fun u => rwsChecks c u ++ [(.unit, qBad t .us), (.range, outside v 20 10000000)])
    (okay fun u => u.setFld (rgA c 0xC) 0 24 v.toNat) s)

/-- RING_SLOTS (R345). -/
def execRingSlots (ln : Line) (c n : Nat) (s : State) : Host.Outcome State Fault Refusal :=
  done (runLine ln {} (fun u => rwsChecks c u ++ [(.range, decide (4096 < n))]) (okay fun u => u.setFld (rgA c 0x10) 0 13 n) s)

/-- RING_MARGIN (R345). -/
def execRingMargin (ln : Line) (c n : Nat) (s : State) : Host.Outcome State Fault Refusal :=
  done (runLine ln {} (fun u => rwsChecks c u ++ [(.range, decide (2 ^ 24 ≤ n))])
    (okay fun u => u.setFld (rgA c 0x14) 0 24 n) s)

/-- The code of a slot kind (Table 12.3). -/
def SlotKind.code : SlotKind → Nat
  | .round => 1 | .data => 2 | .event => 3 | .mail => 4 | .spare => 5

/-- RING_SLOT (R325). -/
def execRingSlot (ln : Line) (c slot : Nat) (k : SlotKind) (owner : Node) (len start : Nat) (rx : Bool) (s : State) :
    Host.Outcome State Fault Refusal :=
  done (runLine ln {} (fun u => rwsChecks c u ++
      [(.range, decide (4096 ≤ slot) || decide (64 < len) || decide (2 ^ 32 ≤ start))])
    (okay fun u => (u.setReg (aSched c slot) (word start)).setReg (aSched c slot + 4)
      (word (SlotKind.code k + 16 * len + 0x800 * rx.toNat + 0x1000 * nodeBits owner))) s)

/-- The code of a map kind (Table 12.6). -/
def MapKind.code : MapKind → Nat
  | .host => 0 | .value => 1 | .status => 2 | .count => 3 | .revokes => 5

/-- Whether ring map may not write a cell (R335): it must be an own DATA slot's cell; a count needs the cell behind it, and the COUNTHI
of a COUNT stays behind it. -/
def State.mapBad (s : State) (c slot cell : Nat) (k : MapKind) : Bool :=
  let e := s.slot c slot
  let j := s.ordinal c slot
  decide (s.nslot c ≤ slot) || decide (e.kind ≠ 2) || decide (64 ≤ j) || decide (e.len ≤ cell) ||
  (decide (k = .count) && decide (e.len ≤ cell + 1)) ||
  (decide (s.mapKind c j cell = 4) && decide (0 < cell) && decide (s.mapKind c j (cell - 1) = 3))

/-- Writes a map descriptor; count also sets COUNTHI, and a COUNT that goes takes its COUNTHI along. -/
def writeMap (c j cell : Nat) (k : MapKind) (n : Nat) (s : State) : State :=
  let clear (i : Nat) (t : State) : State := if t.mapKind c j i = 3 then t.setReg (aMap c j (i + 1)) 0 else t
  let t := clear cell s
  let t := if k = .count then clear (cell + 1) t else t
  let t := t.setReg (aMap c j cell) (word (MapKind.code k + 16 * n))
  if k = .count then t.setReg (aMap c j (cell + 1)) (word (4 + 16 * n)) else t

/-- RING_MAP (R335, R542): a channel left out keeps the one that the descriptor names. -/
def execRingMap (ln : Line) (c slot cell : Nat) (k : MapKind) (ch : Option ChRef) (s : State) :
    Host.Outcome State Fault Refusal :=
  done (runLine ln {} (fun u => rwsChecks c u ++ (match ch with | some r => chObj r u | none => []) ++
      [(.range, u.mapBad c slot cell k)])
    (okay fun u =>
      let j := u.ordinal c slot
      writeMap c j cell k ((ch.map ChRef.n).getD (u.fld (aMap c j cell) 4 7)) u) s)

/-- RING_HOP (R341). -/
def execRingHop (ln : Line) (c i : Nat) (t : Qty) (s : State) : Host.Outcome State Fault Refusal :=
  let v := qSteps t .ns 10 1
  done (runLine ln {} (fun u => rwsChecks c u ++
      [(.unit, qBad t .ns), (.range, decide (i = 0) || decide (256 ≤ i) || outside v 0 65535)])
    (okay fun u => u.setReg (0x40028000 + 0x400 * c + 4 * i) (word v.toNat)) s)

/-- Whether a slot has a FILL buffer that the host writes: DATA or EVENT, owned through an ordinal below 64. -/
def State.fillOk (s : State) (c slot : Nat) : Bool :=
  decide (slot < s.nslot c) && s.isOwn c slot && (decide ((s.slot c slot).kind = 2) || decide ((s.slot c slot).kind = 3)) &&
  decide (s.ordinal c slot < 64)

/-- RING_TX (R334, R345): consecutive FILL cells. -/
def execRingTx (ln : Line) (c slot cell : Nat) (vs : List Nat) (s : State) : Host.Outcome State Fault Refusal :=
  done (runLine ln {} (fun u => ringObj c u ++ [ringFenced c u, (.arg, decide (vs = [])),
      (.range, !u.fillOk c slot || decide (64 < cell + vs.length) || vs.any fun v => decide (2 ^ 32 ≤ v))])
    (okay fun u => vs.zipIdx.foldl (fun t x => t.setReg (aFill c (t.ordinal c slot) (cell + x.2)) (word x.1)) u) s)

/-- Marks FILL of a slot for use (R334). -/
def commitSlot (c n len : Nat) (s : State) : State :=
  let a := s.rg c
  s.setRg c { a with slots := sset {} a.slots n { sget {} a.slots n with commit := true, since := true, len := len } }

/-- RING_COMMIT (R334): EVENT needs its LEN, at most that of the schedule. -/
def execRingCommit (ln : Line) (c slot : Nat) (len : Option Nat) (s : State) : Host.Outcome State Fault Refusal :=
  done (runLine ln {} (fun u => ringObj c u ++ [ringFenced c u,
      (.arg, decide ((u.slot c slot).kind = 3) && len.isNone),
      (.range, !u.fillOk c slot || decide ((u.slot c slot).len < len.getD 0))])
    (okay fun u => commitSlot c slot (len.getD (u.slot c slot).len) u) s)

/-- A commit through RING.COMMITc (R346): the ordinal and the LEN of an EVENT, held to that of the schedule. -/
def writeCommit (c : Nat) (v : Word) (s : State) : State :=
  match (s.owned c)[bits v 0 6]? with
  | none => s
  | some n =>
    let e := s.slot c n
    if e.kind = 2 then commitSlot c n e.len s
    else if e.kind = 3 then commitSlot c n (min e.len (bits v 8 7)) s
    else s

/-- RING_RX (R345). A response holds at most 16 cells (R108): more are refused, and 16 is the most that an omitted count
takes. DEDUCED: assumption 66. -/
def execRingRx (ln : Line) (c slot : Nat) (cell count : Option Nat) (s : State) : Host.Outcome State Fault Refusal :=
  let i := cell.getD 0
  let k (t : State) : Nat := match cell, count with
    | _, some k => k
    | some _, none => 1
    | none, none => min 16 (t.slot c slot).len
  done (runLine ln {} (fun t => ringObj c t ++
      [(.range, !(t.rxSlots c).contains slot || decide (64 < i + k t) || decide (16 < k t))])
    (value fun t =>
      let a := aRxStat c (t.rxIdx c slot)
      [kn "hage" (t.fld a 24 8), kn "lage" (t.fld (a + 4) 0 16), kn "age" (t.fld (a + 4) 16 16), kn "seq" (t.fld a 16 8)] ++
      (List.range (k t)).map fun x => { val := .hex (t.reg (aRxCell c (t.rxIdx c slot) (i + x))) }) s)

/-- RING_ROUNDEV (R345). -/
def execRingRoundev (ln : Line) (c : Nat) (n : Option Nat) (s : State) : Host.Outcome State Fault Refusal :=
  done (runLine ln {} (fun t => ringObj c t ++
      [(.range, match n with | some v => decide (v = 0) || decide (65535 < v) | none => false)])
    (okay fun t => match n with
      | some v => (t.setFlag (rgA c 8) 1 true).setFld (rgA c 8) 16 16 v
      | none => t.setFlag (rgA c 8) 1 false) s)

/-- The states as ring get writes them (R346). -/
def ringStName : Nat → String
  | 0 => "off" | 1 => "listen" | 2 => "candidate" | 3 => "join" | 4 => "run" | 5 => "stopped" | 6 => "cocoon" | _ => "lost"

/-- The roles as ring get writes them. -/
def State.roleName (s : State) (c : Nat) : String :=
  match s.role c with
  | 1 => "tk"
  | 2 => "backup" ++ toString (s.rank c)
  | _ => "follower"

/-- RING_GET (R345). -/
def execRingGet (ln : Line) (c : Nat) (s : State) : Host.Outcome State Fault Refusal :=
  done (runLine ln { locked := false } (ringObj c) (value fun t =>
    [kw "state" (ringStName (t.ringSt c)), kw "role" (t.roleName c), { key := "addr", val := .nd (t.ringAddr c) },
     kn "round" (t.reg (rgA c 0x1C)).toNat, { key := "period", val := .n (t.period c), unit := "us" }, kn "slots" (t.nslot c),
     kw "schedid" (String.ofList (hexText 8 (t.reg (rgA c 0x18)).toNat)), kn "ringdly" (t.fld (rgA c 0x20) 0 24),
     ky "schedmis" (t.flag (rgA c 0x2C) 0)]) s)

/-! ### Bindings (R339) -/

/-- Whether a valid schedule is loaded in a controller. -/
def State.schedOk (s : State) (c : Nat) : Bool := decide (s.badSlot c = none)

/-- Writes a binding and its limit (R347). -/
def writeBind (n c slot cell limit : Nat) (s : State) : State :=
  let t := s.setReg (0x50800 + 8 * n) (word (slot + 0x1000 * cell + 0x40000 * c))
  let t := (t.setReg (0x50804 + 8 * n) (word limit)).setCh n { t.ch n with bindAge := 0 }
  judgeAge n t

/-- CH_BIND (R339, R345): a binding that breaks the conditions is refused while a valid schedule is loaded. -/
def execChBind (ln : Line) (ch : ChRef) (c slot cell limit : Nat) (s : State) : Host.Outcome State Fault Refusal :=
  done (runLine ln {} (fun t => chObj ch t ++ ringObj c t ++
      [(.mode, !isOut (t.mode ch.n)), (.armed, t.sup.armed),
       (.range, decide (4096 ≤ slot) || decide (64 ≤ cell) || decide (limit = 0) || decide (65535 < limit) ||
         (t.schedOk c && !t.bindOk c slot cell))])
    (okay (writeBind ch.n c slot cell limit)) s)

/-- CH_BIND_GET (R345). -/
def execChBindGet (ln : Line) (ch : ChRef) (s : State) : Host.Outcome State Fault Refusal :=
  done (runLine ln { locked := false } (chObj ch) (value fun t =>
    let (c, sl, cell) := t.bind ch.n
    [fw ("ring" ++ toString c), kn "slot" sl, kn "cell" cell, kn "limit" (t.ageLimit ch.n), kn "age" (t.bindTotal ch.n)]) s)

end Sys2Proof.Machine
end

