-- ==== Sys2Proof/Machine/RingJoin.lean ====
section
/-!
DEFINITION. Ringlet II (chapter 13): the hunt, joining, timekeepers and backups, wrap, Cocoon sleep, bridges, and their
commands.
-/
namespace Sys2Proof.Machine

/-! ### The hunt (R351 to R353) -/

/-- The flag of a controller's JOIN register. -/
def joinFlag (c i : Nat) (b : Bool) (s : State) : State := s.setFlag (rgA c 0x44) i b

/-- A timekeeper's conflict (R355, R356). -/
def tkConflict (c : Nat) (s : State) : State :=
  (joinFlag c 0 true (ringStopped c s)).emit .tkConflict (.unit (ringUn c)) []

/-- Whether the receive engine is free for a mark match whose header has come in now (R390): the match began with the first bit of its
mark, 96 bits ago, and the ROUND frame examined last ended 224 bits after its own header. -/
def State.engineFree (s : State) (c : Nat) : Bool :=
  match (s.rg c).huntAt with
  | some x => decide (x + 320 * (if s.long c then 16 else 4) ≤ s.clk.raw)
  | none => true

/-- HUNT_CANDIDATE (R351, R352, R390): a mark match and the frame behind it. While the engine is busy or four are tracked the match
is ignored; one whose header passes is taken, which stops a listening timekeeper (R355), and dropped when its frame CRC
fails. -/
def execHuntCandidate (x : HuntMatch) (s : State) : Host.Outcome State Fault Refusal :=
  let c := x.ctl
  let f := x.frame
  done (
    let st := s.ringSt c
    if s.portRuns c f.port && decide (f.port = s.inPort c) && (decide (st = 1) || decide (st = 2) || decide (st = 7)) &&
        s.engineFree c && !(decide (st = 2) && decide (4 ≤ (s.rg c).cands)) then
      let t := checkFrame c f s
      if !hchkOk f then t
      else
        let t := t.setRg c { t.rg c with huntAt := some t.clk.raw }
        if st = 1 ∧ t.role c = 1 then tkConflict c t
        else if !frameOk f then t
        else if st = 2 then t.setRg c { t.rg c with cands := (t.rg c).cands + 1 }
        else (ringTo c 2 t).setRg c { t.rg c with fromSt := st, cands := 1 }
    else s)

/-! ### Positions (R360, R361) -/

/-- Whether the position comes from hop count. -/
def State.byHop (s : State) (c : Nat) : Bool :=
  decide (s.posm c = 0) || (decide (s.posm c = 2) && (s.tablePos c).isNone)

/-- The first DATA slot of a position. -/
def State.dataSlot (s : State) (c p : Nat) : Option Nat :=
  (s.ownedBy c { seg := s.seg c, pos := BitVec.ofNat 8 p }).find? fun n => decide ((s.slot c n).kind = 2)

/-- The follower positions that own a DATA slot, ascending. -/
def State.followers (s : State) (c : Nat) : List Nat :=
  (List.range 256).filter fun p => decide (1 ≤ p) && (s.dataSlot c p).isSome

/-- Enters JOIN (R349, R352): a position that is kept or that the table gives is fixed; under hop count the search begins. -/
def enterJoin (c : Nat) (s : State) : State :=
  let t := ringTo c 3 s
  let t := t.setRg c { t.rg c with cands := 0, mute := false, markAt := some t.clk.raw, markTs := t.clk.ts, meas := t.roundN c
                                   begun := (t.rg c).fixed }
  if (t.rg c).fixed then t
  else match (if t.posm c = 0 then none else t.tablePos c) with
    | some p => (fixPos c p t).setRg c { (fixPos c p t).rg c with begun := true }
    | none =>
      if t.posm c = 1 then joinFlag c 2 true t
      else t.setRg c { t.rg c with probe := (t.followers c).headD 1 }

/-! ### The wake (R375 to R377) -/

/-- The sleep trim s in 0.01 ppm (R89). -/
def State.sleepTrim (s : State) : Int := (s.reg 0x10018).toInt

/-- ρ in ppm (R375). -/
def State.rho (s : State) (c : Nat) : Nat := if s.flag (rgA c 0x44) 7 then s.fld (rgA c 0x48) 0 7 else 100

/-- The guard G in µs of a sleep of M rounds. -/
def State.guard (s : State) (c m : Nat) : Nat := (roundDiv (s.rho c * (m * s.period c) : Nat) 1000000).toNat + 20

/-- The lead L in µs. -/
def State.lead (s : State) (c : Nat) : Nat := 2000 + 2 * s.period c

/-- The expected count E_exp (R376). -/
def State.eExp (s : State) (c m : Nat) : Int :=
  roundDiv ((m * s.period c * 100000000 : Nat) : Int) (100000000 + s.sleepTrim).toNat

/-- The count E_open at which the sleep timer fires (R375). -/
def State.eOpen (s : State) (c m : Nat) : Nat := (s.eExp c m - (s.guard c m : Nat) - (s.lead c : Nat)).toNat

/-- The mark of the expected round is found (R376). -/
def wakeOk (c m e : Nat) (delta : Int) (s : State) : State :=
  let tr := s.sleepTrim
  let mp := m * s.period c
  let new := clampI (-25000) 25000 (roundDiv (tr * mp - delta * (100000000 + tr)) (max 1 mp))
  let small := decide ((new - tr).natAbs ≤ 100)
  let good := if small then (s.rg c).good + 1 else 0
  let t := (s.setReg 0x10018 (wordI new)).setReg (rgA c 0x4C) (wordI delta)
  let t := (t.setFlag (rgA c 0x50) 0 false).setRg c { t.rg c with good := good, wake := none, sleep := none }
  let t := if 2 ≤ good then joinFlag c 7 true t else t
  let t := t.emit .wakeOk (.unit (ringUn c)) [{ val := .n delta }, { val := .sfx new 2 }]
  ageAll c ((e * (100000000 + new).toNat) / (100000000 * max 1 (s.period c))) t

/-- The mark of the expected round is not found (R377): e is the count of the sleep timer. -/
def wakeMissed (c : Nat) (e : Int) (s : State) : State :=
  let t := (joinFlag c 7 false s).setFlag (rgA c 0x50) 0 true
  let t := t.emit .wakeMiss (.unit (ringUn c)) [{ val := .n e }]
  let t := ringTo c 7 t
  t.setRg c { t.rg c with wake := none, sleep := none, good := 0, cands := 0, bkWait := false }

/-- CANDIDATE_CONFIRM (R352, R349, R376, R377): a confirmed candidate takes the controller to JOIN; one that fails is dropped,
and the last one dropped takes it back to the state it came from. DESIGN CHOICE: assumption 13. -/
def execCandidateConfirm (c : Nat) (r : Confirm) (s : State) : Host.Outcome State Fault Refusal :=
  done (if s.portRuns c r.frame.port && decide (s.ringSt c = 2) then
    let t := checkFrame c r.frame s
    let a := t.rg c
    if !(r.ok && decide (r.frame.slot = 0) && t.frameValid c r.frame) then
      let t := t.setRg c { a with cands := a.cands - 1 }
      if a.cands ≤ 1 then ringTo c a.fromSt t else t
    else match a.wake with
      | some (no, m, e) =>
        if r.frame.cells.getD 4 0 = no then takeRound c r.frame (enterJoin c (wakeOk c m e r.delta t))
        else wakeMissed c (t.eExp c m + r.delta) t
      | none => takeRound c r.frame (enterJoin c t)
  else s)

/-- WAKE_MISS (R377): the wake window closes, at E_exp + G. -/
def execWakeMiss (c : Nat) (s : State) : Host.Outcome State Fault Refusal :=
  done (if s.ringRuns c && (decide (s.ringSt c = 1) || decide (s.ringSt c = 2)) && decide (s.role c ≠ 1) then
    match (s.rg c).wake with
    | some (_, m, _) => wakeMissed c (s.eExp c m + s.guard c m) s
    | none => s
  else s)

/-- The probe frame of a position (R361). -/
def State.probeFrame (s : State) (c p : Nat) : TxFrame :=
  { slot := (s.dataSlot c p).getD 0, kind := 2, source := { seg := s.seg c, pos := BitVec.ofNat 8 p }, len := 0, age := 255
    seq := 0, cells := [] }

/-- JOIN_PROBE (R361): one pass of the search. dup says that a direct window of the probed position's slots showed a valid
header with its address; busy are the positions whose slots showed one in this round. -/
def execJoinProbe (c : Nat) (dup : Bool) (busy : List Nat) (s : State) : Host.Outcome State Fault Refusal :=
  done (if s.ringRuns c && decide (s.ringSt c = 3) && !(s.rg c).fixed && s.byHop c && !s.flag (rgA c 0x2C) 0 then
    let a := s.rg c
    let t := ringSend c (s.probeFrame c a.probe) s
    if !dup then
      let t := fixPos c a.probe (joinFlag c 2 false t)
      t.setRg c { t.rg c with begun := false }
    else match (t.followers c).find? fun p => decide (a.probe < p) && !busy.contains p with
      | some p => t.setRg c { t.rg c with probe := p }
      | none =>
        let t := (joinFlag c 2 true t).emit .nopos (.unit (ringUn c)) []
        t.setRg c { t.rg c with probe := (t.followers c).headD 1 }
  else s)

/-- DUP_ADDR (R362): a duplicate upstream. Under hop count the search resumes from the current position; with a fixed
position the controller stops. -/
def execDupAddr (c : Nat) (s : State) : Host.Outcome State Fault Refusal :=
  done (if s.ringRuns c && ((decide (s.ringSt c = 3) && (s.rg c).fixed) || decide (s.ringSt c = 4)) then
    let t := (joinFlag c 1 true s).emit .dupAddr (.unit (ringUn c)) []
    if s.role c ≠ 1 ∧ s.byHop c = true then
      let p := (s.ringPos c).getD 1
      let t := joinFlag c 4 false (ringTo c 3 t)
      t.setRg c { t.rg c with fixed := false, probe := p, begun := false }
    else joinFlag c 1 true (ringStopped c t)
  else s)

/-! ### Timekeepers and backups (R355 to R358) -/

/-- TK_LISTEN_END (R355, R375): no candidate in one period, or the expected instant after a sleep; the first mark is sent. -/
def execTkListenEnd (c : Nat) (s : State) : Host.Outcome State Fault Refusal :=
  done (if s.ringRuns c && decide (s.ringSt c = 1) && decide (s.role c = 1) then
    let a := s.rg c
    let t := match a.wake with
      | some (no, _, _) => s.setRg c { a with round := no - 1, sleep := none }
      | none => s
    sendMark c (enterRun c t)
  else s)

/-- FOREIGN_MARK (R356). -/
def execForeignMark (c : Nat) (backup : Bool) (rank : Nat) (s : State) : Host.Outcome State Fault Refusal :=
  done (if s.ringRuns c && decide (s.ringSt c = 4) && s.sendsMarks c then
    let conflict (t : State) : State := t.emit .tkConflict (.unit (ringUn c)) []
    if s.role c = 1 then (if backup then conflict s else tkConflict c s)
    else if !backup || decide (rank < s.rank c) then
      let t := joinFlag c 4 false (ringTo c 1 s)
      let t := t.setRg c { t.rg c with fixed := false, begun := false, cands := 0, fromSt := 1, bkWait := false, stop := 0 }
      t.emit .tkYield (.unit (ringUn c)) []
    else if s.rank c < rank then conflict s
    else s
  else s)

/-- TK_TAKEOVER (R357, R358): the wait of a backup ends without a candidate. -/
def execTkTakeover (c : Nat) (s : State) : Host.Outcome State Fault Refusal :=
  done (if s.ringRuns c && decide (s.role c = 2) && decide (s.rank c ≠ 0) && decide (s.ringPos c = some (s.rank c)) &&
      (decide (s.ringSt c = 7) || (decide (s.ringSt c = 1) && (s.rg c).bkWait)) then
    let t := joinFlag c 4 true (fixPos c (s.rank c) s)
    sendMark c ((enterRun c t).emit .tkTakeover (.unit (ringUn c)) [])
  else s)

/-! ### Wrap (R363, R364) -/

/-- The flag of JOIN that a wrap of a port sets: WRAPUP for port 0, WRAPDN for port 1. -/
def wrapBit (port : Nat) : Nat := if port = 0 then 5 else 6

/-- RING_WRAP (R363): a port has been down for 2 µs. -/
def execRingWrap (c port : Nat) (s : State) : Host.Outcome State Fault Refusal :=
  done (if s.ringRuns c && decide (port < 2) && decide (s.ringSt c ≠ 0) && decide (s.ringSt c ≠ 6) &&
      !s.flag (rgA c 0x44) (wrapBit port) then
    let t := (s.setFlag (rpA c port 0) 0 false).setFlag (rpA c port 0) 1 true
    (joinFlag c (wrapBit port) true t).emit .ringWrap (.unit (ringUn c)) [fn port]
  else s)

/-- Unwraps a port. -/
def unwrap (c port : Nat) (s : State) : State :=
  (joinFlag c (wrapBit port) false (s.setFlag (rpA c port 0) 1 false)).emit .ringUnwrap (.unit (ringUn c)) [fn port]

/-- PORT_UP (R363, R364): outside RUN a wrapped node unwraps at once. -/
def execPortUp (c port : Nat) (s : State) : Host.Outcome State Fault Refusal :=
  done (if s.portRuns c port then
    let t := s.setFlag (rpA c port 0) 0 true
    if t.flag (rgA c 0x44) (wrapBit port) && decide (t.ringSt c ≠ 4) then unwrap c port t else t
  else s)

/-- RING_UNWRAP (R364): in RUN, after a full round up. -/
def execRingUnwrap (c port : Nat) (s : State) : Host.Outcome State Fault Refusal :=
  done (if s.portRuns c port && s.flag (rpA c port 0) 0 && s.flag (rgA c 0x44) (wrapBit port) then unwrap c port s else s)

/-! ### Cocoon (R373 to R375) -/

/-- COCOON_ENTER (R373, R374): the mark of the entry round. The links stop without LINK, the latches act, the sleep timer starts.
DEDUCED: assumption 67. -/
def execCocoonEnter (c : Nat) (s : State) : Host.Outcome State Fault Refusal :=
  done (if s.ringRuns c && decide (s.ringSt c = 4) && decide ((s.rg c).sleep.map (·.1) = some (s.rg c).round) then
    let m := match (s.rg c).sleep with | some (_, m) => m | none => 0
    let t := s.record 0x2C 0 0 [word c, word m]
    let t := forAll (t.groups.filter t.powered) (fun g u =>
      groupLost g ((latchAlone g u).setFlag (aGstat g) 1 false)) t
    ringTo c 6 { t with clk := { t.clk with sleep := 0 } }
  else s)

/-- SLEEP_TIMER_FIRE (R375, R89, R374): at the count E_open, and at no other e, the timestamp is advanced by the sleep, the links are retrained and the
modes reapplied, and the controller listens for the mark of round n + M. A group that has lost its supply is reported unpowered. -/
def execSleepTimerFire (c e : Nat) (r : List (Nat × BringUp)) (s : State) : Host.Outcome State Fault Refusal :=
  done (if decide (c < s.member.rings) && decide (s.ringSt c = 6) && !s.dead &&
      decide (e = s.eOpen c (((s.rg c).sleep.map (·.2)).getD 0)) then
    let adv := roundDiv ((e * 400 : Nat) * (100000000 + s.sleepTrim)) 100000000
    let t := s.record 0x0A c 0 (halves (BitVec.ofNat 64 e))
    let t := { t with clk := { t.clk with ts := t.clk.ts + BitVec.ofInt 64 adv, sleep := BitVec.ofNat 40 e } }
    let t := ringTo c 1 t
    let a := t.rg c
    let t := t.setRg c { a with
      wake := a.sleep.map fun x => (x.1 + word x.2, x.2, e), cands := 0, fromSt := 1, bkWait := false, begun := false }
    let t := t.setFld (rgA c 0x50) 16 16 (t.fld (rgA c 0x50) 16 16 + 1)
    let t := t.emit .ringWake (.unit (ringUn c)) []
    forAll (t.groups.filter fun g => t.powered g && !t.gFenced g .link) (fun g u =>
      if (u.gr g).vf then bringUp 2 g (((r.find? fun x => decide (x.1 = g)).map (·.2)).getD {}) u else groupUnpowered g u) t
  else s)

/-- The rounds of a sleep: ⌈time / PERIOD⌉ (R373). -/
def State.sleepRounds (s : State) (c : Nat) (t : Qty) : Nat :=
  if t.num ≤ 0 then 0 else ceilDiv (t.num.toNat * scaleOf (t.unit.getD .s)) (10 ^ t.dec * (1000 * max 1 (s.period c)))

/-- RING_COCOON (R373). -/
def execRingCocoon (ln : Line) (c : Nat) (t : Qty) (at_ : Option Nat) (s : State) : Host.Outcome State Fault Refusal :=
  let no (u : State) : Nat := at_.getD (((u.rg c).round + 2).toNat)
  done (runLine ln {} (fun u =>
      let m := u.sleepRounds c t
      let ahead := (word (no u) - (u.rg c).round).toNat
      ringObj c u ++ [(.unit, qBad t .s), (.armed, u.sup.armed),
       (.notstopped, decide (u.ringSt c ≠ 4) || (decide (u.ringSt (1 - c) ≠ 0) && decide (u.ringSt (1 - c) ≠ 5))),
       (.range, decide (2 ^ 32 ≤ no u) || decide (ahead < 1) || decide (65535 < ahead) ||
         decide (604800000000 < m * u.period c) || decide (m * u.period c ≤ u.guard c m + u.lead c))])
    (okay fun u => u.setRg c { u.rg c with sleep := some (word (no u), u.sleepRounds c t) }) s)

/-! ### Commands (R381) -/

/-- NOTSTOPPED of the forms that both controllers own. -/
def rwsBoth (s : State) : List (Code × Bool) := [rws 0 s, rws 1 s, (.fenced, s.fenced .shadow)]

/-- RING_ROLE (R381). -/
def execRingRole (ln : Line) (c : Nat) (r : Role) (s : State) : Host.Outcome State Fault Refusal :=
  done (runLine ln {} (fun t => rwsChecks c t ++
      [(.range, match r with | .backup k => decide (k = 0) || decide (3 < k) | _ => false)])
    (okay fun t => match r with
      | .tk => t.setFld (rgA c 0x40) 0 4 1
      | .follower => t.setFld (rgA c 0x40) 0 4 0
      | .backup k => t.setFld (rgA c 0x40) 0 4 (2 + 4 * k)) s)

/-- RING_SEG (R360). -/
def execRingSeg (ln : Line) (c n : Nat) (s : State) : Host.Outcome State Fault Refusal :=
  done (runLine ln {} (fun t => rwsChecks c t ++ [(.range, decide (255 < n))]) (okay fun t => t.setFld (rgA c 0x40) 8 8 n) s)

/-- RING_POSM (R360). -/
def execRingPosm (ln : Line) (c : Nat) (p : Posm) (s : State) : Host.Outcome State Fault Refusal :=
  done (runLine ln {} (rwsChecks c)
    (okay fun t => t.setFld (rgA c 0x40) 4 2 (match p with | .hop => 0 | .table => 1 | .either => 2)) s)

/-- Writes an entry of the position table (R384). -/
def writePostab (c e : Nat) (uid : BitVec 128) (v : Nat) (s : State) : State :=
  let a := 0x4002C000 + 0x2000 * c + 0x20 * e
  (List.range 4).foldl (fun t i => t.setReg (a + 4 * i) (uid.extractLsb' (32 * i) 32)) (s.setReg (a + 0x10) (word v))

/-- RING_POSTAB (R360, R384). -/
def execRingPostab (ln : Line) (c e : Nat) (v : Option (BitVec 128 × Nat)) (s : State) : Host.Outcome State Fault Refusal :=
  done (runLine ln {} (fun t => rwsChecks c t ++
      [(.range, decide (255 < e) || (match v with | some x => decide (x.2 = 0) || decide (255 < x.2) | none => false))])
    (okay fun t => match v with
      | some x => writePostab c e x.1 (0x100 + x.2) t
      | none => writePostab c e 0 0 t) s)

/-- RING_BRIDGE (R367): ignored on a part with one controller. -/
def execRingBridge (ln : Line) (on : Bool) (bcast : Option Bool) (s : State) : Host.Outcome State Fault Refusal :=
  done (runLine ln {} rwsBoth
    (okay fun t =>
      if t.member.rings < 2 then t else
        let t := t.setFlag (rgA 1 0x40) 6 on
        match bcast with
        | some b => t.setFlag (rgA 1 0x40) 7 b
        | none => t) s)

/-- RING_BRIDGE_ENTRY (R370, R384): a part with one controller has no bridge (R12). -/
def execRingBridgeEntry (ln : Line) (e src slot cell count j dcell : Nat) (s : State) : Host.Outcome State Fault Refusal :=
  done (runLine ln {} (fun t => rwsBoth t ++ [(.arg, decide (2 ≤ src)), (.absent, decide (t.member.rings < 2)),
      (.range, decide (255 < e) || decide (4095 < slot) || decide (63 < cell) || decide (count = 0) || decide (64 < count) ||
        decide (63 < j) || decide (63 < dcell))])
    (okay fun t => (t.setReg (0x4002A000 + 8 * e) (word (slot + 0x1000 * src + 0x2000 * cell + 0x80000 * count))).setReg
      (0x4002A004 + 8 * e) (word (j + 0x40 * dcell))) s)

/-- RING_REACH_DOWN (R368, R384). -/
def execRingReachDown (ln : Line) (down : Bool) (seg : Nat) (on : Bool) (s : State) : Host.Outcome State Fault Refusal :=
  done (runLine ln {} (fun t => rwsBoth t ++ [(.range, decide (255 < seg))])
    (okay fun t => t.setFlag ((if down then 0x4002A820 else 0x4002A800) + 4 * (seg / 32)) (seg % 32) on) s)

/-- RING_RHO (R375). -/
def execRingRho (ln : Line) (c : Nat) (q : Qty) (s : State) : Host.Outcome State Fault Refusal :=
  let v := qSteps q .ppm 1 1
  done (runLine ln {} (fun t => ringObj c t ++ [(.unit, qBad q .ppm), (.range, outside v 2 100)])
    (okay fun t => t.setFld (rgA c 0x48) 0 7 v.toNat) s)

/-- RING_SLEEP_GET (R381). -/
def execRingSleepGet (ln : Line) (c : Nat) (s : State) : Host.Outcome State Fault Refusal :=
  done (runLine ln { locked := false } (ringObj c) (value fun t =>
    [ks "trim" t.sleepTrim 2 "ppm", ky "learned" (t.flag (rgA c 0x44) 7),
     { key := "rho", val := .n (t.fld (rgA c 0x48) 0 7), unit := "ppm" },
     { key := "ofs", val := .n (t.reg (rgA c 0x4C)).toInt, unit := "us" }, kn "wakes" (t.fld (rgA c 0x50) 16 16)]) s)

/-- RING_PORT_GET (R380, R381). -/
def execRingPortGet (ln : Line) (c port : Nat) (s : State) : Host.Outcome State Fault Refusal :=
  done (runLine ln { locked := false } (fun t => ringObj c t ++ [(.arg, decide (2 ≤ port))]) (value fun t =>
    [ky "up" (t.flag (rpA c port 0) 0), ky "wrap" (t.flag (rpA c port 0) 1), ky "suspect" (t.flag (rpA c port 0) 2),
     kn "dlmoow" (t.fld (rpA c port 4) 0 16), kn "hchk" (t.fld (rpA c port 4) 16 16), kn "crc" (t.fld (rpA c port 8) 0 16),
     kn "markoow" (t.fld (rpA c port 8) 16 16), kn "noise" (t.fld (rpA c port 0xC) 0 16),
     kn "firstoow" (t.fld (rpA c port 0x10) 0 24)]) s)

/-- RING_PORT_CLEAR (R380, R381). -/
def execRingPortClear (ln : Line) (c port : Nat) (s : State) : Host.Outcome State Fault Refusal :=
  done (runLine ln {} (fun t => ringObj c t ++ [(.arg, decide (2 ≤ port))])
    (okay fun t => ((t.setReg (rpA c port 4) 0).setReg (rpA c port 8) 0).setReg (rpA c port 0xC) 0) s)

end Sys2Proof.Machine
end

