-- ==== Sys2Proof/Machine/RegAccess.lean ====
section
/-!
DEFINITION. What a read of a register shows and what a write does (chapter 19 with the register tables of every chapter).
-/
namespace Sys2Proof.Machine

/-! ### The command watchdog (R132, R133) -/

/-- The watchdog's period in ms. -/
def State.wdPeriod (s : State) : Nat := s.fld 0x20030 0 20
/-- What is left of the watchdog in ms, rounded up; 0 while it is off (R145). -/
def State.wdLeft (s : State) : Nat :=
  if s.wdog.running then ceilDiv (s.wdPeriod * 400000 - (s.clk.raw - s.wdog.reload)) 400000 else 0
/-- Reloads the watchdog: it runs where it has a period. -/
def kickWdog (s : State) : State :=
  { s with wdog := { running := decide (s.wdPeriod ≠ 0), reload := s.clk.raw } }
/-- Sets the period and reloads the watchdog; 0 stops it. -/
def setWdog (ms : Nat) (s : State) : State := kickWdog (s.setReg 0x20030 (word ms))

/-! ### Reads -/

/-- The set of registers that a mode selects starts this far above its offsets (R530). -/
def setHome (m : Nat) : Nat := if isDi m then 0 else if m = 3 then 0x100 else if isAi m then 0x200 else 0x300

/-- The key of a channel register under the stored mode. -/
def State.chKey (s : State) (n o : Nat) : Nat :=
  if 0x40 ≤ o ∧ o ≤ 0x64 then chA n (o + setHome (s.mode n)) else chA n o

/-- SERVICE (R68, R47): its reset value before S2, core in crawl mode or before the run stage, full with no unit fenced, else basic. -/
def State.service (s : State) : Nat :=
  if s.sup.stage < 2 then 0 else if s.sup.crawl || decide (s.sup.stage < 8) then 1 else if s.fenceCount = 0 then 3 else 2

/-- A number as a word with a bit set. -/
def bitAt (i : Nat) (b : Bool) : Nat := if b then 2 ^ i else 0

/-- SYS (Table 2.11 to R73, R523). -/
def State.sysView (s : State) (a : Nat) : Word :=
  if a = 0 then s.member.sysId
  else if a ≤ 0x10 then s.uid.extractLsb' (8 * (a - 4)) 32
  else if a = 0x20 then
    word (s.sup.stage + 0x10 * s.service + bitAt 6 s.sup.crawl + bitAt 7 s.sup.xoLate + 0x100 * s.sup.profSrc)
  else if a = 0x2C then
    setBit (setBit (setBit (s.reg 0x2C) 0 s.sup.holdupLow) 2 s.sup.vanaOk) 3 s.sup.vdramOk
  else if a = 0x34 then
    (if s.clk.raw < 4000000 then 0x8000 else (Config.junctionTemp s.clk.tjBase (s.clk.raw / 4000000)).setWidth 32)
  else if 0x40 ≤ a ∧ a < 0x60 then setBit (s.reg a) 9 (s.unpowered ((a - 0x40) / 4))
  else s.reg a

/-- The sequence number of the oldest entry, or of the next (R145). -/
def State.headSeq (s : State) : BitVec 16 :=
  match s.evq with
  | e :: _ => e.seq
  | [] => s.evNext

/-- CPkSTAT (Table 4.10). -/
def State.portView (s : State) (e : Ep) : Word :=
  s.reg (aPstat e) + word (bitAt 4 (s.locked e) + 0x100 * (s.port e).tags.length + 0x10000 * (s.port e).remote.length)

/-- CLK and CMD (Tables 3.2, 3.3, 4.8). -/
def State.clkView (s : State) (a : Nat) : Word :=
  if a = 0x10000 then
    s.reg a + word (bitAt 0 s.sup.pllLock + bitAt 1 (!s.sup.pllLock && decide (2 ≤ s.sup.stage)) + bitAt 2 (s.flag 0x24 21) + bitAt 3 s.clk.slewing +
      0x10 * s.timeSrc)
  else if a = 0x10004 then s.clk.ts.extractLsb' 0 32
  else if a = 0x10008 then s.clk.ts.extractLsb' 32 32
  else if a = 0x1000C then wordI s.effT
  else if a = 0x10014 then wordI s.slewTicks
  else if a = 0x20004 then s.portView .cp0
  else if a = 0x20014 then s.portView .cp1
  else if a = 0x20020 then s.reg a + word (s.evq.length + 0x10000 * s.headSeq.toNat)
  else if a = 0x20034 then word s.wdLeft
  else if a = 0x20040 then
    word (bitAt 0 s.pwSet + bitAt 1 (s.pwSet && s.cp0.unlocked) + bitAt 2 (s.pwSet && s.cp1.unlocked) +
      bitAt 3 (s.pwSet && s.mail.unlocked) +
      0x10 * min 3 s.pwFails + bitAt 6 (decide (3 ≤ s.pwFails)))
  else s.reg a

/-- The check-value unit of number u. -/
def cvuAt : Nat → Un
  | 0 => .cvuL0 | 1 => .cvuL1 | 2 => .cvuL2 | 3 => .cvuL3 | 4 => .cvuC0 | 5 => .cvuC1 | _ => .cvuF

/-- SAFE and CVU (Tables 11.8, 14.3). -/
def State.safeView (s : State) (a : Nat) : Word :=
  if a = 0x30000 then
    word (bitAt 0 s.sup.armed + bitAt 1 s.sup.safeLow + bitAt 2 (decide (s.safeCount s.chans ≠ 0)))
  else if 0x30300 ≤ a ∧ a < 0x30500 then
    let n := (a - 0x30300) / 4
    word (s.chst n + 0x10000 * s.holdLeft n)
  else if 0x40000 ≤ a ∧ a < 0x40070 ∧ a % 16 = 0 then
    let u := (a - 0x40000) / 16
    word (bitAt 0 (s.fenced (cvuAt u)) + 0x10000 * min 0xFFFF (s.katAge u))
  else s.reg a

/-- The numbers of a list as the bits of a word. -/
def bitsOf (l : List Nat) : Word := word ((l.map fun k => 2 ^ k).sum)

/-- RING and SKIP (Tables 12.10, 13.5, 7.8). -/
def State.ringView (s : State) (a : Nat) : Word :=
  let c := (a - 0x50000) / 0x100
  if a = rgA c 0 ∧ c < 2 then
    let ad := s.ringAddr c
    word (s.ringSt c + bitAt 4 (s.sendsMarks c) + bitAt 5 (decide (s.discCtl = some c)) + 0x100 * ((s.ringPos c).getD 0 % 256) +
      0x10000 * ad.pos.toNat + 0x1000000 * ad.seg.toNat)
  else if a = rgA c 0x30 ∧ c < 2 then setBits (s.reg a) 0 6 (s.rg c).queue.length
  else s.reg a

/-- SKIP (Table 7.8). -/
def State.skipView (s : State) (a : Nat) : Word :=
  let ks := List.range s.member.reflexes
  if a = 0x60000 then word s.member.reflexes
  else if a = 0x6000C then bitsOf (ks.filter (s.skHolding ·))
  else if a = 0x60010 then bitsOf (ks.filter (s.skPending ·))
  else if 0x60100 ≤ a ∧ a % 0x20 = 0xC then
    let k := (a - 0x60100) / 0x20
    setBit (setBit (setBit (s.reg a) 0 (s.skHolding k)) 1 (s.skPending k)) 3 (s.skInactive k)
  else s.reg a

/-- OP of a profile bank (Table 15.8). -/
def PfKind.op : PfKind → Nat
  | .program _ _ => 1 | .eraseSector _ _ _ => 2 | .eraseBank _ => 3 | .setPw _ => 5 | .protect _ => 6 | .swap _ _ _ _ => 1
  | .tally _ _ _ _ => 7 | .ladderErase _ _ _ _ => 7

/-- The channel of the snapshot in progress. -/
def State.tallyNow (s : State) : Option Nat :=
  [0, 1].findSome? fun b => match s.pfOp b with
    | some (.tally n _ _ _) => some n
    | some (.ladderErase n _ _ _) => some n
    | _ => none

/-- The bytes recorded in the last whole second (REC.RATE). -/
def State.recRate (s : State) : Nat :=
  let sec := s.clk.raw / 400000000
  if sec = s.chrys.secIdx then s.chrys.secLast else if sec = s.chrys.secIdx + 1 then s.chrys.secBytes else 0

/-- REC and FLASHCTL (Tables 17.8, 16.9, 15.8, 16.8). -/
def State.flashView (s : State) (a : Nat) : Word :=
  if a = 0x7001C then word s.recRate
  else if a = 0x70028 then word (min 0xFFFF s.durables + 0x10000 * s.freeBlocks)
  else if a = 0x70F04 then word s.member.trailSize
  else if a = 0x80000 ∨ a = 0x80004 then
    let b := (a - 0x80000) / 4
    let op := match s.pfOp b with | some k => k.op | none => 0
    s.reg a + word (bitAt 0 (s.pfBusy b) + 2 * op + 0x20 * (s.pfSeq b).step)
  else if a = 0x80008 then
    word (((List.range 8).map fun k => bitAt k (s.isProtected k)).sum + bitAt 8 s.pwSet + bitAt 9 s.session)
  else if a = 0x80014 then
    word (bitAt 0 s.tallyNow.isSome + 2 * s.tallyNow.getD 0 + 0x100 * min 0xFF s.pf.queue.length)
  else if a = 0x8010C then setBits (s.reg a) 8 8 (min 0xFF s.badBlocks)
  else if 0x80120 ≤ a ∧ a < 0x80140 then
    let b := (a - 0x80120) / 4
    let op := match s.rfOp b with | some o => if o.erase then 3 else 2 | none => 0
    s.reg a + word (bitAt 0 (s.rfBusy b) + 2 * op)
  else if 0x80400 ≤ a ∧ a < 0x80C00 then
    let n := (a - 0x80400) / 4
    word (s.rfCount n + bitAt 16 (s.rfBad n) + bitAt 17 (s.rf.fact.getLsbD n) + bitAt 18 (decide (3000 ≤ s.rfCount n)) +
      bitAt 19 (decide (n < 2)))
  else if 0x88000 ≤ a ∧ a < 0x8C800 then s.rf.hbuf.get (hbufIdx a)
  else s.reg a

/-- The registers of a channel (Tables 5.5, 6.5, 8.6, 10.10). -/
def State.chanView (s : State) (n o : Nat) : Word :=
  if o = 0x10 then s.driveWord n
  else if o = 0x14 then s.stat n
  else if o = 0x84 then
    let x := setBit (s.reg (chA n 0x84)) 17 (s.flag (aStat n) 1)
    if isAi (s.mode n) || isAo (s.mode n) then x else x &&& 0x007C0000
  else if 0x40 ≤ o ∧ chanAcc (s.mode n) o = some .ignored then 0
  else if isDi (s.mode n) && decide (o = 0x50) then setBit (s.reg (chA n 0x50)) 1 ((s.ch n).raw != s.invert n)
  else if s.mode n = 3 ∧ o = 0x50 then word (s.percent n + 0x10000 * min 3 (s.retryCount n))
  else s.reg (s.chKey n o)

/-- The registers of a group (Tables 5.8, 10.11). -/
def State.grpView (s : State) (g o : Nat) : Word :=
  if o = 8 then word (s.dohSum g)
  else if o = 0xC then (match s.temp g with | some v => wordI v &&& 0xFFFF | none => 0x8000)
  else if o = 0x10 then word ((s.vf g).getD 0)
  else if o = 0x58 then setBit (s.reg (grA g o)) 2 (s.xIdle g)
  else s.reg (grA g o)

/-- The word of the profile flash at an offset, without what a read reports: the password words read 0 (R403). -/
def State.pfShow (s : State) (off : Nat) : Word :=
  let a := off / 8 * 8
  if a = pwWord 0 ∨ a = pwWord 1 then 0 else (s.pfWord a).data.extractLsb' (if off % 8 < 4 then 0 else 32) 32

/-- What a read of the register at an address shows: the absent encoding (R525), 0 of a WO register (Table 0.2).
DESIGN CHOICE: assumption 26. -/
def State.view (s : State) (a : Nat) : Word :=
  if s.member.lacks a then 0xA85EA85E
  else if s.access a = some .wo then 0
  else if a < 0x10000 then s.sysView a
  else if a < 0x30000 then s.clkView a
  else if a < 0x50000 then s.safeView a
  else if a < 0x60000 then s.ringView a
  else if a < 0x70000 then s.skipView a
  else if a < 0x10000000 then s.flashView a
  else if a < 0x18000000 then
    let o := a % 0x1000000
    if o < 0x10000 then s.chanView (chanOf a).1 (chanOf a).2 else s.grpView (a / 0x1000000 % 16) (o - 0x100000)
  else if a < 0x80000000 then s.reg a
  else if a < 0xC0000000 then s.pfShow (a - 0x80000000)
  else s.trailWord (a - 0xC0000000)

/-! ### Writes -/

/-- Clears the bits of a mask where a word has ones (W1C). -/
def clearOnes (k : Nat) (mask v : Word) (s : State) : State := s.setReg k (s.reg k &&& ~~~(v &&& mask))

/-- The W1C bits of STAT by mode (Tables 5.7, 6.6, 8.7, 9.6, 9.8, R214). -/
def statW1c (m : Nat) : Word :=
  if isDi m then 0x001E0004 else if m = 3 then 0x06000004 else if m = 4 then 0x00020004 else if isAi m then 0x09000004
  else if isAo m then 0x00300004 else 4

/-- A write of MODE (Table 5.6, R155 to R157, R162): reserved codes, a partner of a 4-wire master and a DOH over the group's
budget are stored as OFF, WIRES4 out of place as 0, each with CFGERR. A write of OFF to a partner substitutes nothing and sets none
(Table 5.7): DESIGN CHOICE: assumption 97. ETS cleared while the kind is ON rewrites the kind (R152); a kind that a new mode does not
accept is rewritten when the mode is applied. -/
def writeMode (n : Nat) (v : Word) (s : State) : State :=
  let m := bits v 0 4
  let slave := s.flag (chA n 0) 5
  let excess := decide (m = 3) && decide (12000 < s.dohSumWith (n / 16) n (10 * s.fld (chA n 0x140) 0 8))
  let bad := decide (9 < m) || (slave && decide (m ≠ 0)) || excess
  let m := if bad then 0 else m
  let w4 := bit v 4
  let badW := w4 && (decide (n % 2 = 1) || decide (m ≠ 7))
  let t := (s.setFlag (chA n 0) 6 (bit v 6)).setFlag (chA n 0) 7 (bit v 7)
  let t := cfgErr n (bad || badW) (storeMode n m (w4 && !badW) t)
  if s.flag (chA n 0) 7 && !bit v 7 && decide (s.fld (chA n 4) 0 2 = 1) then checkKind n t else t

/-- A write of SAFE (Table 5.5, R152, R247). -/
def writeSafe (n : Nat) (v : Word) (s : State) : State :=
  let m := s.mode n
  let badK := isOut m && !kindOk m (bits v 0 2) (s.flag (chA n 0) 7)
  let badV := isAo m && decide (aoMax m < bits v 16 16)
  let v := v &&& 0xFFFF0003
  let v := if badK then setBits v 0 2 0 else v
  let v := if badV then setBits v 16 16 (aoMax m) else v
  cfgErr n (badK || badV) (withSafe n (fun t => t.setReg (chA n 4) v) s)

/-- A write of OUT (Table 5.5, R247). DEDUCED: assumption 28. -/
def writeOut (n : Nat) (v : Word) (s : State) : State :=
  let m := s.mode n
  if s.flag (chA n 0) 6 then s
  else if isAo m && decide (aoMax m < bits v 0 16) then cfgErr n true (setOut n (aoMax m) s)
  else setOut n (bits v 0 16) s

/-- A write of DOH.CFG (Table 8.6, R157, R224). -/
def writeDohCfg (n : Nat) (v : Word) (s : State) : State :=
  let r := clamp 10 200 (bits v 0 8)
  let w := clamp 1 200 (bits v 16 8)
  let x := clamp 10 40 (bits v 24 6)
  let wire := if bits v 8 3 = 7 then 0 else bits v 8 3
  let sub := decide (r ≠ bits v 0 8) || decide (w ≠ bits v 16 8) || decide (x ≠ bits v 24 6) || decide (wire ≠ bits v 8 3)
  let v := setBits (setBits (setBits (setBits (v &&& 0x3FFF7FFF) 0 8 r) 16 8 w) 24 6 x) 8 3 wire
  let excess := decide (12000 < s.dohSumWith (n / 16) n (10 * r))
  let t := cfgErr n sub (s.setReg (chA n 0x140) v)
  if excess then cfgErr n true (storeMode n 0 false t) else holdFence [n] t

/-- A write of a register of a channel's common set (Table 5.5). -/
def writeCommon (n o : Nat) (v : Word) (s : State) : State :=
  if o = 0 then writeMode n v s
  else if o = 4 then writeSafe n v s
  else if o = 8 then withSafe n (fun t => t.setReg (chA n 8) (word (max 1 (bits v 0 16)))) s
  else if o = 0xC then writeOut n v s
  else if o = 0x14 then clearOnes (aStat n) (statW1c (s.mode n)) v s
  else s

/-- A write of a register of the set that the stored mode selects (R530). COUNTHI writes the whole count (R183). -/
def writeSet (n o : Nat) (v : Word) (s : State) : State :=
  let m := s.mode n
  if isDi m then
    if o = 0x40 then writeDiCfg n v s
    else if o = 0x44 then writeDebounce n (bits v 0 21) s
    else if o = 0x48 then s
    else if o = 0x4C then setCount n (v ++ s.reg (chA n 0x48)) s
    else if o = 0x5C then writePersist n v s
    else if o = 0x60 ∨ o = 0x64 then s.setReg (chA n o) v
    else s
  else if m = 3 then
    if o = 0x40 then writeDohCfg n v s
    else if o = 0x44 then
      let x := clamp 5 80 (bits v 0 7)
      cfgErr n (decide (x ≠ bits v 0 7)) (s.setReg (chA n 0x144) (word x))
    else if o = 0x48 then
      let u := bits v 0 8
      let x := if u = 0 then 0 else clamp 5 200 u
      cfgErr n (decide (x ≠ u)) (s.setReg (chA n 0x148) (word (x + bitAt 8 (bit v 8))))
    else if o = 0x54 then s.setReg (chA n 0x154) v
    else if o = 0x58 then (if bit v 0 then tripClear n s else s)
    else s
  else if isAi m then (if o = 0x40 then writeAiCfg n v s else if o = 0x44 then writeAiDiag n (bits v 0 14) s else s)
  else if isAo m then (if o = 0x40 then writeAoDev n v s else if o = 0x44 then writeAoRbchk n v s else s)
  else s

/-- A write of a conversion register (Table 10.10). -/
def writeConv (n o : Nat) (v : Word) (s : State) : State :=
  let m := s.mode n
  if o = 0x80 then (if isAi m || isAo m then writeConvCfg n v s else s)
  else if !isAi m then s
  else if o = 0x88 then writeWinCfg n v s
  else if o = 0x98 then clearOnes (chA n 0x98) 4 v s
  else if o = 0x8C ∨ o = 0x90 ∨ o = 0x94 then writeWinLimit n o v s
  else s

/-- A write of a group register (Tables 5.8, 10.11). -/
def writeGrp (g o : Nat) (v : Word) (s : State) : State :=
  if o = 4 then s.setReg (grA g 4) (v &&& 0xFFFF)
  else if o = 0x40 then writeSync g v s
  else if o = 0x44 then writeRotCfg g v s
  else if o = 0x48 then clearOnes (grA g 0x48) 0x6000 v s
  else if o = 0x4C then s.setReg (grA g 0x4C) v
  else if o = 0x54 then writeXchkCfg g v s
  else if o = 0x58 then clearOnes (grA g 0x58) 2 v s
  else s

/-- CPkCFG: MAILTO is stored as the nearer limit (Table 4.9). -/
def cfgWord (v : Word) : Word := (v &&& 0x7F) + word (0x10000 * clamp 10 60000 (bits v 16 16))

/-- A write of a register of the SYS, CLK, CMD, SAFE or CVU block. CPkCFG is written here but for MODE and BAUD, which take
effect after the response (R138). -/
def writeSys (a : Nat) (v : Word) (s : State) : State :=
  if a = 0x28 then clearOnes 0x28 0x3F v s
  else if a = 0x2C then clearOnes 0x2C 2 v s
  else if a = 0x10000 then clearOnes 0x10000 0xC0 v s
  else if a = 0x10010 then s.setReg a (wordI (trimLimit v.toInt))
  else if a = 0x10018 then s.setReg a (wordI (clampI (-25000) 25000 v.toInt))
  else if a = 0x20000 ∨ a = 0x20010 then s.setReg a ((cfgWord v &&& 0xFFFFFF8E) ||| (s.reg a &&& 0x71))
  else if a = 0x20004 ∨ a = 0x20014 then clearOnes a 0xF v s
  else if a = 0x20020 then clearOnes a 0x200 v s
  else if a = 0x20030 then setWdog (if bits v 0 20 = 0 then 0 else clamp 10 600000 (bits v 0 20)) s
  else if a = 0x30008 then
    match bits v 0 2 with
    | 0 => (release .dev s).2
    | 1 => (release (.grp (bits v 4 3)) s).2
    | 2 => (release (.ch { g := bits v 8 7 / 16, c := bits v 8 7 % 16 }) s).2
    | _ => s
  else if 0x30040 ≤ a ∧ a < 0x30050 then
    let l := ((List.range 32).map fun j => 8 * (a - 0x30040) + j).filter fun n => decide (n < s.member.channels)
    setAutorel (l.filter fun n => bit v (n % 32)) true (setAutorel (l.filter fun n => !bit v (n % 32)) false s)
  else if 0x40000 ≤ a then s.setReg a v
  else s

/-- A write of RING.ROLEc (Table 13.5): ROLE 3 is stored as follower, POSM 3 as hop count; BRIDGE is ring1's. -/
def roleWord (c : Nat) (v : Word) : Word :=
  let v := v &&& (if c = 1 then 0xFFFF else 0xFFBF)
  let v := if bits v 0 2 = 3 then setBits v 0 2 0 else v
  if bits v 4 2 = 3 then setBits v 4 2 0 else v

/-- A write of a register of controller c (Tables 12.10, 13.5). -/
def writeRing (c o : Nat) (v : Word) (s : State) : State :=
  let a := rgA c o
  if o = 4 then (if bit v 1 then ringStop c s else if bit v 0 then (ringStart [c] s).1 else s)
  else if o = 8 then s.setReg a (setBits (v &&& 0xFFFF0003) 16 16 (max 1 (bits v 16 16)))
  else if o = 0xC then s.setReg a (word (clamp 20 10000000 (bits v 0 24)))
  else if o = 0x10 then s.setReg a (word (min 4096 (bits v 0 13)))
  else if o = 0x14 then s.setReg a (v &&& 0xFFFFFF)
  else if o = 0x2C then clearOnes a 4 v s
  else if o = 0x34 then writeCommit c v s
  else if o = 0x40 then s.setReg a (roleWord c v)
  else if o = 0x48 then s.setReg a (word (clamp 2 100 (bits v 0 7)))
  else if o % 0x20 = 4 ∨ o % 0x20 = 8 then s.setReg a v
  else if o % 0x20 = 0xC then s.setReg a (v &&& 0xFFFF)
  else s

/-- A write of a reflex register (Table 7.8). -/
def writeSkip (k q : Nat) (v : Word) (s : State) : State :=
  let err (b : Bool) (t : State) : State := if b then t.setFlag (skA k 0xC) 2 true else t
  if q = 0 then
    let b := decide (bits v 8 2 = 3)
    err b (s.setReg (skA k 0) (if b then setBits (v &&& 0x137F) 8 2 0 else v &&& 0x137F))
  else if q = 4 then
    let b := decide (5 < bits v 0 3)
    let r := decide (bits v 12 2 = 3)
    let v := v &&& 0x77FF
    let v := if b then setBits v 0 3 5 else v
    err (b || r) (s.setReg (skA k 4) (if r then setBits v 12 2 0 else v))
  else if q = 8 then s.setReg (skA k 8) (if v = 0 then 1 else v)
  else if q = 0xC then clearOnes (skA k 0xC) 4 v s
  else s.setReg (skA k q) v

/-- A write of a register of the RING, SKIP, REC or FLASHCTL block. -/
def writeBlock (a : Nat) (v : Word) (s : State) : State :=
  if a < 0x50200 then writeRing (a / 0x100 % 2) (a % 0x100) v s
  else if a < 0x50C00 then
    let n := (a - 0x50800) / 8
    if a % 8 = 0 then judgeAge n (s.setReg a (v &&& 0x7FFFF)) else judgeAge n (s.setReg a (word (max 1 (bits v 0 16))))
  else if a = 0x60004 then s.setReg a (v &&& 1)
  else if a = 0x60008 then
    forAll (List.range s.member.reflexes) (fun k t => setEnable k (bit v k) t) s
  else if a < 0x60500 then writeSkip ((a - 0x60100) / 0x20) (a % 0x20) v s
  else if a = 0x70000 then
    let t := s.setReg a (v &&& 3)
    if bit v 0 then t else endEpoch t
  else if a = 0x70008 then s.setReg a (v &&& 0x3FF)
  else if a = 0x7000C then s.setReg a (word (clamp 1 3600 (bits v 0 16) + 0x10000 * min 600 (bits v 16 16)))
  else if a = 0x70010 ∨ a = 0x70014 then s.setReg a (word (clamp 100 10000 (bits v 0 14)))
  else if a = 0x70018 then s.setReg a (word (bits v 0 8 % 2 ^ s.member.banks))
  else if a < 0x80000 then s.setReg a v
  else if a = 0x80000 ∨ a = 0x80004 then clearOnes a 0x3010 v s
  else if a = 0x80100 then s.setReg a (v &&& 0xF)
  else if a = 0x80110 then s.setReg a (v &&& 0x1FFFF)
  else if a = 0x80114 then writeRcmd v s
  else if a < 0x80140 then clearOnes a 0x1808 v s
  else if 0x88000 ≤ a then writeHbuf a v s
  else s

/-- The bits that a shadow word holds (R224, R325, R335, R341, R384). -/
def shadowMask (a : Nat) : Word :=
  if a < 0x40002040 then (if a % 8 = 0 then 0xFFFFF else 0xFFFF)
  else if a < 0x40020000 then (if a % 8 = 0 then 0xFFFFFFFF else 0x0FFFFFFF)
  else if a < 0x40028000 then 0x7FF
  else if a < 0x40028800 then 0xFFFF
  else if a < 0x4002A800 then (if a % 8 = 0 then 0x3FFFFFF else 0xFFF)
  else if 0x4002C000 ≤ a ∧ a < 0x40030000 ∧ a % 0x20 = 0x10 then 0x1FF
  else 0xFFFFFFFF

/-- The effect of a write of the register at a present address, its conditions met (R138). -/
def regWrite (a : Nat) (v : Word) (s : State) : State :=
  if a < 0x50000 then writeSys a v s
  else if a < 0x10000000 then writeBlock a v s
  else if a < 0x18000000 then
    let o := a % 0x1000000
    if o < 0x10000 then
      let n := (chanOf a).1
      let q := (chanOf a).2
      if q < 0x40 then writeCommon n q v s else if q ≤ 0x64 then writeSet n q v s else writeConv n q v s
    else writeGrp (a / 0x1000000 % 16) (o - 0x100000) v s
  else if a < 0x80000000 then s.setReg a (v &&& shadowMask a)
  else s

/-! ### Profile records (R420 to R422, R527) -/

/-- Whether an address lies in the ranges that a record may target (R421). -/
def recordRange (a : Nat) : Bool :=
  decide (a = 0x10010) || decide (a = 0x10018) || (decide (0x30000 ≤ a) && decide (a < 0x40000)) ||
  (decide (0x50000 ≤ a) && decide (a < 0x80000)) || (decide (0x10000000 ≤ a) && decide (a < 0x80000000))

/-- Whether a set register that no stored mode selects is writable in some set other than as a count (R421, R530). -/
def someSet (o : Nat) : Bool :=
  decide (o = 0x40 ∨ o = 0x44 ∨ o = 0x48 ∨ o = 0x54 ∨ o = 0x5C ∨ o = 0x60 ∨ o = 0x64) ||
  (decide (0x80 ≤ o) && decide (o ≠ 0x84) && decide (o ≠ 0x98))

/-- Whether a record may target an address, under the modes that stand when it is reached (R421). -/
def State.recordOk (s : State) (a : Nat) : Bool :=
  recordRange a &&
  match s.access a with
  | some .rw =>
    !(decide (0x10000000 ≤ a) && decide (a < 0x18000000) && isDi (s.mode (chanOf a).1) && decide (a % 0x1000000 < 0x10000) &&
      (decide (a % 0x1000 = 0x48) || decide (a % 0x1000 = 0x4C)))
  | some (.rws _) => true
  | some .rwsAll => true
  | some .rwa => true
  | some .ignored => someSet (a % 0x1000)
  | _ => false

/-- Checks and applies the values of a record at an address, 4 apart; absent targets are discarded (R527). -/
def loadValues (a : Nat) : List Word → State → Option State
  | [], s => some s
  | v :: l, s =>
    if s.member.lacks a then loadValues (a + 4) l s
    else if s.recordOk a then loadValues (a + 4) l (regWrite a v s)
    else none

/-- Checks and applies records in slot order; none where one fails. -/
def loadRecords : List (Nat × List Word) → State → Option State
  | [], s => some s
  | (a, vs) :: l, s => (loadValues a vs s).bind (loadRecords l)

/-- The state that a slot's records make of a state; none where they fail R421. -/
def loadSlot (slot : Nat) (s : State) : Option State := (s.records slot).bind fun l => loadRecords l s

/-- The state before S5 as far as the check of a slot sees it: every register at its reset value. -/
def State.blank (s : State) : State := { s with regs := [], chn := [], grp := [], ring := [], evNew := [] }

/-- Whether a slot is a candidate (R422). -/
def State.candidate (s : State) (slot : Nat) : Bool :=
  s.sealOk slot && decide (s.slotLive slot = 0x5A3C) && (loadSlot slot s.blank).isSome

/-- The slot that R422 loads with PROF = 0b00: the higher generation, slot A when they are equal. -/
def State.bestSlot (s : State) : Option Nat :=
  match s.candidate 0, s.candidate 1 with
  | true, true => some (if s.slotGen 0 < s.slotGen 1 then 1 else 0)
  | true, false => some 0
  | false, true => some 1
  | false, false => none

/-- The slot that the PROF strap and the slots select (R38, R63, R422); none for the strap defaults. -/
def State.chosenSlot (s : State) : Option Nat :=
  if s.fenced .pflash || s.fenced .shadow then none
  else match s.fld 0x24 18 2 with
    | 0 => s.bestSlot
    | 1 => none
    | p => if s.sealOk (p - 2) && (loadSlot (p - 2) s.blank).isSome then some (p - 2) else none

end Sys2Proof.Machine
end

