-- ==== Sys2Proof/Machine/ProfileFlash.lean ====
section
/-!
DEFINITION. The profile flash (chapter 15): the sequences through wr, the ends of operations, the prof and tally commands.
Addresses of commands are those of the window at 0x80000000.
-/
namespace Sys2Proof.Machine

/-- Whether the flash controllers run: not in crawl mode (R48). -/
def State.flashRuns (s : State) : Bool := !s.dead && !s.asleep && !s.sup.crawl

/-! ### Sequences through wr (R404, R405) -/

/-- A wr of a word into the window, at an offset in the 4 MiB (R138, R404). -/
def pfLine (ln : Line) (off : Nat) (v : Word) (s : State) : State :=
  let pre := taken ln s
  runLine ln { secret := pre.pwSecret off }
    (fun t => [(.align, !aligned off), (.busybank, t.pfBusy (pfBank off) || t.pwBlocked off)])
    (okay (pfWrite ln.ep off v)) s

/-- The offset of a bank. -/
def pfBase (pb1 : Bool) : Nat := if pb1 then 0x200000 else 0

/-- PFLASH_SEQ_STEP (R404): any write into a bank. -/
def execPflashSeqStep (ln : Line) (off : BitVec 22) (value : Word) (s : State) : Host.Outcome State Fault Refusal :=
  done (pfLine ln off.toNat value s)

/-- PROGRAM_WORD (Table 15.3): the write of the high word, which starts the program after 0x30 and the low word. -/
def execProgramWord (ln : Line) (off : BitVec 22) (high : Word) (s : State) : Host.Outcome State Fault Refusal :=
  done (pfLine ln off.toNat high s)

/-- ERASE_SECTOR (Table 15.3): 0x21 to an address in the sector. -/
def execEraseSector (ln : Line) (off : BitVec 22) (s : State) : Host.Outcome State Fault Refusal :=
  done (pfLine ln off.toNat 0x21 s)

/-- ERASE_BANK (Table 15.3, R417): 0x2E to the base. -/
def execEraseBank (ln : Line) (pb1 : Bool) (s : State) : Host.Outcome State Fault Refusal :=
  done (pfLine ln (pfBase pb1) 0x2E s)

/-- ENTER_PASSWORD (Table 15.3, R413): the write of the high word. -/
def execEnterPassword (ln : Line) (pb1 : Bool) (high : Word) (s : State) : Host.Outcome State Fault Refusal :=
  done (pfLine ln (pfBase pb1 + 0xA48) high s)

/-- SET_PASSWORD (Table 15.3, R412): the write of the high word. -/
def execSetPassword (ln : Line) (pb1 : Bool) (high : Word) (s : State) : Host.Outcome State Fault Refusal :=
  done (pfLine ln (pfBase pb1 + 0xA48) high s)

/-- PROTECT_GROUP (Table 15.3, R414): the local group number. -/
def execProtectGroup (ln : Line) (pb1 : Bool) (k : BitVec 2) (s : State) : Host.Outcome State Fault Refusal :=
  done (pfLine ln (pfBase pb1 + 0xA48) (k.setWidth 32) s)

/-- CLEAR_STATUS (Table 15.3, R431): the command byte 0x90. -/
def execClearStatus (ln : Line) (pb1 : Bool) (s : State) : Host.Outcome State Fault Refusal :=
  done (pfLine ln (pfBase pb1 + 0xA48) 0x90 s)

/-- PFLASH_SEQ_TIMEOUT (R404): 100 ms out of IDLE. -/
def execPflashSeqTimeout (b : Nat) (s : State) : Host.Outcome State Fault Refusal :=
  done (if s.flashRuns && decide (b < 2) && decide ((s.pfSeq b).step ≠ 0) then seqAbandon b s else s)

/-- PFLASH_FACTORY_CHECK (Table 11.4, R402): the check waits while PB1 is busy. -/
def execPflashFactoryCheck (uncorr : Bool) (s : State) : Host.Outcome State Fault Refusal :=
  done (if s.flashRuns && uncorr && !s.pfBusy 1 then fenceUnit true .pflash s else s)

/-! ### Ends of operations (R410, R423, R425, R431, R432) -/

/-- PFLASH_DONE (R432). -/
def pfDone (b : Nat) (op : String) (code : Nat) (s : State) : State :=
  s.emit .pflashDone (.unit .pflash) [fw (if b = 0 then "pb0" else "pb1"), fw op, fw (pfResult code)]

/-- Ends an erase that a prof form started. -/
def pfEraseEnd (b : Nat) (prof : Bool) (op : String) (code : Nat) (s : State) : State :=
  let t := pfFinish b code s
  if prof then pfDone b op code t else t

/-- The slot letter of the prof forms. -/
def slotText (slot : Nat) : String := if slot = 0 then "a" else "b"

/-- Four hexadecimal digits. -/
def hex4 (v : Nat) : String := String.ofList (hexText 4 v)

/-- Ends a swap (R423, R432): its result, the generation programmed, the CRC computed. -/
def swapEnd (slot : Nat) (code : Option Nat) (gen : Option Nat) (crc : Nat) (s : State) : State :=
  let t := setPfOp 1 none (setPfOp 0 none s)
  let t := match code with
    | some c => pfEnd 1 c (pfEnd 0 c t)
    | none => (t.setFlag (aPst 0) 4 true).setFlag (aPst 1) 4 true
  let res := match code with | some c => pfResult c | none => "crcdiff"
  let g : Fld := match gen with | some n => fn n | none => fw "-"
  let t := t.emit .profSwap (.unit .pflash) [fw (slotText slot), g, fw res]
  pfAnswer slot (.vals [kw "result" res, { g with key := "gen" }, kw "crc" (hex4 crc)]) t

/-- The seal word of a new generation (R418). -/
def sealWord (gen : Nat) (crc : BitVec 16) : BitVec 64 :=
  (0x5A3C#16 ++ crc ++ ~~~(BitVec.ofNat 32 gen) : BitVec 64)

/-- The seal of a slot retired: LIVE = 0 and the other fields unchanged. -/
def retiredWord (w : BitVec 64) : BitVec 64 := (w.extractLsb' 0 48).setWidth 64

/-- A step of a swap ends (R423). -/
def swapStep (stage slot : Nat) (crc : BitVec 16) (gen : Nat) (s : State) : State :=
  let go (n : Nat) (t : State) : State :=
    let k := PfKind.swap n slot crc gen
    setPfOp 1 (some k) (setPfOp 0 (some k) t)
  if stage = 1 then
    let t := readSlot slot s
    let c := t.slotCrc slot
    if c ≠ crc then swapEnd slot none none c.toNat t else go 2 t
  else if stage = 2 then
    let r := pfProgram (sealA slot) (sealWord gen crc) s
    if r.1 ≠ 0 then swapEnd slot (some r.1) none crc.toNat r.2
    else if r.2.sealed (1 - slot) && decide (r.2.slotLive (1 - slot) = 0x5A3C) then go 3 r.2
    else swapEnd slot (some 0) (some gen) crc.toNat r.2
  else
    let a := sealA (1 - slot)
    let r := pfProgram a (retiredWord (s.pfWord a).data) s
    swapEnd slot (some r.1) (some gen) crc.toNat r.2

/-- The end of a set password (R412): both copies, then the result in both banks. -/
def passwordEnd (v : BitVec 64) (s : State) : State :=
  let r := pfProgram (pwWord 0) v s
  let r := if r.1 ≠ 0 then r else pfProgram (pwWord 1) v r.2
  pfFinish 1 r.1 (pfFinish 0 r.1 r.2)

/-- The words of a bank erased (R417): every sector outside the factory area; the index entries concerned are cleared
(R429). -/
def bankErased (b : Nat) (s : State) : State :=
  clearIndex b { s with pf := { s.pf with words := eraseWords (0x200000 * b) (if b = 0 then 0x200000 else 0x3FC000) s.pf.words } }

/-- The end of a snapshot (R425, R426): the index entry follows. -/
def tallyEnd (b n : Nat) (v : BitVec 64) (a : Nat) (seq : BitVec 16) (code : Nat) (s : State) : State :=
  let sector := if a < 0x200000 then 0 else 1
  let p := (a - pairA n sector 0) / 16
  let t := pfEnd b code (setPfOp b none s)
  let next := t.freePair n sector 256 (p + 1)
  if code = 0 then setLadder n { value := some (seq, v), sector := sector, next := next } t
  else
    let l := t.ladder n
    tallyFail n (setLadder n (if l.sector = sector then { l with next := next } else l) t)

/-- An operation ends normally. -/
def pfComplete (b : Nat) (k : PfKind) (s : State) : State :=
  match k with
  | .program a v =>
    let r := pfProgram a v s
    pfFinish b r.1 r.2
  | .eraseSector a rest prof =>
    let t := { s with pf := { s.pf with words := eraseWords a (a + 0x1000) s.pf.words } }
    match rest with
    | [] => pfEraseEnd b prof "sector" 0 t
    | x :: r => setPfOp b (some (.eraseSector x r prof)) (pfEnd b 0 t)
  | .eraseBank prof => pfEraseEnd b prof "bank" 0 (bankErased b s)
  | .setPw v => passwordEnd v s
  | .protect k =>
    let r := pfProgram (protWord k) 0 s
    pfFinish b r.1 r.2
  | .swap stage slot crc gen => swapStep stage slot crc gen s
  | .tally n v a seq =>
    let r := writeSnap a v seq s
    tallyEnd b n v a seq r.1 r.2
  | .ladderErase n v a seq =>
    setPfOp b (some (.tally n v a seq))
      { s with pf := { s.pf with words := eraseWords (a / 4096 * 4096) (a / 4096 * 4096 + 0x1000) s.pf.words } }

/-- An operation ends under brown-out (R410, Table 15.4): BOD_ABORT. -/
def pfAbort (b : Nat) (k : PfKind) (s : State) : State :=
  let t := { s with pf := { s.pf with words := k.cut b s.freeIdx s.pf.words }, freeIdx := s.freeIdx + 0x400000 }
  match k with
  | .program _ _ => pfFinish b 3 t
  | .eraseSector _ _ prof => pfEraseEnd b prof "sector" 3 t
  | .eraseBank prof => pfEraseEnd b prof "bank" 3 (clearIndex b t)
  | .setPw _ => pfFinish 1 3 (pfFinish 0 3 t)
  | .protect _ => pfFinish b 3 t
  | .swap stage slot crc gen => swapEnd slot (some 3) (if stage = 3 then some gen else none) crc.toNat t
  | .tally n v a seq => tallyEnd b n v a seq 3 t
  | .ladderErase n _ _ _ => tallyFail n (pfEnd b 3 (setPfOp b none t))

/-- Whether an operation is the programs of a snapshot. -/
def PfKind.isSnap : PfKind → Bool
  | .tally _ _ _ _ => true
  | _ => false

/-- PFLASH_OP_COMPLETE (R431): the operation of a bank ends; bod, under a brown-out. A snapshot ends through
TALLY_SNAPSHOT_DONE. DEDUCED: assumption 63. -/
def execPflashOpComplete (b : Nat) (bod : Bool) (s : State) : Host.Outcome State Fault Refusal :=
  done (match s.pfOp b with
    | none => s
    | some k =>
      if !s.flashRuns || decide (2 ≤ b) || k.isSnap then s
      else if bod then pfAbort b k s else pfComplete b k s)

/-! ### The tally engine (R187, R188, R424 to R428) -/

/-- The bank of a ladder's sector is free for the engine: idle, and its sequencer in IDLE (R428). -/
def State.tallyMay (s : State) (b : Nat) : Bool := !s.pfBusy b && decide ((s.pfSeq b).step = 0)

/-- Takes the head of the queue. -/
def popSnap (s : State) : State := { s with pf := { s.pf with queue := s.pf.queue.tail } }

/-- Starts the snapshot at the head of the queue (R427). DEDUCED: assumption 62. -/
def startSnap (n : Nat) (v : BitVec 64) (s : State) : State :=
  let l := s.ladder n
  let seq : BitVec 16 := match l.value with | some x => x.1 + 1 | none => 0
  let p := s.freePair n l.sector 256 l.next
  if p < 256 then
    if s.tallyMay l.sector then setPfOp l.sector (some (.tally n v (pairA n l.sector p) seq)) (popSnap s) else s
  else if l.value.isSome then
    let o := 1 - l.sector
    if s.tallyMay o then setPfOp o (some (.ladderErase n v (pairA n o 0) seq)) (popSnap s) else s
  else tallyFail n (popSnap s)

/-- TALLY_SNAPSHOT_START (R425, R187): one at a time, in order of trigger. -/
def execTallySnapshotStart (s : State) : Host.Outcome State Fault Refusal :=
  done (match s.pf.queue with
    | [] => s
    | (n, v) :: _ =>
      if !s.flashRuns || s.replaying || s.tallyNow.isSome then s
      else if s.fenced .pflash then tallyFail n (popSnap s)
      else startSnap n v s)

/-- TALLY_SNAPSHOT_DONE (R425): the programs of the snapshot in progress end. -/
def execTallySnapshotDone (bod : Bool) (s : State) : Host.Outcome State Fault Refusal :=
  done (if !s.flashRuns then s else
    [0, 1].foldl (fun t b => match t.pfOp b with
      | some (.tally n v a seq) => if bod then pfAbort b (.tally n v a seq) t else pfComplete b (.tally n v a seq) t
      | _ => t) s)

/-- TALLY_SAVE (R433, R186): the command trigger for a channel, or for every channel with PEN. -/
def execTallySave (ln : Line) (ch : Option ChRef) (s : State) : Host.Outcome State Fault Refusal :=
  done (runLine ln {} (fun t => (match ch with | some r => chObj r t | none => []) ++ [(.fenced, t.fenced .pflash)])
    (okay fun t => match ch with
      | some r => persist r.n t
      | none => forAll t.chans persist t) s)

/-- TALLY_GET (R433). -/
def execTallyGet (ln : Line) (ch : ChRef) (s : State) : Host.Outcome State Fault Refusal :=
  done (runLine ln { locked := false } (chObj ch) (value fun t =>
    let l := t.ladder ch.n
    [(match l.value with | some x => kn "seq" x.1.toNat | none => kw "seq" "-"),
     (match l.value with | some x => kn "count" x.2.toNat | none => kw "count" "-"),
     kn "sector" l.sector,
     kw "used" (toString (min 256 l.next) ++ "/256"),
     kw "state" (if l.failed then "fail" else "ok")]) s)

/-! ### The prof forms (R433) -/

/-- The address of a prof form lies in the window; misaligned addresses answer ALIGN. -/
def pfAddr (addr step : Nat) : List (Code × Bool) :=
  [(.align, decide (addr % step ≠ 0)), (.noaddr, decide (addr < 0x80000000) || decide (0x80400000 ≤ addr))]

/-- The refusals of a form that programs or erases in a bank (R433). -/
def pfChecks (b : Nat) (s : State) : List (Code × Bool) :=
  [(.fenced, s.fenced .pflash), (.busybank, s.pfBusy b)]

/-- Runs a form that answers on completion: one that finds the sequencer out of IDLE abandons it and ends with seqerr. -/
def profStart (b : Nat) (ln : Line) (go : State → State) (s : State) : State :=
  if (s.pfSeq b).step ≠ 0 then finishLine ln (resultResp 5) (seqAbandon b s) else go (setPfWho b (some ln) s)

/-- Starts an erase of a prof form, which has answered ok. -/
def profErase (b : Nat) (op : String) (k : PfKind) (s : State) : State :=
  if (s.pfSeq b).step ≠ 0 then pfDone b op 5 (seqAbandon b s) else setPfOp b (some k) s

/-- What prof get says of a slot. -/
def State.slotState (s : State) (slot : Nat) : String :=
  if !s.sealed slot then "unsealed"
  else if s.sealOk slot && decide (s.slotLive slot = 0x5A3C) then "live"
  else if s.sealOk slot && decide (s.slotLive slot = 0) then "retired"
  else "bad"

/-- The generation that prof get shows. -/
def State.genFld (s : State) (k : String) (slot : Nat) : Fld :=
  if s.sealed slot && (s.pfWord (sealA slot)).readable then kn k (s.slotGen slot) else kw k "-"

/-- PROF_GET. -/
def execProfGet (ln : Line) (s : State) : Host.Outcome State Fault Refusal :=
  done (runLine ln { locked := false } (fun t => [(.busybank, t.pfBusy 0 || t.pfBusy 1)])
    (fun t0 =>
      let t := readSlot 1 (readSlot 0 t0)
      (t, .vals
        [kw "loaded" (match t.sup.profSrc with | 0 => "none" | 1 => "A" | _ => "B"),
         (if t.sup.profSrc = 0 then kw "gen" "-" else kn "gen" (t.reg 0x80010).toNat),
         kw "a" (t.slotState 0), t.genFld "agen" 0, kw "b" (t.slotState 1), t.genFld "bgen" 1,
         kw "pw" (if t.pwSet then "set" else "unset"), kw "session" (if t.session then "open" else "closed"),
         kw "protect" (String.ofList ((List.range 8).reverse.map fun k => if t.isProtected k then '1' else '0'))])) s)

/-- PROF_WORD: reads the word that holds an address, and records what it returned (R463). -/
def execProfWord (ln : Line) (addr : Nat) (s : State) : Host.Outcome State Fault Refusal :=
  let a := (addr - 0x80000000) / 8 * 8
  done (runLine ln {} (fun t => pfAddr addr 4 ++ [(.busybank, t.pfBusy (pfBank a))])
    (fun t =>
      let w := t.pfWord a
      let r := pfRead a t
      let lo := r.1.extractLsb' 0 32
      let hi := r.1.extractLsb' 32 32
      let used (b : Bool) : String := if b then "used" else "free"
      (r.2.record 0x08 0 0 [word (0x80000000 + a), lo, hi], .vals
        [{ val := .hex hi }, { val := .hex lo }, kw "f1" (used w.f1), kw "f2" (used w.f2),
         kw "ecc" (if !w.f1 then "ok" else match w.ecc with | .ok => "ok" | .corrected => "corrected" | .bad => "bad")])) s)

/-- PROF_PROGRAM (R406, R407, R433). -/
def execProfProgram (ln : Line) (addr : Nat) (v : BitVec 64) (s : State) : Host.Outcome State Fault Refusal :=
  let a := addr - 0x80000000
  let b := pfBank a
  done (startLine ln {} (fun t => pfAddr addr 8 ++ [(.range, pfFixed a), (.locked, t.guarded a)] ++ pfChecks b t)
    (profStart b ln (pfStartProgram a v)) s)

/-- PROF_ERASE (R433): any address in the sector. -/
def execProfErase (ln : Line) (addr : Nat) (s : State) : Host.Outcome State Fault Refusal :=
  let a := (addr - 0x80000000) / 4096 * 4096
  let b := pfBank a
  done (runLine ln {} (fun t => pfAddr addr 1 ++ [(.range, pfFixed a), (.locked, t.guarded a)] ++ pfChecks b t)
    (okay (profErase b "sector" (.eraseSector a [] true))) s)

/-- PROF_ERASE_SLOT (R433, 15.3.2): the slot's 64 sectors in turn. -/
def execProfEraseSlot (ln : Line) (b : Bool) (s : State) : Host.Outcome State Fault Refusal :=
  let slot := b.toNat
  let l := (List.range 63).map fun i => slotA slot + 0x1000 * (i + 1)
  done (runLine ln {} (fun t => [(.arg, decide (t.bestSlot = some slot)), (.locked, t.guarded (slotA slot))] ++ pfChecks slot t)
    (okay (profErase slot "sector" (.eraseSector (slotA slot) l true))) s)

/-- PROF_WIPE (R417, R433). -/
def execProfWipe (ln : Line) (b : Nat) (s : State) : Host.Outcome State Fault Refusal :=
  done (runLine ln {} (fun t => (.arg, decide (2 ≤ b)) :: pfChecks b t) (okay (profErase b "bank" (.eraseBank true))) s)

/-- PROF_CRC (R419, R433). -/
def execProfCrc (ln : Line) (b : Bool) (s : State) : Host.Outcome State Fault Refusal :=
  let slot := b.toNat
  done (runLine ln {} (fun t => [(.busybank, t.pfBusy slot)])
    (fun t => (readSlot slot t, .vals [fw (hex4 (t.slotCrc slot).toNat)])) s)

/-- The generation that a swap would program (R423). -/
def State.newGen (s : State) : Nat :=
  (([0, 1].filter (s.sealed ·)).map (s.slotGen ·)).foldl max 0 + 1

/-- PROF_SWAP (R423): its first step reads the slot. -/
def execProfSwap (ln : Line) (b : Bool) (crc : Nat) (s : State) : Host.Outcome State Fault Refusal :=
  let slot := b.toNat
  done (startLine ln {}
    (fun t => [(.arg, t.sealed slot), (.range, decide (0xFFFFFFFE < t.newGen) || decide (0xFFFF < crc)),
      (.locked, t.guarded (sealA 0) || t.guarded (sealA 1))] ++ pfChecks 0 t ++ pfChecks 1 t)
    (profStart slot ln fun t =>
      let k := PfKind.swap 1 slot (BitVec.ofNat 16 crc) t.newGen
      setPfOp 1 (some k) (setPfOp 0 (some k) t)) s)

/-- PROF_PROTECT (R414, R433). -/
def execProfProtect (ln : Line) (k : Nat) (s : State) : Host.Outcome State Fault Refusal :=
  done (startLine ln {} (fun t => (.range, decide (8 ≤ k)) :: pfChecks (k / 4) t)
    (profStart (k / 4) ln (pfStartProtect k)) s)

/-- PROF_PASSWORD (R412, R433, R464); none for a token that is not 16 hexadecimal digits. -/
def execProfPassword (ln : Line) (pw : Option (BitVec 64)) (s : State) : Host.Outcome State Fault Refusal :=
  done (startLine ln { secret := true } (fun t => (.arg, pw.isNone) :: (pfChecks 0 t ++ pfChecks 1 t))
    (profStart 0 ln (pfStartPassword 0 (pw.getD 0))) s)

end Sys2Proof.Machine
end

