-- ==== Sys2Proof/Machine/RecordFlash.lean ====
section
/-!
DEFINITION. The record flash and the trail (chapter 16): the rflash commands, the ends of operations, table writes, the scrubber.
-/
namespace Sys2Proof.Machine

/-! ### Ends of operations (R439, R444, R449 to R451, R459) -/

/-- A page that a failed program leaves: its content is not stated. -/
def spoilPage (b blk p : Nat) (s : State) : State :=
  let n := rfBlock b blk
  let t := setRfPage (rfKey b blk p) { fill := .undef s.freeIdx, prog := true } s
  { t with freeIdx := t.freeIdx + 1, rf := { t.rf with nextPg := sset 0 t.rf.nextPg n (max (p + 1) (sget 0 t.rf.nextPg n)) } }

/-- A block that a failed erase leaves: its content is not stated. -/
def spoilBlock (b blk : Nat) (s : State) : State :=
  (List.range 256).foldl (fun t p => spoilPage b blk p t) (rfErased b blk s)

/-- The cells of an erase that ends (R450, R451). -/
def eraseEnds (b blk : Nat) (fail : Bool) (s : State) : State :=
  let n := rfBlock b blk
  if fail then markBad n "erasefail" (countErase n (spoilBlock b blk s)) else countErase n (rfErased b blk s)

/-- The cells of a program that ends (R439, R451). -/
def programEnds (b blk p : Nat) (img : Page) (fail : Bool) (s : State) : State :=
  if fail then markBad (rfBlock b blk) "progfail" (spoilPage b blk p s) else rfPrograms b blk p img s

/-- RFLASH_DONE (R459). -/
def rfDone (b : Nat) (o : RfOp) (code : Nat) (s : State) : State :=
  s.emit .rflashDone (.unit .rflash)
    [fw (if o.erase then blockText b o.block else pageText b o.block o.page), fw (if o.erase then "erase" else "program"),
     fw (rfResult code)]

/-- A table copy is written (R448): it is the newest. -/
def tableWritten (c : TblCopy) (s : State) : State :=
  ({ s with rf := { s.rf with copies := s.rf.copies ++ [c] } }.setReg 0x80108 c.seq).setFld aRtstat 0 1 c.blk

/-- An operation of the table writer ends: an erase goes on with page 0 of the block (R448). -/
def tableOpEnds (b : Nat) (o : RfOp) (fail : Bool) (s : State) : State :=
  if o.erase then
    let t := eraseEnds b o.block fail s
    if fail || t.sup.holdupLow then t else startTable o.block 0 t
  else if fail then markBad (rfBlock b o.block) "progfail" (spoilPage b o.block o.page s)
  else match o.tbl with
    | some c => tableWritten c s
    | none => s

/-- RFLASH_OP_COMPLETE (R441, R452): the operation of a bank ends, fail with a device failure. -/
def execRflashOpComplete (bank : Nat) (fail : Bool) (s : State) : Host.Outcome State Fault Refusal :=
  done (match s.rfOp bank with
    | none => s
    | some o =>
      if !s.flashRuns then s else
        let code := if !fail then 0 else if o.erase then 2 else 1
        let t := rfEnd bank code s
        match o.owner with
        | .table => copyOn (tableOpEnds bank o fail t)
        | .host =>
          let t := if o.erase then eraseEnds bank o.block fail t else programEnds bank o.block o.page o.img fail t
          copyOn (rfDone bank o code t)
        | .chrys =>
          let u := capOpDone bank o fail t
          copyOn (if o.erase then eraseEnds bank o.block fail u else programEnds bank o.block o.page o.img fail u))

/-- TABLE_WRITE (R448, R449): a write that is due starts once HOLDUP_LOW is clear and RB0 is idle. -/
def execTableWrite (s : State) : Host.Outcome State Fault Refusal :=
  done (if s.tableReady && !s.replaying then writeTable s else s)

/-! ### The trail (R455) -/

/-- TRAIL_SCRUB (R455): the scrubber reads a written word. -/
def execTrailScrub (word : Nat) (e : Ecc) (s : State) : Host.Outcome State Fault Refusal :=
  done (if !s.flashRuns || s.fenced .trail || decide ((s.reg 0x70F08).toNat ≤ 8 * word) || decide (s.member.trailSize ≤ 8 * word)
    then s
    else match e with
      | .ok => s
      | .corrected => s.count 0x70F0C
      | .bad => trailEcc word s)

/-! ### The rflash commands (R458) -/

/-- Eight binary digits, bit 7 first. -/
def digits8 (v : Nat) : String := String.ofList ((List.range 8).reverse.map fun k => if v.testBit k then '1' else '0')

/-- The blocks that are worn (R450). -/
def State.wornBlocks (s : State) : Nat := (s.rfBlocks.filter fun n => decide (3000 ≤ s.rfCount n)).length

/-- RFLASH_GET (R458). -/
def execRflashGet (ln : Line) (s : State) : Host.Outcome State Fault Refusal :=
  done (runLine ln { locked := false } (fun _ => []) (value fun t =>
    [kn "banks" t.member.banks, kw "claimed" (digits8 (t.fld 0x80104 0 8)), kn "bad" t.badBlocks, kn "worn" t.wornBlocks,
     kn "table" (t.reg 0x80108).toNat, kn "pending" (t.fld aRtstat 1 6), ky "deferred" (t.flag aRtstat 7),
     kw "retry" (if t.flag 0x80100 0 then "rt" ++ toString (t.fld 0x80100 1 3) else "auto")]) s)

/-- RFLASH_BLOCK_GET (R458). -/
def execRflashBlockGet (ln : Line) (bank block : Nat) (s : State) : Host.Outcome State Fault Refusal :=
  let n := rfBlock bank block
  done (runLine ln { locked := false } (rfObj bank block 0) (value fun t =>
    [kn "erases" (t.rfCount n),
     kw "bad" (if t.rf.fact.getLsbD n then "factory" else if t.rf.bad.getLsbD n then "runtime" else "no"),
     ky "worn" (decide (3000 ≤ t.rfCount n))]) s)

/-- RFLASH_READ (R442, R445 to R447): answers on completion. -/
def execRflashRead (ln : Line) (bank block page : Nat) (r : PageRead) (s : State) : Host.Outcome State Fault Refusal :=
  done (runLine ln {} (rfReadChecks bank block page) (fun t =>
    let erased := !(t.rfPage bank block page).prog
    let x := readPage bank block page r t
    (x.2, .vals
      [kw "state" (if x.1.uncorr then "uncorr" else if erased then "erased" else if x.1.corr = 0 then "ok" else "corrected"),
       kn "rt" x.1.rt, kn "maxcorr" (min 72 x.1.corr)])) s)

/-- RFLASH_HEX (R458): 32 bytes of HBUF, which the MEMRD record shows (R463). -/
def execRflashHex (ln : Line) (off : Nat) (s : State) : Host.Outcome State Fault Refusal :=
  done (runLine ln {} (fun t => [(.fenced, t.fenced .rflash), (.range, decide (off % 32 ≠ 0) || decide (18432 ≤ off))])
    (fun t =>
      let l := (List.range 8).map fun i => t.rf.hbuf.get (off / 4 + i)
      (t.record 0x08 1 0 (word (0x88000 + off) :: l), .vals [{ val := .bytes (wordsBytes l) }])) s)

/-- RFLASH_PROGRAM (R442, R451 to R453). -/
def execRflashProgram (ln : Line) (bank block page : Nat) (s : State) : Host.Outcome State Fault Refusal :=
  done (runLine ln {} (rfWriteChecks bank block page) (okay (hostProgram bank block page)) s)

/-- RFLASH_ERASE (R442, R451 to R453). -/
def execRflashErase (ln : Line) (bank block : Nat) (s : State) : Host.Outcome State Fault Refusal :=
  done (runLine ln {} (rfWriteChecks bank block 0) (okay (hostErase bank block)) s)

/-- RFLASH_BAD (R451). -/
def execRflashBad (ln : Line) (bank block : Nat) (s : State) : Host.Outcome State Fault Refusal :=
  done (runLine ln {} (fun t => rfObj bank block 0 t ++ [(.fenced, t.fenced .rflash)])
    (okay (markBad (rfBlock bank block) "host")) s)

/-- RFLASH_RETRY (R446, R458): none is auto. -/
def execRflashRetry (ln : Line) (set_ : Option (BitVec 3)) (s : State) : Host.Outcome State Fault Refusal :=
  done (runLine ln {} (fun t => [(.fenced, t.fenced .rflash)])
    (okay fun t => match set_ with
      | none => t.setFlag 0x80100 0 false
      | some r => (t.setFlag 0x80100 0 true).setFld 0x80100 1 3 r.toNat) s)

/-- RFLASH_SYNC (R449): a table write falls due. -/
def execRflashSync (ln : Line) (s : State) : Host.Outcome State Fault Refusal :=
  done (runLine ln {} (fun t => [(.fenced, t.fenced .rflash)]) (okay tableDue) s)

end Sys2Proof.Machine
end

