-- ==== Sys2Proof/Machine/Chrysalis.lean ====
section
/-!
DEFINITION. Chrysalis (chapter 17): keyframes, output sums, windows, replay, and the rec commands.
-/
namespace Sys2Proof.Machine

/-! ### Recording (R469 to R474) -/

/-- KEYFRAME (R469): KFINT has passed. -/
def execKeyframe (s : State) : Host.Outcome State Fault Refusal :=
  done (if s.dead || s.asleep then s else copyOn (takeKeyframe s))

/-- KEYFRAME_COMPLETE (R469): the newest keyframe is written. -/
def execKeyframeComplete (s : State) : Host.Outcome State Fault Refusal :=
  done (if s.dead || s.asleep then s else copyOn (endKeyframe s))

/-- OSUM (R471): six words, whose items the model does not gather. DESIGN CHOICE: assumption 49. -/
def execOsum (s : State) : Host.Outcome State Fault Refusal :=
  done (if s.dead || s.asleep || !s.chrys.run then s else copyOn (s.recordFree 0x24 0 0 6))

/-- POST_WINDOW_END (R473): POST has passed since the trigger. -/
def execPostWindowEnd (s : State) : Host.Outcome State Fault Refusal :=
  done (if s.dead || s.asleep then s else copyOn (closeCap false s))

/-- Takes the pending trigger. -/
def clearPend (s : State) : State := { s with chrys := { s.chrys with pend := none } }.setFlag aRecStat 5 false

/-- PENDING_CAPSULE_START (R474): the first capsule is durable. The span of an epoch that has ended is complete. -/
def execPendingCapsuleStart (s : State) : Host.Outcome State Fault Refusal :=
  done (match s.chrys.pend with
    | none => s
    | some p =>
      if s.dead || s.asleep || s.chrys.cap.isSome then s
      else
        let t := (clearPend s).startCapsule p
        copyOn (if t.chrys.run then t else closeCap false t))

/-! ### Replay (R483 to R489) -/

/-- REC.DIVKIND. -/
def aDivKind : Nat := 0x70030

/-- The keywords of RESULT. -/
def resultText (k : Nat) : String :=
  match k with
  | 0 => "none" | 1 => "done" | 2 => "diverged" | 3 => "stopped" | 4 => "gap" | _ => "damaged"

/-- The keywords of KIND. -/
def kindText (k : Nat) : String := match k with | 0 => "mark" | 1 => "osum" | _ => "keyframe"

/-- The keywords of CLASS. -/
def classText (k : Nat) : String := match k with | 0 => "link" | 1 => "ring" | 2 => "port" | 3 => "event" | _ => "flash"

/-- Sends an event of replay as an event line on the ports with EVENTS set; it waits for the live queue (R485). -/
def replayEvent (c : Ev) (d : List Fld) (s : State) : State :=
  match s.chrys.replay with
  | none => s
  | some r =>
    let x : EvEntry := { seq := s.evNext, ts := s.clk.ts, ev := { cls := c, obj := .unit .chrys, det := d } }
    let line (e : Ep) (t : State) : State :=
      if t.serves e && t.flag (aCfg e) 2 then t.send e (.event x (t.flag (aCfg e) 3) (t.lineCrc e)) else t
    let x' : EvEntry := { x with sent0 := s.serves .cp0 && s.flag 0x20000 2, sent1 := s.serves .cp1 && s.flag 0x20010 2 }
    let t := line .cp1 (line .cp0 s)
    { t with evNext := t.evNext + 1
             chrys := { t.chrys with replay := some { r with events := r.events ++ [x'] }, unread := true } }

/-- ATTN# (R43, R131, R485): asserted through S1 and in crawl mode; while an event of replay is unread; while the event queue
holds an entry. -/
def State.attn (s : State) : Bool :=
  s.sup.inReset || decide (s.sup.stage < 2) || s.sup.crawl || (if s.replaying then s.chrys.unread else decide (s.evq ≠ []))

/-- Sets the state of replay. -/
def setReplay (k : Nat) (s : State) : State := s.setFld aRecStat 0 3 k

/-- Replay goes to RESTORING with a result. -/
def endReplay (result : Nat) (s : State) : State := setReplay 4 (s.setFld aDivKind 0 4 result)

/-- A divergence is found (R487, R488): the first is kept, all are counted. DESIGN CHOICE: assumption 56. -/
def diverge (d : Divergence) (s : State) : State :=
  let n := s.fld aDivKind 16 16
  let t := s.setFld aDivKind 16 16 (min 0xFFFF (n + 1))
  let t := if n = 0 then
      ((((((t.setFld aDivKind 4 2 d.kind.ctorIdx).setFld aDivKind 6 3 (if d.kind = .osum then d.cls.ctorIdx else 0)).setReg
        0x70034 (d.t.extractLsb' 0 32)).setReg 0x70038 (d.t.extractLsb' 32 32)).setReg 0x7003C d.rec_).setReg
        0x70040 d.exp).setReg 0x70044 d.got |>.setReg 0x70048 (if d.kind = .keyframe then d.addr else 0)
    else t
  replayEvent .replayDiv [fw (kindText d.kind.ctorIdx), fn d.t.toNat] t

/-- The word of a directory capsule's stream (Table 17.3), read from its data pages. -/
def State.streamWord (s : State) (d : DirEnt) (i : Nat) : Word :=
  match s.tags.find? fun t => decide (t.id = d.id) && decide (t.kind = 1) && decide (t.pidx = i / 4095) with
  | some t => (sget {} s.rf.pages t.key).get (i % 4095)
  | none => 0xFFFFFFFF

/-- The recording area as staging leaves it: the lines of the capsule from offset 0. -/
def State.staged (s : State) (d : DirEnt) : Sparse (BitVec 64) :=
  let head := 768 + d.proflen / 4
  (List.range (8 * min d.lines s.trailLines)).filterMap fun i =>
    let v : BitVec 64 := s.streamWord d (head + 2 * i + 1) ++ s.streamWord d (head + 2 * i)
    if v = 0 then none else some (i, v)

/-! ### The records of a staged capsule (R467, R468, R486) -/

/-- The stream word after one: the header words of the lines are passed over, and the area wraps. -/
def State.nextWord (s : State) (w : Nat) : Nat :=
  let v := (w + 1) % (8 * s.trailLines)
  if v % 8 = 0 then v + 1 else v

/-- The k stream words from one on. -/
def State.streamFrom (s : State) : Nat → Nat → List (BitVec 64)
  | 0, _ => []
  | k + 1, w => sget 0 s.chrys.trail w :: s.streamFrom k (s.nextWord w)

/-- The stream word k after one. -/
def State.skipWords (s : State) : Nat → Nat → Nat
  | 0, w => w
  | k + 1, w => s.skipWords k (s.nextWord w)

/-- The payload words of a list of stream words. -/
def payloadOf (l : List (BitVec 64)) : List Word := l.flatMap fun v => [v.extractLsb' 0 32, v.extractLsb' 32 32]

/-- The record whose head is a stream word (R468). -/
def State.recAt (s : State) (w : Nat) : TrRec :=
  let h := (sget 0 s.chrys.trail w).toNat
  let n := h / 2 ^ 16 % 2 ^ 8
  { kind := h % 2 ^ 8, src := h / 2 ^ 8 % 2 ^ 8, flag := h / 2 ^ 24 % 2 ^ 8, dt := h / 2 ^ 32
    payload := (payloadOf (s.streamFrom ((n + 1) / 2) (s.nextWord w))).take n }

/-- The stream word at which the record after one begins. -/
def State.recAfter (s : State) (w : Nat) : Nat := s.skipWords (1 + ((s.recAt w).payload.length + 1) / 2) w

/-- The first line of the capsule in the recording area, and its lines. -/
def State.replaySpan (s : State) (r : Replay) : Nat × Nat :=
  match r.id with
  | some id => (0, match s.chrys.dir.find? fun d => decide (d.id = id) with | some d => min d.lines s.trailLines | none => 0)
  | none => match s.chrys.trailCap with | some c => (c.first, c.lines) | none => (0, 0)

/-- The KFBEGIN of keyframe k of the records from a stream word on, within a number of records. -/
def State.findKf (s : State) : Nat → Nat → Nat → Nat
  | 0, _, w => w
  | n + 1, k, w =>
    let x := s.recAt w
    if x.kind = 0 then w
    else if x.kind = 0x21 then if k = 0 then w else s.findKf n (k - 1) (s.recAfter w)
    else s.findKf n k (s.recAfter w)

/-- The registers that the KFDATA records of a keyframe hold, up to its KFEND, within a number of records (R469). -/
def State.loadKf (s : State) : Nat → Nat → Sparse Word → Sparse Word
  | 0, _, m => m
  | n + 1, w, m =>
    let x := s.recAt w
    if x.kind = 0x23 ∨ x.kind = 0 then m
    else
      let m := match (if x.kind = 0x22 then x.payload else []) with
        | a :: vs => vs.zipIdx.foldl (fun m (v : Word × Nat) => sput m (a.toNat + 4 * v.2) v.1) m
        | [] => m
      s.loadKf n (s.recAfter w) m

/-- Begins RUNNING (R484, R486): the pipeline is loaded from the starting keyframe, whose instant is its cycle 0. -/
def beginRun (s : State) : State :=
  match s.chrys.replay with
  | none => setReplay 2 s
  | some r =>
    let f := (s.replaySpan r).1
    let n := 8 * s.trailLines
    let w0 := 8 * f + max 1 ((sget 0 s.chrys.trail (8 * f)).toNat / 2 ^ 32 % 8)
    let w := s.findKf n r.from_ w0
    let r := { r with next := 8 * s.recAfter w, ord := 1, at_ := 0, cyc := 0, since := s.clk.raw
                      pipe := { start := s.loadKf n (s.recAfter w) [] } }
    setReplay 2 { s with chrys := { s.chrys with replay := some r } }

/-- The pipeline's cycle while it runs. -/
def Replay.cycle (r : Replay) (raw : Nat) : Nat := r.cyc + (raw - r.since)

/-- Whether a record is one that replay injects (R463). -/
def TrRec.isInput (x : TrRec) : Bool := decide (1 ≤ x.kind) && decide (x.kind ≤ 0x0A)

/-- The instant of the next record, in raw ticks from the starting keyframe. -/
def State.due (s : State) (r : Replay) : Nat := r.at_ + (s.recAt (r.next / 8)).dt

/-- Whether the next record is due: in real time at its recorded offset; with fast the cycle count advances to it (R486). -/
def State.injects (s : State) (r : Replay) : Bool := r.fast || decide (s.due r ≤ r.cycle s.clk.raw)

/-- The replay past its next record, an input record injected into the pipeline at its recorded offset (R486). -/
def State.injected (s : State) (r : Replay) : Replay :=
  let x := s.recAt (r.next / 8)
  let d := s.due r
  { r with
    next := 8 * s.recAfter (r.next / 8)
    ord := r.ord + 1
    at_ := d
    cyc := max d (r.cycle s.clk.raw)
    since := s.clk.raw
    pipe := if x.isInput then { r.pipe with inputs := (d, x) :: r.pipe.inputs } else r.pipe }

/-- Whether the next record is a GAP or an END, which replay does not pass (R484, Table 17.6). -/
def State.atGap (s : State) (r : Replay) : Bool :=
  let k := (s.recAt (r.next / 8)).kind
  decide (k = 0x2E) || decide (k = 0x2F)

/-- Whether no record follows the next one in the capsule. -/
def State.atLast (s : State) (r : Replay) : Bool :=
  let w := s.recAfter (r.next / 8)
  let p := s.replaySpan r
  !lineIn p.1 p.2 s.trailLines (w / 8) || decide ((s.recAt w).kind = 0)

/-- Stages a flash capsule: it overwrites the recording area (R484), and a capsule held there is lost. -/
def stageCapsule (id : Nat) (s : State) : State :=
  match s.chrys.dir.find? fun d => decide (d.id = id) with
  | none => s
  | some d =>
    let t := { s with chrys := { s.chrys with trail := s.staged d, trailBad := [], trailCap := none, kfs := [] } }
    let t := if t.fld 0x70F08 0 32 < 64 * d.lines then t.setReg 0x70F08 (word (64 * d.lines)) else t
    t.setFlag aRecStat 6 false

/-- The pages that staging read, checked by CVU-F (R394), the failing one among them: a mismatch, else a page that no set
reads (R447). -/
def stagePages (id : Nat) (damaged : Option Nat) (s : State) : State :=
  (s.tags.filter fun t => decide (t.id = id) && decide (t.kind = 1)).foldl (fun u t =>
    let ok := (sget {} s.rf.pages t.key).crcOk
    if damaged = some t.pidx then
      if ok then rfReport (t.key / 16384) (t.key / 256 % 64) (t.key % 256) { uncorr := true } false u
      else blockCheck t.key false u
    else match damaged with
      | some p => if t.pidx < p then blockCheck t.key ok u else u
      | none => blockCheck t.key ok u) s

/-- REPLAY_STAGING_DONE (R484): RUNNING, or RESTORING with the failing page of a damaged capsule. -/
def execReplayStagingDone (damaged : Option Nat) (s : State) : Host.Outcome State Fault Refusal :=
  done (if s.dead || decide (s.fld aRecStat 0 3 ≠ 1) then s else
    match s.chrys.replay.bind (·.id) with
    | none => beginRun s
    | some id =>
      let t := stagePages id damaged s
      match damaged with
      | none => beginRun t
      | some p =>
        let mark (d : DirEnt) : DirEnt := if d.id = id then { d with st := .damaged } else d
        endReplay 5 ({ t with chrys := { t.chrys with dir := t.chrys.dir.map mark } }.setReg 0x7003C (word p)))

/-- RECORD_INJECT (R486, R487): the next record is injected at its recorded offset, or passed where it is no input record, and what
the pipeline does is compared. Without fast nothing happens before that instant. DEDUCED: assumption 53. -/
def execRecordInject (r : Inject) (s : State) : Host.Outcome State Fault Refusal :=
  done (match s.chrys.replay with
    | none => s
    | some p =>
      if s.dead || decide (s.fld aRecStat 0 3 ≠ 2) || !s.injects p then s else
        let gap := s.atGap p
        let last := r.last || s.atLast p
        let s := { s with chrys := { s.chrys with replay := some (s.injected p) } }
        match r.divs with
        | d :: l =>
          if p.nostop then
            let t := (d :: l).foldl (fun u x => diverge x u) s
            if gap then endReplay 4 t else if last then endReplay 2 t else t
          else endReplay 2 (diverge d s)
        | [] =>
          if gap then endReplay 4 s
          else if last then endReplay (if s.fld aDivKind 16 16 = 0 then 1 else 2) s
          else s)

/-- Tag entries whose 600 s have passed are dropped (R120). -/
def dropTags (e : Ep) (s : State) : State :=
  s.setPort e { s.port e with tags := (s.port e).tags.filter fun x => decide (s.clk.raw < x.atRaw + 240000000000) }

/-- An event of replay enters the live queue with its number. -/
def queueEntry (x : EvEntry) (s : State) : State :=
  if s.evq.length < 256 then { s with evq := s.evq ++ [x] }
  else { s.setFlag 0x20020 9 true with evq := s.evq.tail ++ [x] }

/-- REPLAY_END (R489): the live state is back. counts brings the edges that the groups of DIC
channels counted while their links were in hold. DEDUCED: assumption 55. -/
def execReplayEnd (counts : List (Nat × BitVec 16)) (s : State) : Host.Outcome State Fault Refusal :=
  done (if s.dead || decide (s.fld aRecStat 0 3 ≠ 4) then s else
    let t := replayEvent .replayEnd [fw (resultText (s.fld aDivKind 0 4))] s
    match t.chrys.replay with
    | none => setReplay 0 t
    | some r =>
      let t := { setReplay 0 t with chrys := { t.chrys with replay := none, unread := false } }
      let t := r.events.foldl (fun u x => queueEntry x u) t
      let t := dropTags .mail (dropTags .cp1 (dropTags .cp0 t))
      let t := { t with wdog := { t.wdog with reload := t.clk.raw - r.wdRun } }
      let t := setStale (t.chans.filter fun n => !isOut (t.mode n)) t
      let t := counts.foldl (fun u x => u.setCh x.1 { u.ch x.1 with cnt16 := (u.ch x.1).cnt16 + x.2 }) t
      let t := forAll t.chans (fun n u => if u.dicLive n then (takeCount n u).setFlag (aStat n) 19 true else u) t
      copyOn (startEpoch (clearCause 0x30004 5 .dev t)))

/-! ### The rec commands (R491) -/

/-- REC_ON_OFF (R462, R491): EN. -/
def execRecOnOff (ln : Line) (on : Bool) (s : State) : Host.Outcome State Fault Refusal :=
  done (runLine ln {} (fun _ => []) (okay fun t => regWrite 0x70000 (setBit (t.reg 0x70000) 0 on) t) s)

/-- REC_OVERWRITE (R480, R491). -/
def execRecOverwrite (ln : Line) (on : Bool) (s : State) : Host.Outcome State Fault Refusal :=
  done (runLine ln {} (fun _ => []) (okay fun t => t.setFlag 0x70000 1 on) s)

/-- REC_KEYFRAME (R469): KFINT in ms. -/
def execRecKeyframe (ln : Line) (t : Qty) (s : State) : Host.Outcome State Fault Refusal :=
  let v := qSteps t .ms 1 1000000
  done (runLine ln {} (fun _ => [(.unit, qBad t .ms), (.range, outside v 100 10000)])
    (okay fun u => u.setReg 0x70010 (wordI v)) s)

/-- REC_OSUM (R471): OSUMT in µs. -/
def execRecOsum (ln : Line) (t : Qty) (s : State) : Host.Outcome State Fault Refusal :=
  let v := qSteps t .us 1 1000
  done (runLine ln {} (fun _ => [(.unit, qBad t .us), (.range, outside v 100 10000)])
    (okay fun u => u.setReg 0x70014 (wordI v)) s)

/-- REC_WINDOW (R473): PRE and POST in s. -/
def execRecWindow (ln : Line) (pre post : Qty) (s : State) : Host.Outcome State Fault Refusal :=
  let v := qSteps pre .s 1 1000000000
  let w := qSteps post .s 1 1000000000
  done (runLine ln {} (fun _ =>
      [(.unit, qBad pre .s || qBad post .s), (.range, outside v 1 3600 || outside w 0 600)])
    (okay fun u => u.setReg 0x7000C (wordI (v + 0x10000 * w))) s)

/-- REC_TRIGGER_CFG (R472): a bit of REC.TRIG. -/
def execRecTriggerCfg (ln : Line) (t : TrigName) (on : Bool) (s : State) : Host.Outcome State Fault Refusal :=
  done (runLine ln {} (fun _ => []) (okay fun u => u.setFlag 0x70008 t.ctorIdx on) s)

/-- REC_CLAIM (R476): the banks; none for an empty list. It takes effect at the next epoch start. -/
def execRecClaim (ln : Line) (banks : List Nat) (s : State) : Host.Outcome State Fault Refusal :=
  done (runLine ln {} (fun t => [(.absent, banks.any fun b => decide (t.member.banks ≤ b))])
    (okay fun t => t.setReg 0x70018 (bitsOf (dedup banks))) s)

/-- REC_FREEZE (R472): the trigger 0x1F. -/
def execRecFreeze (ln : Line) (s : State) : Host.Outcome State Fault Refusal :=
  done (runLine ln {} (fun t => [(.fenced, t.fenced .chrys || t.fenced .trail)])
    (okay fun t => copyOn (t.trigger 0x1F 0xFFFF)) s)

/-- REC_FREE_TRAIL (R481): the lines of the trail capsule are no longer protected. -/
def execRecFreeTrail (ln : Line) (s : State) : Host.Outcome State Fault Refusal :=
  done (runLine ln {} (fun _ => [])
    (okay fun t => copyOn ({ t with chrys := { t.chrys with trailCap := none } }.setFlag aRecStat 6 false)) s)

/-- REC_GET (R491). -/
def execRecGet (ln : Line) (s : State) : Host.Outcome State Fault Refusal :=
  done (runLine ln { locked := false, replay := false } (fun _ => []) (value fun t =>
    [kb "rec" (t.flag 0x70000 0), kn "epoch" (t.fld 0x70020 0 8), kn "rate" t.recRate,
     kw "state" (match t.fld aRecStat 0 3 with
       | 0 => "idle" | 1 => "staging" | 2 => "running" | 3 => "paused" | _ => "restoring"),
     kw "copy" (match t.fld aRecStat 3 2 with | 0 => "idle" | 1 => "post" | 2 => "copy" | _ => "pad"),
     ky "pending" (t.flag aRecStat 5), kw "trail" (if t.flag aRecStat 6 then "held" else "none"),
     kn "triglost" (t.fld aRecStat 16 16)]) s)

/-- The least or greatest number of the directory, or -. -/
def capFld (k : String) (f : Nat → Nat → Nat) : List DirEnt → Fld
  | [] => kw k "-"
  | d :: l => kn k (l.foldl (fun m x => f m x.id) d.id)

/-- REC_LIST (R491). -/
def execRecList (ln : Line) (s : State) : Host.Outcome State Fault Refusal :=
  done (runLine ln { locked := false, replay := false } (fun _ => []) (value fun t =>
    [kn "count" t.chrys.dir.length, capFld "first" min t.chrys.dir, capFld "last" max t.chrys.dir, kn "free" t.freeBlocks,
     ky "scanning" (!t.chrys.scanned)]) s)

/-- The name of a trigger (Table 17.8). -/
def trigText (k : Nat) : String :=
  match k with
  | 0 => "trip" | 1 => "fault" | 2 => "devsafe" | 3 => "grpsafe" | 4 => "age" | 5 => "fence" | 6 => "window" | 7 => "ring"
  | 8 => "reset" | 9 => "skip" | _ => "freeze"

/-- The unit of an object code of a capsule header (Table 17.4). -/
def trigUnit (v : Nat) : String :=
  match (sysUnits.find? fun u => match u.fenceBit with | some (_, b) => decide (0x200 + b = v) | none => false) with
  | some u => unText u
  | none =>
    match ((List.range 8).flatMap grpUnits).find? fun u => decide (0x200 + u.fenceSrc = v) with
    | some u => unText u
    | none => "-"

/-- The object of a capsule's trigger. -/
def trigObjText (v : Nat) : String :=
  if v < 128 then chText (v / 16) (v % 16)
  else if 0x100 ≤ v ∧ v < 0x108 then "g" ++ toString (v - 0x100)
  else trigUnit v

/-- What rec cap get says of a directory entry; an open capsule has no readable header. -/
def DirEnt.flds (d : DirEnt) : List Fld :=
  let opn := decide (d.st = .opened)
  [kw "state" (match d.st with | .durable => "durable" | .opened => "open" | .damaged => "damaged"),
   kw "trig" (if opn then "-" else trigText d.trig), kw "obj" (if opn then "-" else trigObjText d.obj.toNat),
   (if opn then kw "t" "-" else kn "t" d.ttrig.toNat), kn "pages" d.pages,
   kw "start" (blockText (d.start / 64) (d.start % 64)), kn "kf" d.kfs,
   (match d.gen with | some n => kn "gen" n | none => kw "gen" "-")]

/-- What rec cap get says of the trail capsule, which has no pages. -/
def State.trailFlds (s : State) (c : Cap) : List Fld :=
  [kw "state" "trail", kw "trig" (trigText c.trig), kw "obj" (trigObjText c.trigObj.toNat), kn "t" c.ttrig.toNat,
   kn "pages" 0, kw "start" "-", kn "kf" c.kfs,
   (if s.sup.profSrc = 0 then kw "gen" "-" else kn "gen" (s.reg 0x80010).toNat)]

/-- What rec cap get answers; none where there is no such capsule. -/
def State.capFlds (s : State) (c : CapSel) : Option (List Fld) :=
  match c with
  | .id n => (s.chrys.dir.find? fun d => decide (d.id = n)).map DirEnt.flds
  | .trail => s.chrys.trailCap.map s.trailFlds

/-- REC_CAP_GET (R491). -/
def execRecCapGet (ln : Line) (c : CapSel) (s : State) : Host.Outcome State Fault Refusal :=
  done (runLine ln { locked := false, replay := false } (fun t => [(.arg, (t.capFlds c).isNone)])
    (value fun t => (t.capFlds c).getD []) s)

/-- REC_CAP_ERASE (R491). -/
def execRecCapErase (ln : Line) (id : Nat) (s : State) : Host.Outcome State Fault Refusal :=
  done (runLine ln {} (fun t => [(.arg, (t.chrys.dir.find? fun d => decide (d.id = id)).isNone),
      (.fenced, t.fenced .rflash), (.busybank, t.chrys.cap.isSome)])
    (okay fun t => copyOn (eraseCap id t)) s)

/-- What the checks of rec replay see of a capsule: its stepping, groups and keyframes; none where it cannot be replayed. -/
def State.replayable (s : State) (c : CapSel) : Option (Byte × Nat × Nat) :=
  match c with
  | .id n => (s.chrys.dir.find? fun d => decide (d.id = n) && decide (d.st ≠ .opened)).map fun d => (d.step, d.groups, d.kfs)
  | .trail => s.chrys.trailCap.map fun c => (s.member.sysId.extractLsb' 0 8, s.member.groups, c.kfs)

/-- The refusals of rec replay (R483). -/
def replayChecks (c : CapSel) (from_ : Option Nat) (s : State) : List (Code × Bool) :=
  let flash := match c with | .id _ => true | .trail => false
  [(.armed, s.sup.armed), (.notstopped, s.ringLive), (.busybank, s.chrys.cap.isSome)] ++
  (match s.replayable c with
   | none => [(.arg, true)]
   | some (step, groups, kfs) =>
     [(.arg, decide (step ≠ s.member.sysId.extractLsb' 0 8)), (.absent, decide (s.member.groups < groups)),
      (.range, match from_ with | some k => decide (kfs ≤ k) | none => false)]) ++
  [(.fenced, s.fenced .chrys || s.fenced .trail || (flash && (s.fenced .rflash || s.fenced .cvuF)))]

/-- Enters STAGING (R484): recording ends, REPLAY is held, the live state is parked. -/
def enterReplay (c : CapSel) (from_ : Option Nat) (fast nostop : Bool) (s : State) : State :=
  let t := endEpoch s
  let id := match c with | .id n => some n | .trail => none
  let r : Replay := { id := id, from_ := from_.getD 0, fast := fast, nostop := nostop, raw := t.clk.raw
                      wdRun := t.clk.raw - t.wdog.reload }
  let t := { t with chrys := { t.chrys with replay := some r, unread := false } }
  let t := (((((t.setReg aDivKind 0).setReg 0x70034 0).setReg 0x70038 0).setReg 0x7003C 0).setReg 0x70040 0).setReg 0x70044 0
    |>.setReg 0x70048 0
  let t := holdDev 5 (setReplay 1 t)
  match id with
  | some n => stageCapsule n t
  | none => t

/-- REC_REPLAY (R483, R484). DEDUCED: assumption 54. -/
def execRecReplay (ln : Line) (c : CapSel) (from_ : Option Nat) (fast nostop : Bool) (s : State) :
    Host.Outcome State Fault Refusal :=
  done (runLine ln {} (replayChecks c from_) (okay (enterReplay c from_ fast nostop)) s)

/-- A form that leaves one state of replay for another; in any other state it is refused. -/
def replayForm (ln : Line) (st : Nat) (go : State → State) (s : State) : State :=
  runLine ln { replay := false } (fun t => [(.arg, decide (t.fld aRecStat 0 3 ≠ st))]) (okay go) s

/-- The pipeline is held between two cycles (R484). -/
def pauseReplay (s : State) : State :=
  match s.chrys.replay with
  | some r => setReplay 3 { s with chrys := { s.chrys with replay := some { r with cyc := r.cycle s.clk.raw, since := s.clk.raw } } }
  | none => setReplay 3 s

/-- The pipeline runs on from the cycle at which it was held. -/
def continueReplay (s : State) : State :=
  match s.chrys.replay with
  | some r => setReplay 2 { s with chrys := { s.chrys with replay := some { r with since := s.clk.raw } } }
  | none => setReplay 2 s

/-- REC_REPLAY_PAUSE (R484). -/
def execRecReplayPause (ln : Line) (s : State) : Host.Outcome State Fault Refusal := done (replayForm ln 2 pauseReplay s)

/-- REC_REPLAY_CONTINUE (R484). -/
def execRecReplayContinue (ln : Line) (s : State) : Host.Outcome State Fault Refusal := done (replayForm ln 3 continueReplay s)

/-- REC_REPLAY_STOP (R484). -/
def execRecReplayStop (ln : Line) (s : State) : Host.Outcome State Fault Refusal := done (replayForm ln 3 (endReplay 3) s)

/-- REC_RESULT (R488). -/
def execRecResult (ln : Line) (s : State) : Host.Outcome State Fault Refusal :=
  done (runLine ln { locked := false, replay := false } (fun _ => []) (fun t =>
    let n := t.fld aDivKind 16 16
    let k := t.fld aDivKind 4 2
    ({ t with chrys := { t.chrys with unread := false } }, .vals
      [kw "result" (resultText (t.fld aDivKind 0 4)), kw "kind" (if n = 0 then "-" else kindText k),
       kw "class" (if n = 0 ∨ k ≠ 1 then "-" else classText (t.fld aDivKind 6 3)),
       kn "t" (t.reg 0x70038 ++ t.reg 0x70034 : BitVec 64).toNat, kn "rec" (t.reg 0x7003C).toNat,
       { key := "exp", val := .hex (t.reg 0x70040) }, { key := "got", val := .hex (t.reg 0x70044) },
       (if n = 0 ∨ k ≠ 2 then kw "addr" "-" else { key := "addr", val := .hex (t.reg 0x70048) }),
       kn "count" n, ky "edited" (t.flag aDivKind 9)])) s)

end Sys2Proof.Machine
end

