-- ==== Sys2Proof/Machine/Waicon.lean ====
section
/-!
DEFINITION. Waicon (chapter 4): the bytes of the ports, remote and broadcast lines, the port, event, watchdog and lock commands,
rd and wr, and the lines that are refused.
-/
namespace Sys2Proof.Machine

/-! ### Bytes (R95 to R99, R112, R113) -/

/-- Bytes in a receive FIFO. -/
def fifoBytes (l : List RxSym) : Nat := (symBytes l).length

/-- The symbols of the line that is not complete. -/
def openLine (l : List RxSym) : List RxSym := (l.reverse.takeWhile fun x => !isTerm x).reverse

/-- The FIFO without the line that is not complete. -/
def closedLines (l : List RxSym) : List RxSym := (l.reverse.dropWhile fun x => !isTerm x).reverse

/-- Whether symbols hold separators only: such a line draws no response (R97). -/
def blankLine (l : List RxSym) : Bool := l.all fun x => decide (x = .b 0x20) || decide (x = .b 9)

/-- A terminator. -/
def isEol (b : Byte) : Bool := decide (b = 13) || decide (b = 10)

/-- A byte enters the FIFO of a port (R98): one that finds it full is lost, and so are those up to the next terminator that
fits. A blank line is taken out. Of a line longer than 255 bytes what follows the 256th is discarded (R97). -/
def fifoByte (b : Byte) (p : Port) : Port × Bool :=
  let full := decide (1024 ≤ fifoBytes p.rx)
  if b = 10 ∧ p.crSeen then ({ p with crSeen := false }, false)
  else
    let p := { p with crSeen := decide (b = 13) }
    if !isEol b && decide (256 ≤ fifoBytes (openLine p.rx)) then (p, false)
    else if full then
      if p.dropping then (p, false) else ({ p with rx := p.rx ++ [.lost], dropping := true }, true)
    else if isEol b then
      if blankLine (openLine p.rx) then ({ p with rx := closedLines p.rx, dropping := false }, false)
      else ({ p with rx := p.rx ++ [.b b], dropping := false }, false)
    else if p.dropping then (p, false)
    else ({ p with rx := p.rx ++ [.b b] }, false)

/-- RX_BYTE (R98): a byte of a port in generated mode. DESIGN CHOICE: assumption 33. -/
def execRxByte (ep : Ep) (b : Byte) (s : State) : Host.Outcome State Fault Refusal :=
  done (if ep = .mail ∨ !s.serves ep ∨ !s.generated ep then s else
    let r := fifoByte b (s.port ep)
    let t := s.setPort ep r.1
    if r.2 then t.setFlag (aPstat ep) 1 true else t)

/-- The tokens of a byte list. -/
def tokens : List Byte → List (List Byte)
  | [] => []
  | b :: l =>
    let r := tokens l
    if b = 0x20 ∨ b = 9 then [] :: r
    else match r with
      | [] => [[b]]
      | t :: r => (b :: t) :: r

/-- A byte in lowercase. -/
def lowByte (b : Byte) : Byte := if 0x41 ≤ b ∧ b ≤ 0x5A then b + 0x20 else b

/-- Whether the bytes after these are echoed as *: the verb unlock and a separator stand in the line (R112). -/
def masked (l : List Byte) : Bool :=
  let ends := l.getLast?.any fun b => decide (b = 0x20) || decide (b = 9)
  let words := (tokens l).filter (· ≠ [])
  let words := words.dropWhile fun t => t.head? = some 0x40 ∨ t.head? = some 0x23
  match words with
  | [v] => ends && decide (v.map lowByte = [0x75, 0x6E, 0x6C, 0x6F, 0x63, 0x6B])
  | v :: _ => decide (v.map lowByte = [0x75, 0x6E, 0x6C, 0x6F, 0x63, 0x6B])
  | [] => false

/-- The echo of a line's bytes. -/
def echoLine (l : List Byte) : List Byte :=
  (l.foldl (fun (r : List Byte × List Byte) b => (r.1 ++ [b], r.2 ++ [if masked r.1 then 0x2A else b])) ([], [])).2

/-- CR LF. -/
def crlf : List Byte := [13, 10]

/-- The line buffer is given to the parser. -/
def giveLine (ep : Ep) (s : State) : State :=
  let p := s.port ep
  if 1024 < fifoBytes p.rx + p.typed.length + 1 then
    (s.setPort ep { p with rx := p.rx ++ [.lost, .b 13], typed := [] }).setFlag (aPstat ep) 1 true
  else s.setPort ep { p with rx := p.rx ++ p.typed.map .b ++ [.b 13], typed := [] }

/-- A terminator in typed mode: a blank line draws the prompt. -/
def typedEol (ep : Ep) (s : State) : State :=
  let t := s.send ep (.echo crlf)
  let p := t.port ep
  if blankLine (p.typed.map .b) then (sendEvents ep (t.setPort ep { p with typed := [] })).send ep .prompt
  else giveLine ep t

/-- TYPED_BYTE (R96, R97, R112). -/
def execTypedByte (ep : Ep) (b : Byte) (s : State) : Host.Outcome State Fault Refusal :=
  done (if ep = .mail ∨ !s.serves ep ∨ s.generated ep then s else
    let p := s.port ep
    let bel (t : State) : State := t.send ep (.echo [7])
    if b = 10 ∧ p.crSeen then s.setPort ep { p with crSeen := false }
    else
      let s := s.setPort ep { p with crSeen := decide (b = 13) }
      let p := s.port ep
      if isEol b then typedEol ep s
      else if b = 8 ∨ b = 0x7F then
        if p.typed = [] then bel s else (s.setPort ep { p with typed := p.typed.dropLast }).send ep (.echo [8, 0x20, 8])
      else if b = 0x15 then
        ((s.setPort ep { p with typed := [] }).send ep (.echo ([0x5E, 0x55] ++ crlf))).send ep .prompt
      else if (b = 9 ∨ (0x20 ≤ b ∧ b ≤ 0x7E)) ∧ p.typed.length < 255 then
        (s.setPort ep { p with typed := p.typed ++ [b] }).send ep (.echo [if masked p.typed then 0x2A else b])
      else bel s)

/-- LINEGAP (R99): 100 ms without a byte. -/
def execLinegap (ep : Ep) (s : State) : Host.Outcome State Fault Refusal :=
  done (if ep = .mail ∨ !s.serves ep ∨ !s.generated ep then s else
    let p := s.port ep
    if openLine p.rx = [] then s
    else (s.setPort ep { p with rx := closedLines p.rx, dropping := false }).setFlag (aPstat ep) 2 true)

/-- TYPED_HOLD_TIMEOUT (R113): the buffer has held bytes for 5 s. DEDUCED: assumption 34. -/
def execTypedHoldTimeout (ep : Ep) (s : State) : Host.Outcome State Fault Refusal :=
  done (if ep = .mail ∨ !s.serves ep ∨ s.generated ep ∨ (s.port ep).typed = [] then s else
    let t := (sendEvents ep (s.send ep (.echo crlf))).send ep .prompt
    t.send ep (.echo (echoLine (s.port ep).typed)))

/-- Marks the first entry that a port has not sent. -/
def markFirst (e : Ep) : List EvEntry → List EvEntry
  | [] => []
  | x :: l => if x.sent e then x :: markFirst e l else x.mark e :: l

/-- EVENT_LINE_SEND (R130, R113): the oldest event that the port has not sent; in typed mode only while the line buffer is
empty and no line of it waits for its response. DEDUCED: assumption 36. -/
def execEventLineSend (ep : Ep) (s : State) : Host.Outcome State Fault Refusal :=
  done (if ep = .mail ∨ !s.serves ep ∨ s.replaying ∨ !s.flag (aCfg ep) 2 ∨
      (!s.generated ep ∧ ((s.port ep).typed ≠ [] ∨ (s.port ep).rx ≠ [] ∨ s.waiting ep)) then s
    else match s.evq.find? fun x => !x.sent ep with
      | none => s
      | some x => { s with evq := markFirst ep s.evq }.send ep (.event x (s.flag (aCfg ep) 3) (s.lineCrc ep)))

/-- TAG_ENTRY_EXPIRY (R120): an entry is 600 s old. DESIGN CHOICE: assumption 39. -/
def execTagEntryExpiry (ep : Ep) (tag : BitVec 16) (s : State) : Host.Outcome State Fault Refusal :=
  done (if s.dead then s else
    let p := s.port ep
    match p.tags.find? fun x => decide (x.tag = tag) with
    | none => s
    | some x => s.setPort ep { p with tags := p.tags.erase x })

/-! ### Remote lines (R123 to R127) -/

/-- The fragments that carry a line to a node (R343). -/
def State.lineFrags (s : State) (ln : Line) (dst : Option Node) (c : Nat) (text : List Byte) : List MailFrag :=
  s.fragments c { dest := dst, origin := s.ringAddr c, tag := ln.tag, text := text, last := true, second := false
                  port := ln.ep, dup := false, resp := false }

/-- Why a remote line is refused (R126, R541): 16 outstanding or a full queue, then no route. DEDUCED: assumption 40. -/
def State.remoteErr (s : State) (ln : Line) (dst : Node) (text : List Byte) : Option Code :=
  let room := match s.route dst with
    | some c => s.mailRoom c (s.lineFrags ln (some dst) c text).length
    | none => true
  pick (baseChecks ln { locked := false } s ++
    [(.mailfull, decide (16 ≤ (s.port ln.ep).remote.length) || !room), (.noroute, (s.route dst).isNone)])

/-- Hands a line to MAIL: its tag entry is pending, and it is outstanding. -/
def forwardLine (ln : Line) (dst : Node) (text : List Byte) (s : State) : State :=
  match s.route dst with
  | none => s
  | some c =>
    let t := addTag ln none s
    let p := t.port ln.ep
    let x : Outst := { id := p.nextId, dst := dst, tag := ln.tag, crc := ln.crc }
    mailPut c (t.lineFrags ln (some dst) c text) (t.setPort ln.ep { p with remote := p.remote ++ [x], nextId := p.nextId + 1 })

/-- REMOTE_LINE_FORWARD (R123, R126): a line of a port addressed to another node. -/
def execRemoteLineForward (ln : Line) (dst : Node) (text : List Byte) (s : State) : Host.Outcome State Fault Refusal :=
  done (if ln.ep = .mail then s else
    gateLine ln { locked := false } (fun t => t.remoteErr ln dst text) (forwardLine ln dst text) s)

/-- REMOTE_RESPONSE_ARRIVAL (R125, R126): the response of an outstanding line; one that arrives later is discarded. -/
def execRemoteResponseArrival (ep : Ep) (id : Nat) (text : List Byte) (s : State) : Host.Outcome State Fault Refusal :=
  done (if !s.running || s.asleep then s else
    match (s.port ep).remote.find? fun x => decide (x.id = id) with
    | none => s
    | some x => remoteResponse ep x x.dst text false s)

/-- NOREPLY (R126, R119): MAILTO has passed; the pending entry is deleted. -/
def execNoreply (ep : Ep) (id : Nat) (s : State) : Host.Outcome State Fault Refusal :=
  done (if !s.running || s.asleep then s else
    match (s.port ep).remote.find? fun x => decide (x.id = id) with
    | none => s
    | some x =>
      let p := s.port ep
      let tags := p.tags.filter fun t => !(decide (x.tag = some t.tag) && t.resp.isNone)
      remoteResponse ep x x.dst (textBytes "!E NOREPLY") false (s.setPort ep { p with tags := tags }))

/-- What a broadcast line does here (R127). DEDUCED: assumption 79. -/
def castHere (v : BVerb) (s : State) : State :=
  match v with
  | .kick => clearCause 0x30004 3 .dev (kickWdog s)
  | .safe => clearCause 0x30004 4 .dev (holdDev 4 s)
  | .sync gs => requestSync (maskOf ((if gs = [] then s.groups else gs).filter s.powered)) s
  | .other _ _ => s

/-- What the verb of a broadcast line meets (R49, Table 4.7). -/
def castForm : BVerb → Form
  | .safe => { locked := false, core := true }
  | .other l p => { locked := l, secret := p }
  | _ => { locked := false }

/-- The checks of a broadcast line beside the base checks (R127, R541). -/
def castChecks (v : BVerb) (s : State) : List (Code × Bool) :=
  match v with
  | .sync gs => gs.flatMap fun g => grObj g s
  | .other _ _ => [(.nobcast, true)]
  | _ => []

/-- Sends a broadcast line on every controller that takes MAIL; a queue without room discards it (R127, R344). -/
def castOut (ln : Line) (text : List Byte) (s : State) : State :=
  forAll ((List.range s.member.rings).filter s.mailsOn) (fun c t =>
    let l := t.lineFrags ln none c text
    if t.mailRoom c l.length then mailPut c l t else mailDiscard c l.length t) s

/-- BROADCAST_LINE (R127). -/
def execBroadcastLine (ln : Line) (v : BVerb) (text : List Byte) (s : State) : Host.Outcome State Fault Refusal :=
  done (runLine ln (castForm v) (castChecks v) (okay fun t => castOut ln text (castHere v t)) s)

/-! ### The port commands (R143) -/

/-- The port of a port command. -/
def portEp : PortSel → Ep
  | .cp0 => .cp0
  | .cp1 => .cp1

/-- Runs a port command: a remote one is refused. -/
def portLine (ln : Line) (f : Form) (checks : List (Code × Bool)) (eff : State → State × Resp) (s : State)
    (post : State → State := noPost) : State :=
  runLine ln f (fun _ => (.localonly, decide (ln.ep = .mail)) :: checks) eff s post

/-- The rates of BAUD (Table 2.2). -/
def baudRates : List Nat := [9600, 19200, 57600, 115200, 460800, 1000000, 3000000, 12000000]

/-- PORT_MODE (R111, R143): the mode changes after the stop bit of ok; a typed port sends the prompt behind that ok (R112) before it
changes. DESIGN CHOICE: assumption 100. -/
def execPortMode (ln : Line) (p : PortSel) (gen : Bool) (s : State) : Host.Outcome State Fault Refusal :=
  done (portLine ln {} [] (okay id) s fun t => t.setFlag (aCfg (portEp p)) 0 gen)

/-- PORT_CRC (R143). -/
def execPortCrc (ln : Line) (p : PortSel) (on : Bool) (s : State) : Host.Outcome State Fault Refusal :=
  done (portLine ln {} [] (okay fun t => t.setFlag (aCfg (portEp p)) 1 on) s)

/-- PORT_EVENTS (R143). -/
def execPortEvents (ln : Line) (p : PortSel) (on : Bool) (s : State) : Host.Outcome State Fault Refusal :=
  done (portLine ln {} [] (okay fun t => t.setFlag (aCfg (portEp p)) 2 on) s)

/-- PORT_EVSTAMP (R143). -/
def execPortEvstamp (ln : Line) (p : PortSel) (on : Bool) (s : State) : Host.Outcome State Fault Refusal :=
  done (portLine ln {} [] (okay fun t => t.setFlag (aCfg (portEp p)) 3 on) s)

/-- PORT_BAUD (R143): the rate changes after the stop bit of ok. DEDUCED: assumption 38. -/
def execPortBaud (ln : Line) (p : PortSel) (rate : Nat) (s : State) : Host.Outcome State Fault Refusal :=
  done (portLine ln {} [(.range, !baudRates.contains rate)] (okay id) s
    fun t => t.setFld (aCfg (portEp p)) 4 3 (baudRates.idxOf rate))

/-- PORT_MAILTO (R143). -/
def execPortMailto (ln : Line) (p : PortSel) (t : Qty) (s : State) : Host.Outcome State Fault Refusal :=
  let v := qSteps t .ms 1 1000000
  done (portLine ln {} [(.unit, qBad t .ms), (.range, outside v 10 60000)]
    (okay fun u => u.setFld (aCfg (portEp p)) 16 16 v.toNat) s)

/-- PORT_STATUS (R143). -/
def execPortStatus (ln : Line) (p : PortSel) (s : State) : Host.Outcome State Fault Refusal :=
  done (portLine ln { locked := false, replay := false } [] (value fun t =>
    let a := aCfg (portEp p)
    [kw "mode" (if t.flag a 0 then "generated" else "typed"), kb "crc" (t.flag a 1), kb "events" (t.flag a 2),
     kb "evstamp" (t.flag a 3), kn "baud" (baudRates.getD (t.fld a 4 3) 0), kn "tags" (t.port (portEp p)).tags.length,
     kn "mail" (t.port (portEp p)).remote.length, ky "locked" (t.locked (portEp p))]) s)

/-! ### The event queue (R129, R144) -/

/-- The class of an event line: the code in lowercase (R311); time events are two words (chapter 3). -/
def evText : Ev → String
  | .holdupLow => "holdup_low" | .profileNone => "profile_none" | .safePin => "safe_pin" | .wdogExpire => "wdog_expire"
  | .unitFenced => "unit_fenced" | .safeEnter => "safe_enter" | .safeClear => "safe_clear" | .safeRelease => "safe_release"
  | .safeHoldexp => "safe_holdexp" | .linkLost => "link_lost" | .linkUp => "link_up" | .groupUnpowered => "group_unpowered"
  | .groupPowered => "group_powered" | .vfLow => "vf_low" | .vfHigh => "vf_high" | .vfOk => "vf_ok" | .tempWarn => "temp_warn"
  | .tempTrip => "temp_trip" | .tempOk => "temp_ok" | .shortTrip => "short_trip" | .limitTrip => "limit_trip"
  | .fuseTrip => "fuse_trip" | .thermalTrip => "thermal_trip" | .tripRetry => "trip_retry" | .tripCleared => "trip_cleared"
  | .overload => "overload" | .dofMismatch => "dof_mismatch" | .openLoad => "open_load" | .undercurrent => "undercurrent"
  | .wirebreak => "wirebreak" | .wireok => "wireok" | .loopOff => "loop_off" | .rtdOpen => "rtd_open" | .rtdShort => "rtd_short"
  | .underrange => "underrange" | .overrange => "overrange" | .aoDeviation => "ao_deviation" | .aoReadback => "ao_readback"
  | .window => "window" | .xchkFail => "xchk_fail" | .calMismatch => "cal_mismatch" | .modFail => "mod_fail"
  | .tallyFail => "tally_fail" | .ageLimit => "age_limit" | .timeStep => "time step" | .timeSlewed => "time slewed"
  | .timeSlewcut => "time slewcut" | .skip => "skip" | .ringJoined => "ring_joined" | .ringStopped => "ring_stopped"
  | .ringRound => "ring_round" | .markLoss => "mark_loss" | .schedMismatch => "sched_mismatch" | .dupAddr => "dup_addr"
  | .nopos => "nopos" | .tkConflict => "tk_conflict" | .tkTakeover => "tk_takeover" | .tkYield => "tk_yield"
  | .ringWrap => "ring_wrap" | .ringUnwrap => "ring_unwrap" | .ringWake => "ring_wake" | .wakeMiss => "wake_miss"
  | .wakeOk => "wake_ok" | .suspectUpstream => "suspect_upstream" | .cocoonAbort => "cocoon_abort" | .blockCrc => "block_crc"
  | .pflashDone => "pflash_done" | .pflashEcc => "pflash_ecc" | .profSwap => "prof_swap" | .rflashDone => "rflash_done"
  | .rflashEcc => "rflash_ecc" | .rflashBad => "rflash_bad" | .rflashWorn => "rflash_worn" | .trailEcc => "trail_ecc"
  | .recTrigger => "rec_trigger" | .recDurable => "rec_durable" | .recFull => "rec_full" | .recGap => "rec_gap"
  | .recErased => "rec_erased" | .replayDiv => "replay_div" | .replayEnd => "replay_end"

/-- The object of an event line (R311); the classes skip and time and the events of Chrysalis show none, but UNIT_FENCED names every
unit. DEDUCED: assumption 35. -/
def objFlds (c : Ev) : Obj → List Fld
  | .dev => [fw "dev"]
  | .grp g => [fw ("g" ++ toString g)]
  | .ch n => [fch n]
  | .unit u => if (u = .chrys ∨ u = .skip) ∧ c ≠ .unitFenced then [] else [{ val := .un u }]
  | .none => []

/-- The class, object and details of an event as its line shows them. -/
def Event.flds (e : Event) : List Fld := fw (evText e.cls) :: (objFlds e.cls e.obj ++ e.det)

/-- EV_GET (R144). -/
def execEvGet (ln : Line) (s : State) : Host.Outcome State Fault Refusal :=
  done (runLine ln { locked := false } (fun _ => []) (value fun t =>
    match t.evq with
    | [] => [fw "none"]
    | e :: _ => [kn "n" e.seq.toNat, kn "t" e.ts.toNat] ++ e.ev.flds) s)

/-- EV_ACK (R144): the oldest entries up to and including one. -/
def execEvAck (ln : Line) (seq : Nat) (s : State) : Host.Outcome State Fault Refusal :=
  done (runLine ln { locked := false } (fun _ => [(.range, decide (0xFFFF < seq))]) (fun t =>
    let before := (t.evq.takeWhile fun e => decide (e.seq.toNat ≠ seq)).length
    let k := if before < t.evq.length then before + 1 else 0
    ({ t with evq := t.evq.drop k }, .vals [kn "acked" k])) s)

/-- EV_CLEAR (R144). -/
def execEvClear (ln : Line) (s : State) : Host.Outcome State Fault Refusal :=
  done (runLine ln { locked := false } (fun _ => []) (okay fun t => { t with evq := [] }) s)

/-! ### The watchdog (R132, R133, R144) -/

/-- KICK (R132, Table 11.1): the watchdog is reloaded and WDOG clears. -/
def execKick (ln : Line) (s : State) : Host.Outcome State Fault Refusal :=
  done (runLine ln { locked := false } (fun _ => []) (okay fun t => clearCause 0x30004 3 .dev (kickWdog t)) s)

/-- WDOG_SET (R132). -/
def execWdogSet (ln : Line) (t : Qty) (s : State) : Host.Outcome State Fault Refusal :=
  let v := qSteps t .ms 1 1000000
  done (runLine ln {} (fun _ => [(.unit, qBad t .ms), (.range, outside v 10 600000)]) (okay (setWdog v.toNat)) s)

/-- WDOG_OFF (R132). -/
def execWdogOff (ln : Line) (s : State) : Host.Outcome State Fault Refusal :=
  done (runLine ln {} (fun _ => []) (okay (setWdog 0)) s)

/-- WDOG_GET (R144): period and remaining time in ms. -/
def execWdogGet (ln : Line) (s : State) : Host.Outcome State Fault Refusal :=
  done (runLine ln { locked := false } (fun _ => []) (value fun t =>
    if t.wdPeriod = 0 then [fw "off"] else [fn t.wdPeriod, fn t.wdLeft]) s)

/-- WDOG_EXPIRE (R133): WDOG is held at device scope, and the watchdog stops. -/
def execWdogExpire (s : State) : Host.Outcome State Fault Refusal :=
  done (if s.wdog.running && s.running && !s.asleep && !s.replaying then
    holdDev 3 ({ s with wdog := { s.wdog with running := false } }.emit .wdogExpire .dev [])
  else s)

/-! ### The lock (R134 to R136) -/

/-- Sets whether an entry point is unlocked. -/
def setUnlocked (e : Ep) (b : Bool) (s : State) : State := s.setPort e { s.port e with unlocked := b }

/-- LOCK (R135). -/
def execLock (ln : Line) (s : State) : Host.Outcome State Fault Refusal :=
  done (runLine ln { locked := false } (fun t => [(.nopassword, !t.pwSet)]) (okay (setUnlocked ln.ep false)) s)

/-- UNLOCK (R134 to R136, R413): none is a token of another shape. DEDUCED: assumption 37. -/
def execUnlock (ln : Line) (pw : Option (BitVec 64)) (s : State) : Host.Outcome State Fault Refusal :=
  done (runLine ln { locked := false, secret := true } (fun _ => [(.arg, pw.isNone)]) (fun t =>
    let r := tryPassword ln.ep (pw.getD 0) t
    match r.1 with
    | 0 => (setUnlocked ln.ep true r.2, .ok)
    | 8 => (r.2, .err .pwlock)
    | _ => (r.2, .err (if t.pwSet then .password else .nopassword))) s)

/-! ### Split pairs (R139, R140, R532) -/

/-- The address of the low half of a pair. -/
def pairLo : Pair → Nat
  | .clk => 0x10004
  | .count n => chA n 0x48
  | .edge n => chA n 0x54
  | .aits n => chA n 0x54
  | .mark c => rgA c 0x24
  | .div => 0x70034
  | .rxstat c e => aRxStat c e + 8

/-- The pair that an address belongs to, and whether it is the high half (Table 19.2). -/
def State.pairAt (s : State) (a : Nat) : Option (Pair × Bool) :=
  if s.member.lacks a then none
  else if a = 0x10004 ∨ a = 0x10008 then some (.clk, decide (a = 0x10008))
  else if a = 0x70034 ∨ a = 0x70038 then some (.div, decide (a = 0x70038))
  else if 0x50000 ≤ a ∧ a < 0x50200 ∧ (a % 0x100 = 0x24 ∨ a % 0x100 = 0x28) then
    some (.mark (a / 0x100 % 2), decide (a % 0x100 = 0x28))
  else if 0x40060000 ≤ a ∧ a < 0x40062000 ∧ 8 ≤ a % 0x10 then
    some (.rxstat (a / 0x1000 % 2) (a % 0x1000 / 0x10), decide (a % 0x10 = 0xC))
  else if 0x10000000 ≤ a ∧ a < 0x18000000 ∧ a % 0x1000000 < 0x10000 then
    let n := (chanOf a).1
    let o := (chanOf a).2
    if isDi (s.mode n) then
      if o = 0x48 ∨ o = 0x4C then some (.count n, decide (o = 0x4C))
      else if o = 0x54 ∨ o = 0x58 then some (.edge n, decide (o = 0x58))
      else none
    else if isAi (s.mode n) ∧ (o = 0x54 ∨ o = 0x58) then some (.aits n, decide (o = 0x58))
    else none
  else none

/-- A torn read sets the flag of Table 19.2. -/
def tornFlag (p : Pair) (s : State) : State :=
  match p with
  | .clk => s.setFlag 0x10000 6 true
  | .count n => s.setFlag (aStat n) 18 true
  | .edge n => s.setFlag (aStat n) 18 true
  | .aits n => s.setFlag (aStat n) 27 true
  | .mark c => s.setFlag (rgA c 0x2C) 2 true
  | .div => s
  | .rxstat _ _ => s

/-- A read of one register by an entry point (R139). -/
def readReg (e : Ep) (a : Nat) (s : State) : Word × State :=
  match s.pairAt a with
  | some (p, false) => (s.view a, s.setPort e { s.port e with rdShadow := some { pair := p, high := s.view (a + 4), used := false } })
  | some (p, true) =>
    match (s.port e).rdShadow with
    | some x =>
      if x.pair = p ∧ !x.used then (x.high, s.setPort e { s.port e with rdShadow := some { x with used := true } })
      else (s.view a, tornFlag p s)
    | none => (s.view a, tornFlag p s)
  | none => (s.view a, s)

/-- Reads registers in ascending order. -/
def readRegs (e : Ep) : List Nat → State → List Word × State
  | [], s => ([], s)
  | a :: l, s =>
    let r := readReg e a s
    let q := readRegs e l r.2
    (r.1 :: q.1, q.2)

/-- What a read of a flash window or of the trail does beside it: the words met, and the MEMRD record (R463, 15.3.1, R455). -/
def readMem (l : List Nat) (vs : List Word) (s : State) : State :=
  let a := l.getD 0 0
  if 0x80000000 ≤ a ∧ a < 0x80400000 then
    let t := (dedup (l.map fun x => (x - 0x80000000) / 8 * 8)).foldr (fun x u => (pfRead x u).2) s
    t.record 0x08 0 0 (word a :: vs)
  else if 0x88000 ≤ a ∧ a < 0x8C800 then s.record 0x08 1 0 (word a :: vs)
  else if 0xC0000000 ≤ a then (trailMeet (l.map (· - 0xC0000000)) s).record 0x08 2 0 (word a :: vs)
  else s

/-! ### rd (R137) -/

/-- The addresses of a read. -/
def rdAddrs (addr count : Nat) : List Nat := (List.range count).map fun i => addr + 4 * i

/-- Whether a read stays in the range of the core set (R49). -/
def rdCore (addr count : Nat) : Bool := decide (addr + 4 * (count - 1) < 0x60)

/-- Whether the replay console reads the addresses (R485). -/
def rdReplay (addr count : Nat) : Bool :=
  let last := addr + 4 * (count - 1)
  rdCore addr count || (decide (0x70000 ≤ addr) && decide (last < 0x71000)) || decide (0xC0000000 ≤ addr)

/-- Whether an address lies in a profile bank that is busy. -/
def State.pfBusyAt (s : State) (a : Nat) : Bool :=
  decide (0x80000000 ≤ a) && decide (a < 0x80400000) && s.pfBusy (pfBank (a - 0x80000000))

/-- Why a read is refused (R137): the codes of its own order come last, CRAWL among them. -/
def rdErr (ln : Line) (addr count : Nat) (s : State) : Option Code :=
  let l := rdAddrs addr count
  let base := pick (baseChecks ln { locked := false, core := true, replay := !rdReplay addr count } s ++
    [(.starting, !s.sup.crawl && decide (s.sup.stage < 8) && !rdCore addr count),
     (.range, decide (count = 0) || decide (16 < count))])
  match base with
  | some c => some c
  | none => pickFirst
    [(.align, !aligned addr), (.noaddr, l.any fun a => (s.access a).isNone), (.busybank, l.any s.pfBusyAt),
     (.crawl, s.sup.crawl && !rdCore addr count)]

/-- Runs a read. -/
def rdLine (ln : Line) (addr count : Nat) (s : State) : State :=
  execLine ln { locked := false, core := rdCore addr count } (rdErr ln addr count)
    (fun t =>
      let l := rdAddrs addr count
      let r := readRegs ln.ep l t
      (readMem l r.1 r.2, .vals (r.1.map fun v => { val := .hex v }))) s

/-- RD (R137). -/
def execRd (ln : Line) (addr count : Nat) (s : State) : Host.Outcome State Fault Refusal := done (rdLine ln addr count s)

/-! ### wr (R138) -/

/-- Whether a write to the trail is one of the replay console: in PAUSED, at or after the next record to be injected. -/
def State.editAt (s : State) (a : Nat) : Bool :=
  decide (s.fld aRecStat 0 3 = 3) && decide (0xC0000000 ≤ a) && decide (a < 0xC0000000 + s.member.trailSize) &&
  match s.chrys.replay with
  | some r => decide (r.next ≤ a - 0xC0000000)
  | none => false

/-- A write of a recording word in PAUSED: the result carries EDITED (R485). -/
def editWord (a : Nat) (v : Word) (s : State) : State :=
  let off := a - 0xC0000000
  let w := sget 0 s.chrys.trail (off / 8)
  let x : BitVec 64 := if off % 8 < 4 then w.extractLsb' 32 32 ++ v else v ++ w.extractLsb' 0 32
  { s with chrys := { s.chrys with trail := sset 0 s.chrys.trail (off / 8) x } }.setFlag aDivKind 9 true

/-- The channel of an OUT register. -/
def outChan (a : Nat) : Option Nat :=
  if 0x10000000 ≤ a ∧ a < 0x18000000 ∧ a % 0x1000000 < 0x10000 ∧ a % 0x1000 = 0xC then some (chanOf a).1 else none

/-- Whether SAFE.RELEASE names an object that the member lacks. -/
def State.releaseLacks (s : State) (v : Nat) : Bool :=
  (decide (v % 4 = 1) && decide (s.member.groups ≤ v / 16 % 8)) || (decide (v % 4 = 2) && decide (s.member.channels ≤ v / 256 % 128))

/-- The refusals of a write beside the base checks (R138): a misaligned address holds no register. DEDUCED: assumption 31. -/
def wrChecks (addr value : Nat) (s : State) : List (Code × Bool) :=
  let acc := if aligned addr then s.access addr else none
  let blocked := acc.bind s.accBlocked
  [(.absent, (s.member.lacks addr && acc.isSome) || (decide (addr = 0x30008) && s.releaseLacks value)),
   (.armed, decide (blocked = some .armed)), (.notstopped, decide (blocked = some .notstopped)),
   (.bound, match outChan addr with | some n => s.flag (chA n 0) 6 | none => false),
   (.range, decide (2 ^ 32 ≤ value))] ++
  (if addr = 0x80114 then rcmdChecks (word value) s else []) ++
  [(.align, !aligned addr), (.noaddr, acc.isNone),
   (.busybank, s.pfBusyAt addr || (decide (acc = some .seq) && s.pwBlocked (addr - 0x80000000))),
   (.readonly, decide (acc = some .ro) || (decide (acc = some .trail) && !s.editAt addr))]

/-- The effect of a write: a bank's sequencer, a recording word in PAUSED, the held low half of a count, a register. -/
def wrEffect (e : Ep) (addr : Nat) (v : Word) (s : State) : State :=
  match s.access addr with
  | some .seq => pfWrite e (addr - 0x80000000) v s
  | some .trail => editWord addr v s
  | _ =>
    match s.pairAt addr with
    | some (.count n, false) => s.setPort e { s.port e with wrShadow := some (.count n, v) }
    | some (.count n, true) =>
      let lo := match (s.port e).wrShadow with
        | some (p, x) => if p = Pair.count n then x else s.reg (chA n 0x48)
        | none => s.reg (chA n 0x48)
      setCount n (v ++ lo) (s.setPort e { s.port e with wrShadow := none })
    | _ => regWrite addr v s

/-- MODE and BAUD of a port take effect after the stop bit of ok. DEDUCED: assumption 27. -/
def wrPost (addr : Nat) (v : Word) (s : State) : State :=
  if addr = 0x20000 ∨ addr = 0x20010 then (s.setFlag addr 0 (bit v 0)).setFld addr 4 3 (bits v 4 3) else s

/-- Runs a write. -/
def wrLine (ln : Line) (addr value : Nat) (s : State) : State :=
  let pre := taken ln s
  let sec := decide (0x80000000 ≤ addr) && decide (addr < 0x80400000) && pre.pwSecret (addr - 0x80000000)
  runLine ln { replay := !pre.editAt addr, secret := sec } (wrChecks addr value)
    (okay (wrEffect ln.ep addr (word value))) s (wrPost addr (word value))

/-- WR (R138). -/
def execWr (ln : Line) (addr value : Nat) (s : State) : Host.Outcome State Fault Refusal := done (wrLine ln addr value s)

/-- SPLIT_LOW_READ (R139). DEDUCED: assumption 30. -/
def execSplitLowRead (ln : Line) (p : Pair) (s : State) : Host.Outcome State Fault Refusal := done (rdLine ln (pairLo p) 1 s)

/-- SPLIT_HIGH_READ (R139). -/
def execSplitHighRead (ln : Line) (p : Pair) (s : State) : Host.Outcome State Fault Refusal := done (rdLine ln (pairLo p + 4) 1 s)

/-- SPLIT_LOW_WRITE (R140). -/
def execSplitLowWrite (ln : Line) (p : Pair) (value : Word) (s : State) : Host.Outcome State Fault Refusal :=
  done (wrLine ln (pairLo p) value.toNat s)

/-- SPLIT_HIGH_WRITE (R140, R183). -/
def execSplitHighWrite (ln : Line) (p : Pair) (value : Word) (s : State) : Host.Outcome State Fault Refusal :=
  done (wrLine ln (pairLo p + 4) value.toNat s)

/-! ### Lines that are refused (R96 to R98, R100, R116, R119, R141) -/

/-- The code of a refusal. -/
def lineErrCode : LineErr → Code
  | .char => .char | .toolong => .toolong | .overrun => .overrun | .crc => .crc | .crcreq => .crcreq | .nocrc => .nocrc
  | .syntx => .syntx | .verb => .verb

/-- Counts a suffix that does not match (R116, R397). -/
def crcFailed (e : Ep) (s : State) : State :=
  let u := if e = .cp1 then 5 else 4
  ((s.count (aCvu u 4)).count (aCvu u 8)).setFlag (aPstat e) 0 true

/-- LINE_REFUSED: the line is answered with its code and executes nothing; only VERB makes a tag entry. DEDUCED: assumption 41. -/
def execLineRefused (ln : Line) (e : LineErr) (s : State) : Host.Outcome State Fault Refusal :=
  done (if e = .verb then gateLine ln { locked := false, core := true } (fun _ => some .verb) id s
    else if !s.serves ln.ep || s.waiting ln.ep then s
    else
      let bs := takenBytes ln s
      let t := recLine ln.ep false bs ((lineErrCode e).ctorIdx + 1) (taken ln s)
      let t := if ln.ep = .mail then t else if e = .crc then crcFailed ln.ep t
        else if e = .syntx then countSuffix ln t else t
      respond { ln with crc := ln.crc || decide (e = .crc) } (.loc (.err (lineErrCode e))) false t)

end Sys2Proof.Machine
end

