-- ==== Sys2Proof/Machine/Startup.lean ====
section
/-!
DEFINITION. Power, straps, start-up and the minimum service set (chapter 2): the supervisor, the stages S0 to S8, the resets,
run-time fencing, and the dev verb.
-/
namespace Sys2Proof.Machine

/-! ### Straps (R36 to R40) -/

/-- A strap of a strap set, by its place in SYS.STRAPS (Table 2.12). -/
def strap (x : BitVec 28) (lo w : Nat) : Nat := bits (x.setWidth 32) lo w

/-- The fallback strap set (R40): every strap 0 but PROF, strap defaults only. -/
def fallbackSet : BitVec 28 := 0x40000

/-- Whether R39 resolves a conflict of a strap set. -/
def strapConflict (x : BitVec 28) : Bool :=
  (decide (strap x 10 1 = 1) && decide (strap x 11 2 ≠ 0)) || decide (strap x 8 2 = 3)

/-- The strap reset of RING.ROLE0 (R383, R38, R39). -/
def strapRole (x : BitVec 28) : Word :=
  let tk := decide (strap x 10 1 = 1)
  let tkb := if tk then 0 else strap x 11 2
  let posm := if tk ∨ strap x 8 2 = 3 then 0 else strap x 8 2
  word ((if tk then 1 else if tkb ≠ 0 then 2 else 0) + 4 * tkb + 16 * posm + 256 * strap x 0 8)

/-- Takes the strap samples at reset release (R36, R40): two samples that differ fence the strap latch and select the fallback
set. The registers whose reset value is a strap follow (R69, R145, R383). DEDUCED: assumption 16. -/
def latchStraps (s1 s2 : BitVec 28) (s : State) : State :=
  let bad := decide (s1 ≠ s2)
  let x := if bad then fallbackSet else s1
  let w := setBit (setBit (x.setWidth 32) 28 bad) 29 (!bad && strapConflict x)
  let t := (s.setReg 0x24 w).setReg (rgA 0 0x40) (strapRole x)
  let t := t.setReg 0x20000 (word (0x03E80000 + strap x 13 1 + 0x10 * strap x 15 3))
  if bad then t.setFlag 0x30 1 true else t

/-- Moves start-up to a stage (R41). DEDUCED: assumption 14. -/
def toStage (n : Nat) (s : State) : State := { s with sup := { s.sup with stage := n } }

/-- Whether start-up stands at a stage and goes on: not in reset, at the floor or in crawl mode. -/
def State.atStage (s : State) (n : Nat) : Bool :=
  !s.sup.inReset && !s.sup.floor && !s.sup.crawl && decide (s.sup.stage = n)

/-! ### From power to lock (R33, R41, R60, R76) -/

/-- POWER_ON_RESET (R33): VCORE and VIO have stayed above their rising thresholds for 1 ms. A part that is held in reset for its
supplies is let go; any other has been without power, and this is its power-on reset (R55, R70, Table 2.9). DEDUCED: assumption
15. -/
def execPowerOnReset (s : State) : Host.Outcome State Fault Refusal :=
  let t := if s.sup.inReset && s.sup.porHeld then s else takeReset 0 s
  done { t with sup := { t.sup with porHeld := false, vcoreOk := true, vioOk := true } }

/-- RESET_RELEASE (R41, R36): power-on reset has ended and RESET# is high; s1 and s2 are the two samples of the straps. -/
def execResetRelease (s1 s2 : BitVec 28) (s : State) : Host.Outcome State Fault Refusal :=
  done (if s.sup.inReset && !s.sup.porHeld then
    latchStraps s1 s2 (toStage 1 { s with sup := { s.sup with inReset := false, resetLow := false } })
  else s)

/-- Locks every entry point when a password is set, as S2 does (R135). -/
def lockPoints (s : State) : State :=
  setUnlocked .mail (!s.pwSet) (setUnlocked .cp1 (!s.pwSet) (setUnlocked .cp0 (!s.pwSet) s))

/-- XO_QUALIFIED (R41, R42, R60, R135): late says that it took more than 2 ms. A strapped rate of 3 M or 12 M holds the S2 line. -/
def execXoQualified (late : Bool) (s : State) : Host.Outcome State Fault Refusal :=
  done (if s.atStage 1 then
    let t := lockPoints (toStage 2 { s with sup := { s.sup with xoLate := late } })
    if 6 ≤ t.fld 0x24 15 3 then { t with sup := { t.sup with s2Held := true } } else t.boot .s2
  else s)

/-- PLL_LOCK (R76): with VANA low the PLL does not lock (R33). -/
def execPllLock (s : State) : Host.Outcome State Fault Refusal :=
  done (if s.atStage 2 && s.sup.vanaOk then
    let t := toStage 3 { s with sup := { s.sup with pllLock := true } }
    if t.sup.s2Held then { t.boot .s2 with sup := { t.sup with s2Held := false } } else t
  else s)

/-- PLL_LOCK_TIMEOUT (R76, R45, R48). -/
def execPllLockTimeout (s : State) : Host.Outcome State Fault Refusal :=
  done (if s.atStage 2 then fenceUnit false .pll s else s)

/-! ### S4 (R45, R448, R457) -/

/-- Whether a table copy is newer: SEQ serial-compared (R426, Table 16.5). -/
def newerSeq (a b : Word) : Bool := decide (1 ≤ (a - b).toNat) && decide ((a - b).toNat < 2 ^ 31)

/-- The newest valid table copy (R448): bad lists the pages that do not read. With equal SEQ block 0 wins.
DEDUCED: assumption 17. -/
def State.bestCopy (s : State) (bad : List Nat) : Option TblCopy :=
  (s.rf.copies.filter fun c => !bad.contains (rfKey 0 c.blk c.page)).foldl (fun m c =>
    match m with
    | none => some c
    | some x => if newerSeq c.seq x.seq || (decide (c.seq = x.seq) && decide (c.blk < x.blk)) then some c else some x) none

/-- Loads the record flash table (R448); with no valid copy rflash fails its self-test. -/
def loadTable (bad : List Nat) (s : State) : State :=
  if s.fenced .rflash then s else
  match s.bestCopy bad with
  | none => s.setFlag 0x30 16 true
  | some c =>
    (({ s with rf := { s.rf with bad := c.bad, fact := c.fact, cnt := c.cnt } }.setReg 0x80108 c.seq).setFld aRtstat 0 1 c.blk)

/-- KEPT (R457): the reset had a cause of RESET_PIN, DEVRESET or XO_LOSS and VDRAM stayed in tolerance (vdramKept), and the trail
passed its self-test. Otherwise nothing of the recording area counts as written. DEDUCED: assumption 18. -/
def checkKept (s : State) : State :=
  if s.sup.vdramKept && !s.fenced .trail then
    (s.setFlag 0x70F00 0 true).setReg 0x70F08 (word s.member.trailSize)
  else { s with chrys := { s.chrys with trail := [], trailBad := [] } }

/-- The units that the self-tests fence, in SYS.FENCE: those the member has, but for the strap latch; the trail when VDRAM is
low (R33). DEDUCED: assumption 77. -/
def State.failedUnits (s : State) (f : BitVec 20) : Word :=
  let x := (sysUnits.filter fun u => s.hasUnit u && decide (u ≠ .strap)).foldl (fun w u =>
    match u.fenceBit with
    | some (_, b) => if f.getLsbD b then setBit w b true else w
    | none => w) 0
  if s.sup.vdramOk then x else setBit x 17 true

/-- SELF_TEST_COMPLETE (R45): the failed units are fenced, the record flash table is loaded, KEPT is judged, and the S4 line is
sent. A failed CP0 is the floor (R26); a failed PLL, fabric or SAFE leads to crawl mode (R48). DEDUCED: assumption 80. -/
def execSelfTestComplete (r : SelfTest) (s : State) : Host.Outcome State Fault Refusal :=
  done (if s.atStage 3 then
    let t := toStage 4 (s.setReg 0x30 (s.reg 0x30 ||| s.failedUnits r.failed))
    let t := checkKept (loadTable r.bad t)
    let t := forAll (List.range 7) (fun u v => { v with kat := sset 0 v.kat u v.clk.raw }) t
    if r.cp0 then enterFloor t
    else
      let t := t.boot (.s4 t.fenceCount)
      if t.fenced .pll then enterCrawl .pll t
      else if t.fenced .safe then enterCrawl .safe t
      else if t.fenced .fabric then enterCrawl .fabric t
      else t
  else s)

/-! ### S5 (R422, R53, R62, R63, R429) -/

/-- The bytes of a slot's records through its end record (R420). -/
def recordBytes (l : List (Nat × List Word)) : Nat := l.foldl (fun n r => n + 8 + 8 * ceilDiv r.2.length 2) 8

/-- The records of a slot as the capsules of the epoch carry them (Table 17.3). -/
def State.slotRecords (s : State) (slot : Nat) : List Word :=
  (List.range (recordBytes ((s.records slot).getD []) / 8)).flatMap fun i => halves (s.pfWord (slotA slot + 8 * i)).data

/-- Loads the profile of a slot: its records, its identity, and the index of the ladders (R429). -/
def loadProfile (slot : Nat) (s : State) : State :=
  let t := (loadSlot slot s).getD s
  let t := { t with
    sup := { t.sup with profSrc := slot + 1 }
    chrys := { t.chrys with prof := s.slotRecords slot
                            profCrc := (s.pfWord (sealA slot)).data.extractLsb' 32 16 } }
  forAll t.chans (fun n u => setLadder n (u.scanLadder n) u) (t.setReg 0x80010 (word (s.slotGen slot)))

/-- Applies the strap defaults (R53, R384): REACH holds the own segment. In place of a requested profile PROFILE_NONE is queued
(R63). -/
def strapDefaults (s : State) : State :=
  let g := (s.seg 0).toNat
  let t := s.setFlag (0x4002A800 + 4 * (g / 32)) (g % 32) true
  if s.fld 0x24 18 2 = 1 then t else t.emit .profileNone .dev []

/-- S5_PROFILE_LOAD (R422). -/
def execS5ProfileLoad (s : State) : Host.Outcome State Fault Refusal :=
  done (if s.atStage 4 then
    let t := toStage 5 s
    let k := t.chosenSlot
    let t := match k with
      | some slot => loadProfile slot t
      | none => strapDefaults t
    { t.boot (.s5 t.sup.profSrc (k.map t.slotGen)) with s5regs := t.regs }
  else s)

/-! ### S6 to S8 (R41, R52, R54) -/

/-- Whether the conditions of an auto-arm hold (R52). -/
def State.mayArm (s : State) : Bool :=
  s.flag 0x24 20 && decide (s.sup.profSrc ≠ 0) && !s.sup.safeLow && decide (s.fld 0x30004 0 16 = 1)

/-- Brings up a group at S6, or reports it unpowered (R59, R310). -/
def groupS6 (powered : BitVec 8) (r : List (Nat × BringUp)) (g : Nat) (s : State) : State :=
  if powered.getLsbD g then
    bringUp 0 g (sget {} r g) ((if (s.gr g).vf then s else supplyBack false g s).setFlag (aGstat g) 0 true)
  else groupUnpowered g s

/-- S6_GROUP_BRINGUP (R41): powered has a bit for each group whose supply is present, r what each brings. -/
def execS6GroupBringup (powered : BitVec 8) (r : List (Nat × BringUp)) (s : State) : Host.Outcome State Fault Refusal :=
  done (if s.atStage 5 then
    let t := toStage 6 s
    let t := forAll t.groups (groupS6 powered r) t
    let t := if t.mayArm then armPart t else t
    t.boot (.s6 (t.groups.filter (t.powered ·)).length t.member.groups t.sup.armed)
  else s)

/-- Whether the RLEN straps enable a controller (R38): its two ports; the latched value stands for all four. -/
def State.portsOn (s : State) (c : Nat) : Bool := decide (s.fld 0x24 (24 + 2 * c) 2 ≠ 0)

/-- An enabled controller leaves OFF (R54): for LISTEN with a schedule, else for STOPPED. -/
def ringS7 (c : Nat) (s : State) : State :=
  if !s.portsOn c || s.fenced (ringUn c) || s.fenced .shadow then s
  else if s.nslot c ≠ 0 then ringListen c (s.setReg (rgA c 0x18) (s.schedId c))
  else s.setFld (rgA c 0) 0 4 5

/-- S7_RING_START (R54). -/
def execS7RingStart (s : State) : Host.Outcome State Fault Refusal :=
  done (if s.atStage 6 then
    let t := toStage 7 s
    forAll (List.range t.member.rings) ringS7 t
  else s)

/-- The watchdog period of the WDOG strap in ms (Table 2.3). DEDUCED: assumption 21. -/
def wdogStrap : Nat → Nat
  | 0 => 0 | 1 => 1000 | 2 => 10000 | _ => 60000

/-- S8_RUN (R41): the watchdog starts, Chrysalis begins an epoch (R462) after freezing the previous one (R475), the S8 line is
sent, with the prompt behind it in typed mode (R112). -/
def execS8Run (s : State) : Host.Outcome State Fault Refusal :=
  done (if s.atStage 7 then
    let t := toStage 8 s
    let t := setWdog (wdogStrap (t.fld 0x24 22 2)) t
    let t := startEpoch (if t.mayRecord then freezePrev t else t)
    let t := t.boot (.s8 (decide (t.service = 3)))
    if t.generated .cp0 then t else t.send .cp0 .prompt
  else s)

/-- DIRECTORY_SCAN (R482): bad lists the pages whose read is uncorrectable. -/
def execDirectoryScan (bad : List Nat) (s : State) : Host.Outcome State Fault Refusal :=
  done (if s.running && !s.asleep && !s.chrys.scanned && !s.fenced .chrys && !s.fenced .rflash && !s.fenced .cvuF then
    copyOn (scanDir bad s)
  else s)

/-! ### Supplies (R34, R35) -/

/-- A reset source acts: it begins a reset (R55), or, during a reset, sets its bit (R70). DEDUCED: assumption 5. -/
def beginReset (b : Nat) (s : State) : State :=
  if s.sup.inReset then
    let t := s.setFlag 0x28 b true
    { t with sup := { t.sup with porHeld := t.sup.porHeld || decide (b ≤ 2), vdramKept := t.sup.vdramKept && decide (3 ≤ b) } }
  else takeReset b s

/-- BROWN_OUT_VCORE (R34). -/
def execBrownOutVcore (s : State) : Host.Outcome State Fault Refusal :=
  done (if s.sup.vcoreOk then beginReset 1 { s with sup := { s.sup with vcoreOk := false } } else s)

/-- BROWN_OUT_VIO (R34). -/
def execBrownOutVio (s : State) : Host.Outcome State Fault Refusal :=
  done (if s.sup.vioOk then beginReset 2 { s with sup := { s.sup with vioOk := false } } else s)

/-- HOLDUP_LOW (R35, R186): VIO has fallen below the threshold. HOLDUP_SEEN is set at the fall, not while the level stands, so that a
write that clears it during HOLDUP_LOW leaves it clear. DESIGN CHOICE: assumption 87. -/
def execHoldupLow (s : State) : Host.Outcome State Fault Refusal :=
  done (if s.sup.holdupLow then s else
    let t := { s with sup := { s.sup with holdupLow := true } }.setFlag 0x2C 1 true
    if t.dead then t else
      let t := t.record 0x06 0 1 []
      forAll t.chans persist (t.emit .holdupLow .dev []))

/-- HOLDUP_LOW_CLEAR (R35): the copy to the record flash goes on. -/
def execHoldupLowClear (s : State) : Host.Outcome State Fault Refusal :=
  done (if s.sup.holdupLow then
    let t := { s with sup := { s.sup with holdupLow := false } }
    if t.dead then t else copyOn (t.record 0x06 0 0 [])
  else s)

/-- VANA_OK_CHANGE (R34): status only. -/
def execVanaOkChange (ok : Bool) (s : State) : Host.Outcome State Fault Refusal :=
  done (if s.sup.vanaOk = ok then s else
    { s with sup := { s.sup with vanaOk := ok } }.record 0x06 1 ok.toNat [])

/-- VDRAM_OK_CHANGE (R34): status only; a fall before S4 means that the trail is not kept (R457). -/
def execVdramOkChange (ok : Bool) (s : State) : Host.Outcome State Fault Refusal :=
  done (if s.sup.vdramOk = ok then s else
    { s with sup := { s.sup with vdramOk := ok, vdramKept := s.sup.vdramKept && ok } }.record 0x06 2 ok.toNat [])

/-! ### Resets and run-time fencing (R56, R61, R309) -/

/-- RESET_PIN (R56): RESET# has been low for 1 µs; the part stays in S0 until RESET_RELEASE. -/
def execResetPin (s : State) : Host.Outcome State Fault Refusal :=
  done (if s.sup.resetLow then s else beginReset 3 { s with sup := { s.sup with resetLow := true } })

/-- XO_LOSS (R61): while the part runs. -/
def execXoLoss (s : State) : Host.Outcome State Fault Refusal := done (if s.dead then s else takeReset 5 s)

/-- Whether a unit has a run-time check (R309, Table 11.4). -/
def runChecked (u : Un) : Bool := decide (u ≠ .sup) && decide (u ≠ .xo) && decide (u ≠ .strap)

/-- UNIT_FENCED (R309). -/
def execUnitFenced (u : Un) (s : State) : Host.Outcome State Fault Refusal :=
  done (if !s.dead && runChecked u then fenceUnit true u s else s)

/-! ### The dev verb (R27, R64 to R67) -/

/-- The form of a dev line: of the crawl set, never locked or refused during replay. -/
def devForm : Form := { locked := false, core := true, replay := false }

/-- A unique ID in eight groups of four digits (R65). -/
def uidText (u : BitVec 128) : String :=
  "-".intercalate ((List.range 8).map fun i => String.ofList (hexText 4 (u.toNat / 2 ^ (112 - 16 * i))))

/-- The stepping (Table 1.4). -/
def stepText (id : Word) : String :=
  String.ofList [Char.ofNat (64 + bits id 4 4)] ++ toString (bits id 0 4)

/-- The loaded profile's name. -/
def profName : Nat → String
  | 0 => "none" | 1 => "A" | _ => "B"

/-- The powered and the populated groups. -/
def State.groupsText (s : State) : String :=
  toString (s.groups.filter (s.powered ·)).length ++ "/" ++ toString s.member.groups

/-- Whether dev status reports the part armed: not with SAFE fenced (R50). -/
def State.armedShown (s : State) : Bool := s.sup.armed && !s.fenced .safe

/-- The value line of dev status (Table 2.10). -/
def State.devStatus (s : State) : List Fld :=
  [kw "stage" ("S" ++ toString s.sup.stage),
   kw "service" (match s.service with | 1 => "core" | 2 => "basic" | _ => "full"),
   kw "member" s.member.name, kw "step" (stepText s.member.sysId), kw "uid" (uidText s.uid), ky "armed" s.armedShown,
   kw "prof" (profName s.sup.profSrc), kn "fences" s.fenceCount, kw "groups" s.groupsText]

/-- DEV_STATUS (R65). -/
def execDevStatus (ln : Line) (s : State) : Host.Outcome State Fault Refusal :=
  done (runLine ln devForm (fun _ => []) (value State.devStatus) s)

/-- The value line of dev fence (R66). -/
def State.devFence (s : State) : List Fld :=
  match s.units.filter (s.fenced ·) with
  | [] => [fw "none"]
  | l => l.map fun u => { val := .un u }

/-- DEV_FENCE (R66). -/
def execDevFence (ln : Line) (s : State) : Host.Outcome State Fault Refusal :=
  done (runLine ln devForm (fun _ => []) (value State.devFence) s)

/-- The checks of a unit name (R27, R12). -/
def unitObj (u : Un) (s : State) : List (Code × Bool) :=
  match u with
  | .grp g _ => grObj g s
  | _ => []

/-- Whether a unit works but is not enabled (R27): a controller that is OFF, a Ringlet port's unit without its port, and what
crawl mode stops (R48). DEDUCED: assumption 19. -/
def State.unitOff (s : State) : Un → Bool
  | .ring0 => decide (s.ringSt 0 = 0)
  | .ring1 => decide (s.ringSt 1 = 0)
  | .cvuL0 => !s.flag 0x24 24
  | .cvuL1 => !s.flag 0x24 25
  | .cvuL2 => !s.flag 0x24 26
  | .cvuL3 => !s.flag 0x24 27
  | .cp1 => s.sup.crawl
  | .chrys => s.sup.crawl
  | .pflash => s.sup.crawl
  | .rflash => s.sup.crawl
  | .trail => s.sup.crawl
  | .grp _ .link => s.sup.crawl
  | _ => false

/-- The state of a unit (R27). -/
def State.unitState (s : State) (u : Un) : String :=
  if !s.hasUnit u then "absent"
  else if s.fenced u then "fenced"
  else if (match u with | .grp g _ => s.unpowered g | _ => false) then "unpowered"
  else if s.unitOff u then "off" else "ok"

/-- DEV_UNIT (R27). -/
def execDevUnit (ln : Line) (u : Un) (s : State) : Host.Outcome State Fault Refusal :=
  done (runLine ln devForm (unitObj u) (value fun t => [fw (t.unitState u)]) s)

/-- Whether a dev reset repeats the last tagged one, within 600 s of the S2 that followed it (R64). DEDUCED: assumption 20. -/
def State.resetRepeats (s : State) (ln : Line) : Bool :=
  match s.sup.resetTag, ln.tag with
  | some x, some g => decide (x.ep = ln.ep) && decide (x.origin = ln.origin) && decide (x.tag = g) &&
      (x.due || decide (x.ran + s.clk.raw ≤ 240000000000))
  | _, _ => false

/-- The controller whose queue took the answer to a line of the mail entry point, if one did; s stood before it. -/
def answerSentBy (ln : Line) (s t : State) : Option Nat :=
  match ln.ep, ln.origin with
  | .mail, some o => (t.route o.node).filter fun c => decide ((s.rg c).queue.length < (t.rg c).queue.length)
  | _, _ => none

/-- The last fragment of a controller's queue carries a dev reset (R67). -/
def markReset (c : Nat) (s : State) : State :=
  let q := (s.rg c).queue
  s.setRg c { s.rg c with queue := q.take (q.length - 1) ++ (q.drop (q.length - 1)).map fun f => { f with reset := true } }

/-- Answers a dev reset and begins its reset (R67); a tag is kept (R64). The reset of the mail entry point begins when the MAIL fragment
that carries the answer has been sent, or at once where no fragment carries one. -/
def devReset (ln : Line) (s : State) : State :=
  let tag := match ln.tag with
    | some g => some { ep := ln.ep, origin := ln.origin, tag := g, due := true }
    | none => s.sup.resetTag
  let t := answer ln .ok { s with sup := { s.sup with resetTag := tag } }
  match answerSentBy ln s t with
  | some c => markReset c t
  | none => takeReset 4 t

/-- DEV_RESET (R64, R67): a repeated one answers ok ~dup and does not reset. -/
def execDevReset (ln : Line) (s : State) : Host.Outcome State Fault Refusal :=
  done (gateLine ln devForm (fun t => pick (baseChecks ln devForm t))
    (fun t => if t.resetRepeats ln then respond ln (.loc .ok) true (addTag ln (some (.loc .ok)) t)
      else devReset ln t) s)

/-! ### Idling -/

/-- One CLK_R cycle with no command (R79, R82). At full speed the fuse models step every 50 µs (R222).
DESIGN CHOICE: assumption 1. -/
def idleCycle (s : State) : State :=
  let t := s.tick
  if t.sup.pllLock && !t.dead && !t.asleep && decide (t.clk.raw % 20000 = 0) then fuseSteps t else t

end Sys2Proof.Machine
end

