-- ==== Sys2Proof/Machine/Dispatch.lean ====
section
/-!
DEFINITION. The effect of every command: one arm per constructor of Instr, each a direct call of its meaning.
-/
namespace Sys2Proof.Machine

/-- The effect of a command on everything but the queue. -/
def exec (i : Instr) (s : State) : Host.Outcome State Fault Refusal :=
  match i with
  | .powerOnReset => Sys2Proof.Machine.execPowerOnReset s
  | .resetRelease s1 s2 => Sys2Proof.Machine.execResetRelease s1 s2 s
  | .xoQualified late => Sys2Proof.Machine.execXoQualified late s
  | .pllLock => Sys2Proof.Machine.execPllLock s
  | .pllLockTimeout => Sys2Proof.Machine.execPllLockTimeout s
  | .selfTestComplete r => Sys2Proof.Machine.execSelfTestComplete r s
  | .s5ProfileLoad => Sys2Proof.Machine.execS5ProfileLoad s
  | .s6GroupBringup powered r => Sys2Proof.Machine.execS6GroupBringup powered r s
  | .s7RingStart => Sys2Proof.Machine.execS7RingStart s
  | .s8Run => Sys2Proof.Machine.execS8Run s
  | .directoryScan bad => Sys2Proof.Machine.execDirectoryScan bad s
  | .brownOutVcore => Sys2Proof.Machine.execBrownOutVcore s
  | .brownOutVio => Sys2Proof.Machine.execBrownOutVio s
  | .holdupLow => Sys2Proof.Machine.execHoldupLow s
  | .holdupLowClear => Sys2Proof.Machine.execHoldupLowClear s
  | .vanaOkChange ok => Sys2Proof.Machine.execVanaOkChange ok s
  | .vdramOkChange ok => Sys2Proof.Machine.execVdramOkChange ok s
  | .resetPin => Sys2Proof.Machine.execResetPin s
  | .xoLoss => Sys2Proof.Machine.execXoLoss s
  | .unitFenced u => Sys2Proof.Machine.execUnitFenced u s
  | .devStatus ln => Sys2Proof.Machine.execDevStatus ln s
  | .devFence ln => Sys2Proof.Machine.execDevFence ln s
  | .devUnit ln u => Sys2Proof.Machine.execDevUnit ln u s
  | .devReset ln => Sys2Proof.Machine.execDevReset ln s
  | .rxByte ep b => Sys2Proof.Machine.execRxByte ep b s
  | .typedByte ep b => Sys2Proof.Machine.execTypedByte ep b s
  | .linegap ep => Sys2Proof.Machine.execLinegap ep s
  | .typedHoldTimeout ep => Sys2Proof.Machine.execTypedHoldTimeout ep s
  | .eventLineSend ep => Sys2Proof.Machine.execEventLineSend ep s
  | .tagEntryExpiry ep tag => Sys2Proof.Machine.execTagEntryExpiry ep tag s
  | .remoteLineForward ln dst text => Sys2Proof.Machine.execRemoteLineForward ln dst text s
  | .remoteResponseArrival ep id text => Sys2Proof.Machine.execRemoteResponseArrival ep id text s
  | .noreply ep id => Sys2Proof.Machine.execNoreply ep id s
  | .broadcastLine ln v text => Sys2Proof.Machine.execBroadcastLine ln v text s
  | .portMode ln p gen => Sys2Proof.Machine.execPortMode ln p gen s
  | .portCrc ln p on => Sys2Proof.Machine.execPortCrc ln p on s
  | .portEvents ln p on => Sys2Proof.Machine.execPortEvents ln p on s
  | .portEvstamp ln p on => Sys2Proof.Machine.execPortEvstamp ln p on s
  | .portBaud ln p rate => Sys2Proof.Machine.execPortBaud ln p rate s
  | .portMailto ln p t => Sys2Proof.Machine.execPortMailto ln p t s
  | .portStatus ln p => Sys2Proof.Machine.execPortStatus ln p s
  | .evGet ln => Sys2Proof.Machine.execEvGet ln s
  | .evAck ln seq => Sys2Proof.Machine.execEvAck ln seq s
  | .evClear ln => Sys2Proof.Machine.execEvClear ln s
  | .kick ln => Sys2Proof.Machine.execKick ln s
  | .wdogSet ln t => Sys2Proof.Machine.execWdogSet ln t s
  | .wdogOff ln => Sys2Proof.Machine.execWdogOff ln s
  | .wdogGet ln => Sys2Proof.Machine.execWdogGet ln s
  | .wdogExpire => Sys2Proof.Machine.execWdogExpire s
  | .lock ln => Sys2Proof.Machine.execLock ln s
  | .unlock ln pw => Sys2Proof.Machine.execUnlock ln pw s
  | .rd ln addr count => Sys2Proof.Machine.execRd ln addr count s
  | .wr ln addr value => Sys2Proof.Machine.execWr ln addr value s
  | .splitLowRead ln p => Sys2Proof.Machine.execSplitLowRead ln p s
  | .splitHighRead ln p => Sys2Proof.Machine.execSplitHighRead ln p s
  | .splitLowWrite ln p value => Sys2Proof.Machine.execSplitLowWrite ln p value s
  | .splitHighWrite ln p value => Sys2Proof.Machine.execSplitHighWrite ln p value s
  | .timeGet ln => Sys2Proof.Machine.execTimeGet ln s
  | .timeSet ln ticks => Sys2Proof.Machine.execTimeSet ln ticks s
  | .timeTrim ln t => Sys2Proof.Machine.execTimeTrim ln t s
  | .timeSlew ln t => Sys2Proof.Machine.execTimeSlew ln t s
  | .slewComplete => Sys2Proof.Machine.execSlewComplete s
  | .heartbeatSend g sys => Sys2Proof.Machine.execHeartbeatSend g sys s
  | .linkItemReceive it => Sys2Proof.Machine.execLinkItemReceive it s
  | .linkSilent g => Sys2Proof.Machine.execLinkSilent g s
  | .linkLost g => Sys2Proof.Machine.execLinkLost g s
  | .groupPowerFail g => Sys2Proof.Machine.execGroupPowerFail g s
  | .groupPowered x => Sys2Proof.Machine.execGroupPowered x s
  | .groupBringupComplete g r => Sys2Proof.Machine.execGroupBringupComplete g r s
  | .retrainAttempt g r => Sys2Proof.Machine.execRetrainAttempt g r s
  | .trainingSuccess g => Sys2Proof.Machine.execTrainingSuccess g s
  | .holdExpire n => Sys2Proof.Machine.execHoldExpire n s
  | .grpGet ln g => Sys2Proof.Machine.execGrpGet ln g s
  | .grpRetrain ln g r => Sys2Proof.Machine.execGrpRetrain ln g r s
  | .arm ln => Sys2Proof.Machine.execArm ln s
  | .disarm ln => Sys2Proof.Machine.execDisarm ln s
  | .chMode ln ch m w4 => Sys2Proof.Machine.execChMode ln ch m w4 s
  | .modeActive n raw => Sys2Proof.Machine.execModeActive n raw s
  | .chSafe ln ch a => Sys2Proof.Machine.execChSafe ln ch a s
  | .chEts ln ch on => Sys2Proof.Machine.execChEts ln ch on s
  | .chSource ln ch ring => Sys2Proof.Machine.execChSource ln ch ring s
  | .chSet ln ch v => Sys2Proof.Machine.execChSet ln ch v s
  | .chGet ln ch => Sys2Proof.Machine.execChGet ln ch s
  | .diThrType ln ch t3 => Sys2Proof.Machine.execDiThrType ln ch t3 s
  | .diThrProg ln ch thr hyst => Sys2Proof.Machine.execDiThrProg ln ch thr hyst s
  | .diInvert ln ch on => Sys2Proof.Machine.execDiInvert ln ch on s
  | .diDebounce ln ch t => Sys2Proof.Machine.execDiDebounce ln ch t s
  | .diWirebreak ln ch on => Sys2Proof.Machine.execDiWirebreak ln ch on s
  | .dicEdge ln ch e => Sys2Proof.Machine.execDicEdge ln ch e s
  | .dicCount ln ch => Sys2Proof.Machine.execDicCount ln ch s
  | .dicCountSet ln ch v => Sys2Proof.Machine.execDicCountSet ln ch v s
  | .dicCountClear ln ch => Sys2Proof.Machine.execDicCountClear ln ch s
  | .dicPersist ln ch a => Sys2Proof.Machine.execDicPersist ln ch a s
  | .debounceConfirm n level tstart => Sys2Proof.Machine.execDebounceConfirm n level tstart s
  | .wirebreak n => Sys2Proof.Machine.execWirebreak n s
  | .wireok n => Sys2Proof.Machine.execWireok n s
  | .countItemSend n => Sys2Proof.Machine.execCountItemSend n s
  | .dicCountItem n count edge => Sys2Proof.Machine.execDicCountItem n count edge s
  | .persistInterval n => Sys2Proof.Machine.execPersistInterval n s
  | .tallySnapshotStart => Sys2Proof.Machine.execTallySnapshotStart s
  | .tallySnapshotDone bod => Sys2Proof.Machine.execTallySnapshotDone bod s
  | .reflexFire n level t => Sys2Proof.Machine.execReflexFire n level t s
  | .reflexRevoke n => Sys2Proof.Machine.execReflexRevoke n s
  | .reflexHoldTimeout n => Sys2Proof.Machine.execReflexHoldTimeout n s
  | .pulseEnd n => Sys2Proof.Machine.execPulseEnd n s
  | .skipSrc ln k ch p => Sys2Proof.Machine.execSkipSrc ln k ch p s
  | .skipConfirm ln k t => Sys2Proof.Machine.execSkipConfirm ln k t s
  | .skipAct ln k a ch r t => Sys2Proof.Machine.execSkipAct ln k a ch r t s
  | .skipActPulse ln k ch high t => Sys2Proof.Machine.execSkipActPulse ln k ch high t s
  | .skipActGsafe ln k g => Sys2Proof.Machine.execSkipActGsafe ln k g s
  | .skipActStamp ln k => Sys2Proof.Machine.execSkipActStamp ln k s
  | .skipNote ln k on => Sys2Proof.Machine.execSkipNote ln k on s
  | .skipEnable ln k on => Sys2Proof.Machine.execSkipEnable ln k on s
  | .skipRelease ln k => Sys2Proof.Machine.execSkipRelease ln k s
  | .skipReportRevoked ln on => Sys2Proof.Machine.execSkipReportRevoked ln on s
  | .skipGet ln k => Sys2Proof.Machine.execSkipGet ln k s
  | .dofOverload n => Sys2Proof.Machine.execDofOverload n s
  | .overloadClear n => Sys2Proof.Machine.execOverloadClear n s
  | .dofMismatch n => Sys2Proof.Machine.execDofMismatch n s
  | .dofMismatchClear n => Sys2Proof.Machine.execDofMismatchClear n s
  | .shortTrip n => Sys2Proof.Machine.execShortTrip n s
  | .currentLimit x => Sys2Proof.Machine.execCurrentLimit x s
  | .limitTrip n => Sys2Proof.Machine.execLimitTrip n s
  | .fuseTrip n mA => Sys2Proof.Machine.execFuseTrip n mA s
  | .inrushWindowClose n => Sys2Proof.Machine.execInrushWindowClose n s
  | .tripRetry n => Sys2Proof.Machine.execTripRetry n s
  | .tripCleared n => Sys2Proof.Machine.execTripCleared n s
  | .openLoad n => Sys2Proof.Machine.execOpenLoad n s
  | .openLoadClear n => Sys2Proof.Machine.execOpenLoadClear n s
  | .undercurrent n => Sys2Proof.Machine.execUndercurrent n s
  | .undercurrentClear n => Sys2Proof.Machine.execUndercurrentClear n s
  | .dohRated ln ch a => Sys2Proof.Machine.execDohRated ln ch a s
  | .dohWire ln ch w => Sys2Proof.Machine.execDohWire ln ch w s
  | .dohWireCustom ln ch k => Sys2Proof.Machine.execDohWireCustom ln ch k s
  | .dohInrush ln ch t m => Sys2Proof.Machine.execDohInrush ln ch t m s
  | .dohLimit ln ch a => Sys2Proof.Machine.execDohLimit ln ch a s
  | .dohRetry ln ch on => Sys2Proof.Machine.execDohRetry ln ch on s
  | .dohUndercurrent ln ch a => Sys2Proof.Machine.execDohUndercurrent ln ch a s
  | .dohOltest ln ch on => Sys2Proof.Machine.execDohOltest ln ch on s
  | .tripClear ln ch => Sys2Proof.Machine.execTripClear ln ch s
  | .dohFuse ln ch => Sys2Proof.Machine.execDohFuse ln ch s
  | .aicInlim n => Sys2Proof.Machine.execAicInlim n s
  | .aicInlimClear n => Sys2Proof.Machine.execAicInlimClear n s
  | .loopOff n => Sys2Proof.Machine.execLoopOff n s
  | .loopOn n => Sys2Proof.Machine.execLoopOn n s
  | .complySet n => Sys2Proof.Machine.execComplySet n s
  | .complyClear n => Sys2Proof.Machine.execComplyClear n s
  | .aoDeviation n => Sys2Proof.Machine.execAoDeviation n s
  | .aoDeviationClear n => Sys2Proof.Machine.execAoDeviationClear n s
  | .aoReadback n => Sys2Proof.Machine.execAoReadback n s
  | .aoReadbackClear n => Sys2Proof.Machine.execAoReadbackClear n s
  | .aicLoop ln ch on => Sys2Proof.Machine.execAicLoop ln ch on s
  | .airRtd ln ch t => Sys2Proof.Machine.execAirRtd ln ch t s
  | .airExc ln ch cur => Sys2Proof.Machine.execAirExc ln ch cur s
  | .airLeads ln ch w3 r => Sys2Proof.Machine.execAirLeads ln ch w3 r s
  | .aiRngt ln ch t => Sys2Proof.Machine.execAiRngt ln ch t s
  | .aoDevCfg ln ch p t report => Sys2Proof.Machine.execAoDevCfg ln ch p t report s
  | .aoRbchkCfg ln ch p t => Sys2Proof.Machine.execAoRbchkCfg ln ch p t s
  | .chReadback ln ch => Sys2Proof.Machine.execChReadback ln ch s
  | .conversionResult n m => Sys2Proof.Machine.execConversionResult n m s
  | .resultBoundaryMissed n => Sys2Proof.Machine.execResultBoundaryMissed n s
  | .syncBallEdge => Sys2Proof.Machine.execSyncBallEdge s
  | .syncEdge => Sys2Proof.Machine.execSyncEdge s
  | .rotationStepStart g => Sys2Proof.Machine.execRotationStepStart g s
  | .calComplete g zero ref => Sys2Proof.Machine.execCalComplete g zero ref s
  | .rotConnect g => Sys2Proof.Machine.execRotConnect g s
  | .rotSettleDone g => Sys2Proof.Machine.execRotSettleDone g s
  | .handover g => Sys2Proof.Machine.execHandover g s
  | .recalComplete g zero ref => Sys2Proof.Machine.execRecalComplete g zero ref s
  | .modFail g m => Sys2Proof.Machine.execModFail g m s
  | .xchkFail g => Sys2Proof.Machine.execXchkFail g s
  | .xchkClear g => Sys2Proof.Machine.execXchkClear g s
  | .convRate ln ch r notch => Sys2Proof.Machine.execConvRate ln ch r notch s
  | .convWindow ln ch lo hi hyst count => Sys2Proof.Machine.execConvWindow ln ch lo hi hyst count s
  | .convWindowOff ln ch => Sys2Proof.Machine.execConvWindowOff ln ch s
  | .convWindowFault ln ch out => Sys2Proof.Machine.execConvWindowFault ln ch out s
  | .convGet ln ch => Sys2Proof.Machine.execConvGet ln ch s
  | .convRotate ln g on step => Sys2Proof.Machine.execConvRotate ln g on step s
  | .convRotateGet ln g => Sys2Proof.Machine.execConvRotateGet ln g s
  | .convXchk ln g ch lim => Sys2Proof.Machine.execConvXchk ln g ch lim s
  | .convXchkGet ln g => Sys2Proof.Machine.execConvXchkGet ln g s
  | .convScan ln g e => Sys2Proof.Machine.execConvScan ln g e s
  | .convSyncBall ln g on => Sys2Proof.Machine.execConvSyncBall ln g on s
  | .convSyncRing ln g ring every => Sys2Proof.Machine.execConvSyncRing ln g ring every s
  | .sync ln gs => Sys2Proof.Machine.execSync ln gs s
  | .safePin => Sys2Proof.Machine.execSafePin s
  | .safePinHigh => Sys2Proof.Machine.execSafePinHigh s
  | .vfLow g => Sys2Proof.Machine.execVfLow g s
  | .vfOk g => Sys2Proof.Machine.execVfOk g s
  | .vfHigh g => Sys2Proof.Machine.execVfHigh g s
  | .tempWarn g => Sys2Proof.Machine.execTempWarn g s
  | .tempOk g => Sys2Proof.Machine.execTempOk g s
  | .tempTrip g => Sys2Proof.Machine.execTempTrip g s
  | .safeCmd ln => Sys2Proof.Machine.execSafeCmd ln s
  | .safeRelease ln o => Sys2Proof.Machine.execSafeRelease ln o s
  | .safeReleaseAuto ln o on => Sys2Proof.Machine.execSafeReleaseAuto ln o on s
  | .safeGet ln o => Sys2Proof.Machine.execSafeGet ln o s
  | .roundMarkSend c e => Sys2Proof.Machine.execRoundMarkSend c e s
  | .roundMarkAccept c e => Sys2Proof.Machine.execRoundMarkAccept c e s
  | .markMissed c port nonIdle e => Sys2Proof.Machine.execMarkMissed c port nonIdle e s
  | .frameReceive c x => Sys2Proof.Machine.execFrameReceive c x s
  | .rxWindowClose c slot port nonIdle => Sys2Proof.Machine.execRxWindowClose c slot port nonIdle s
  | .lageRoundTick c => Sys2Proof.Machine.execLageRoundTick c s
  | .slotAssembly c slot => Sys2Proof.Machine.execSlotAssembly c slot s
  | .slotLaunch c slot => Sys2Proof.Machine.execSlotLaunch c slot s
  | .ringdlyMeasure c t => Sys2Proof.Machine.execRingdlyMeasure c t s
  | .ringStopped c => Sys2Proof.Machine.execRingStopped c s
  | .mailFrameReceive c f => Sys2Proof.Machine.execMailFrameReceive c f s
  | .mailFragmentTimeout c origin => Sys2Proof.Machine.execMailFragmentTimeout c origin s
  | .ringStart ln c => Sys2Proof.Machine.execRingStart ln c s
  | .ringStop ln c => Sys2Proof.Machine.execRingStop ln c s
  | .ringLine ln c long => Sys2Proof.Machine.execRingLine ln c long s
  | .ringPeriod ln c t => Sys2Proof.Machine.execRingPeriod ln c t s
  | .ringSlots ln c n => Sys2Proof.Machine.execRingSlots ln c n s
  | .ringMargin ln c n => Sys2Proof.Machine.execRingMargin ln c n s
  | .ringSlot ln c slot k owner len start rx => Sys2Proof.Machine.execRingSlot ln c slot k owner len start rx s
  | .ringMap ln c slot cell k ch => Sys2Proof.Machine.execRingMap ln c slot cell k ch s
  | .ringHop ln c cur t => Sys2Proof.Machine.execRingHop ln c cur t s
  | .ringTx ln c slot cell vs => Sys2Proof.Machine.execRingTx ln c slot cell vs s
  | .ringCommit ln c slot len => Sys2Proof.Machine.execRingCommit ln c slot len s
  | .ringRx ln c slot cell count => Sys2Proof.Machine.execRingRx ln c slot cell count s
  | .ringRoundev ln c n => Sys2Proof.Machine.execRingRoundev ln c n s
  | .ringGet ln c => Sys2Proof.Machine.execRingGet ln c s
  | .chBind ln ch c slot cell limit => Sys2Proof.Machine.execChBind ln ch c slot cell limit s
  | .chBindGet ln ch => Sys2Proof.Machine.execChBindGet ln ch s
  | .huntCandidate x => Sys2Proof.Machine.execHuntCandidate x s
  | .candidateConfirm c r => Sys2Proof.Machine.execCandidateConfirm c r s
  | .joinProbe c dup busy => Sys2Proof.Machine.execJoinProbe c dup busy s
  | .dupAddr c => Sys2Proof.Machine.execDupAddr c s
  | .tkListenEnd c => Sys2Proof.Machine.execTkListenEnd c s
  | .foreignMark c backup rank => Sys2Proof.Machine.execForeignMark c backup rank s
  | .tkTakeover c => Sys2Proof.Machine.execTkTakeover c s
  | .ringWrap c port => Sys2Proof.Machine.execRingWrap c port s
  | .portUp c port => Sys2Proof.Machine.execPortUp c port s
  | .ringUnwrap c port => Sys2Proof.Machine.execRingUnwrap c port s
  | .cocoonEnter c => Sys2Proof.Machine.execCocoonEnter c s
  | .sleepTimerFire c e r => Sys2Proof.Machine.execSleepTimerFire c e r s
  | .wakeMiss c => Sys2Proof.Machine.execWakeMiss c s
  | .ringRole ln c r => Sys2Proof.Machine.execRingRole ln c r s
  | .ringSeg ln c n => Sys2Proof.Machine.execRingSeg ln c n s
  | .ringPosm ln c p => Sys2Proof.Machine.execRingPosm ln c p s
  | .ringPostab ln c e v => Sys2Proof.Machine.execRingPostab ln c e v s
  | .ringBridge ln on bcast => Sys2Proof.Machine.execRingBridge ln on bcast s
  | .ringBridgeEntry ln e src slot cell count j dcell => Sys2Proof.Machine.execRingBridgeEntry ln e src slot cell count j dcell s
  | .ringReachDown ln down seg on => Sys2Proof.Machine.execRingReachDown ln down seg on s
  | .ringCocoon ln c t at_ => Sys2Proof.Machine.execRingCocoon ln c t at_ s
  | .ringRho ln c n => Sys2Proof.Machine.execRingRho ln c n s
  | .ringSleepGet ln c => Sys2Proof.Machine.execRingSleepGet ln c s
  | .ringPortGet ln c port => Sys2Proof.Machine.execRingPortGet ln c port s
  | .ringPortClear ln c port => Sys2Proof.Machine.execRingPortClear ln c port s
  | .knownAnswerTest u pass => Sys2Proof.Machine.execKnownAnswerTest u pass s
  | .cvuGet ln u => Sys2Proof.Machine.execCvuGet ln u s
  | .cvuClear ln u => Sys2Proof.Machine.execCvuClear ln u s
  | .pflashSeqStep ln off value => Sys2Proof.Machine.execPflashSeqStep ln off value s
  | .pflashSeqTimeout b => Sys2Proof.Machine.execPflashSeqTimeout b s
  | .programWord ln off high => Sys2Proof.Machine.execProgramWord ln off high s
  | .eraseSector ln off => Sys2Proof.Machine.execEraseSector ln off s
  | .eraseBank ln pb1 => Sys2Proof.Machine.execEraseBank ln pb1 s
  | .enterPassword ln pb1 high => Sys2Proof.Machine.execEnterPassword ln pb1 high s
  | .setPassword ln pb1 high => Sys2Proof.Machine.execSetPassword ln pb1 high s
  | .protectGroup ln pb1 k => Sys2Proof.Machine.execProtectGroup ln pb1 k s
  | .clearStatus ln pb1 => Sys2Proof.Machine.execClearStatus ln pb1 s
  | .pflashOpComplete b bod => Sys2Proof.Machine.execPflashOpComplete b bod s
  | .pflashFactoryCheck uncorr => Sys2Proof.Machine.execPflashFactoryCheck uncorr s
  | .profGet ln => Sys2Proof.Machine.execProfGet ln s
  | .profWord ln addr => Sys2Proof.Machine.execProfWord ln addr s
  | .profProgram ln addr v => Sys2Proof.Machine.execProfProgram ln addr v s
  | .profErase ln addr => Sys2Proof.Machine.execProfErase ln addr s
  | .profEraseSlot ln b => Sys2Proof.Machine.execProfEraseSlot ln b s
  | .profWipe ln b => Sys2Proof.Machine.execProfWipe ln b s
  | .profCrc ln b => Sys2Proof.Machine.execProfCrc ln b s
  | .profSwap ln b crc => Sys2Proof.Machine.execProfSwap ln b crc s
  | .profProtect ln k => Sys2Proof.Machine.execProfProtect ln k s
  | .profPassword ln pw => Sys2Proof.Machine.execProfPassword ln pw s
  | .tallySave ln ch => Sys2Proof.Machine.execTallySave ln ch s
  | .tallyGet ln ch => Sys2Proof.Machine.execTallyGet ln ch s
  | .rflashGet ln => Sys2Proof.Machine.execRflashGet ln s
  | .rflashBlockGet ln bank block => Sys2Proof.Machine.execRflashBlockGet ln bank block s
  | .rflashRead ln bank block page r => Sys2Proof.Machine.execRflashRead ln bank block page r s
  | .rflashHex ln off => Sys2Proof.Machine.execRflashHex ln off s
  | .rflashProgram ln bank block page => Sys2Proof.Machine.execRflashProgram ln bank block page s
  | .rflashErase ln bank block => Sys2Proof.Machine.execRflashErase ln bank block s
  | .rflashBad ln bank block => Sys2Proof.Machine.execRflashBad ln bank block s
  | .rflashRetry ln set_ => Sys2Proof.Machine.execRflashRetry ln set_ s
  | .rflashSync ln => Sys2Proof.Machine.execRflashSync ln s
  | .rflashOpComplete bank fail => Sys2Proof.Machine.execRflashOpComplete bank fail s
  | .tableWrite => Sys2Proof.Machine.execTableWrite s
  | .trailScrub word e => Sys2Proof.Machine.execTrailScrub word e s
  | .keyframe => Sys2Proof.Machine.execKeyframe s
  | .osum => Sys2Proof.Machine.execOsum s
  | .postWindowEnd => Sys2Proof.Machine.execPostWindowEnd s
  | .pendingCapsuleStart => Sys2Proof.Machine.execPendingCapsuleStart s
  | .replayStagingDone damaged => Sys2Proof.Machine.execReplayStagingDone damaged s
  | .recordInject r => Sys2Proof.Machine.execRecordInject r s
  | .replayEnd counts => Sys2Proof.Machine.execReplayEnd counts s
  | .recOnOff ln on => Sys2Proof.Machine.execRecOnOff ln on s
  | .recKeyframe ln t => Sys2Proof.Machine.execRecKeyframe ln t s
  | .recOsum ln t => Sys2Proof.Machine.execRecOsum ln t s
  | .recWindow ln pre post => Sys2Proof.Machine.execRecWindow ln pre post s
  | .recTriggerCfg ln t on => Sys2Proof.Machine.execRecTriggerCfg ln t on s
  | .recClaim ln banks => Sys2Proof.Machine.execRecClaim ln banks s
  | .recOverwrite ln on => Sys2Proof.Machine.execRecOverwrite ln on s
  | .recFreeze ln => Sys2Proof.Machine.execRecFreeze ln s
  | .recFreeTrail ln => Sys2Proof.Machine.execRecFreeTrail ln s
  | .recGet ln => Sys2Proof.Machine.execRecGet ln s
  | .recList ln => Sys2Proof.Machine.execRecList ln s
  | .recCapGet ln c => Sys2Proof.Machine.execRecCapGet ln c s
  | .recCapErase ln id => Sys2Proof.Machine.execRecCapErase ln id s
  | .recReplay ln c from_ fast nostop => Sys2Proof.Machine.execRecReplay ln c from_ fast nostop s
  | .recReplayPause ln => Sys2Proof.Machine.execRecReplayPause ln s
  | .recReplayContinue ln => Sys2Proof.Machine.execRecReplayContinue ln s
  | .recReplayStop ln => Sys2Proof.Machine.execRecReplayStop ln s
  | .recResult ln => Sys2Proof.Machine.execRecResult ln s
  | .lineRefused ln e => Sys2Proof.Machine.execLineRefused ln e s
  | .keyframeComplete => Sys2Proof.Machine.execKeyframeComplete s
  | .currentLimitEnd n => Sys2Proof.Machine.execCurrentLimitEnd n s
  | .vfHighEnd g => Sys2Proof.Machine.execVfHighEnd g s

end Sys2Proof.Machine
end

