-- ==== Sys2Proof/Machine/Parser.lean ====
section
/-!
DEFINITION. The grammar of Waicon (R95 to R104, R115, R118, R123, R127, R142): the command that the bytes of a line spell. The
meanings take a line parsed; State.spelt says which command the first completed line of a port is.
-/
namespace Sys2Proof.Machine

/-! ### What a line spells -/

/-- What the text of a line can spell: one constructor per form, with what its tokens say. The rows of the table that are a rd or wr
of a named address are that rd or wr. -/
inductive Spelling where
  | devStatus (ln : Line)
  | devFence (ln : Line)
  | devUnit (ln : Line) (u : Un)
  | devReset (ln : Line)
  | remoteLineForward (ln : Line) (dst : Node) (text : List Byte)
  | broadcastLine (ln : Line) (v : BVerb) (text : List Byte)
  | portMode (ln : Line) (p : PortSel) (gen : Bool)
  | portCrc (ln : Line) (p : PortSel) (on : Bool)
  | portEvents (ln : Line) (p : PortSel) (on : Bool)
  | portEvstamp (ln : Line) (p : PortSel) (on : Bool)
  | portBaud (ln : Line) (p : PortSel) (rate : Nat)
  | portMailto (ln : Line) (p : PortSel) (t : Qty)
  | portStatus (ln : Line) (p : PortSel)
  | evGet (ln : Line)
  | evAck (ln : Line) (seq : Nat)
  | evClear (ln : Line)
  | kick (ln : Line)
  | wdogSet (ln : Line) (t : Qty)
  | wdogOff (ln : Line)
  | wdogGet (ln : Line)
  | lock (ln : Line)
  | unlock (ln : Line) (pw : Option (BitVec 64))
  | rd (ln : Line) (addr count : Nat)
  | wr (ln : Line) (addr value : Nat)
  | timeGet (ln : Line)
  | timeSet (ln : Line) (ticks : Nat)
  | timeTrim (ln : Line) (t : Qty)
  | timeSlew (ln : Line) (t : Qty)
  | grpGet (ln : Line) (g : Nat)
  | grpRetrain (ln : Line) (g : Nat)
  | arm (ln : Line)
  | disarm (ln : Line)
  | chMode (ln : Line) (ch : ChRef) (m : Mode) (w4 : Bool)
  | chSafe (ln : Line) (ch : ChRef) (a : SafeArg)
  | chEts (ln : Line) (ch : ChRef) (on : Bool)
  | chSource (ln : Line) (ch : ChRef) (ring : Bool)
  | chSet (ln : Line) (ch : ChRef) (v : SetArg)
  | chGet (ln : Line) (ch : ChRef)
  | diThrType (ln : Line) (ch : ChRef) (t3 : Bool)
  | diThrProg (ln : Line) (ch : ChRef) (thr : Qty) (hyst : Option Qty)
  | diInvert (ln : Line) (ch : ChRef) (on : Bool)
  | diDebounce (ln : Line) (ch : ChRef) (t : Qty)
  | diWirebreak (ln : Line) (ch : ChRef) (on : Bool)
  | dicEdge (ln : Line) (ch : ChRef) (e : Pol)
  | dicCount (ln : Line) (ch : ChRef)
  | dicCountSet (ln : Line) (ch : ChRef) (v : Nat)
  | dicCountClear (ln : Line) (ch : ChRef)
  | dicPersist (ln : Line) (ch : ChRef) (a : Option (Qty × Option Nat))
  | skipSrc (ln : Line) (k : Nat) (ch : ChRef) (p : Pol)
  | skipConfirm (ln : Line) (k : Nat) (t : Qty)
  | skipAct (ln : Line) (k : Nat) (a : SAct) (ch : ChRef) (r : Rel) (t : Qty)
  | skipActPulse (ln : Line) (k : Nat) (ch : ChRef) (high : Bool) (t : Qty)
  | skipActGsafe (ln : Line) (k : Nat) (g : Nat)
  | skipActStamp (ln : Line) (k : Nat)
  | skipNote (ln : Line) (k : Nat) (on : Bool)
  | skipEnable (ln : Line) (k : Nat) (on : Bool)
  | skipRelease (ln : Line) (k : Nat)
  | skipReportRevoked (ln : Line) (on : Bool)
  | skipGet (ln : Line) (k : Nat)
  | dohRated (ln : Line) (ch : ChRef) (a : Qty)
  | dohWire (ln : Line) (ch : ChRef) (w : Qty)
  | dohWireCustom (ln : Line) (ch : ChRef) (k : Nat)
  | dohInrush (ln : Line) (ch : ChRef) (t m : Qty)
  | dohLimit (ln : Line) (ch : ChRef) (a : Qty)
  | dohRetry (ln : Line) (ch : ChRef) (on : Bool)
  | dohUndercurrent (ln : Line) (ch : ChRef) (a : Option Qty)
  | dohOltest (ln : Line) (ch : ChRef) (on : Bool)
  | tripClear (ln : Line) (ch : ChRef)
  | dohFuse (ln : Line) (ch : ChRef)
  | aicLoop (ln : Line) (ch : ChRef) (on : Bool)
  | airRtd (ln : Line) (ch : ChRef) (t : Rtd)
  | airExc (ln : Line) (ch : ChRef) (i : Qty)
  | airLeads (ln : Line) (ch : ChRef) (w3 : Bool) (r : Option Qty)
  | aiRngt (ln : Line) (ch : ChRef) (t : Qty)
  | aoDevCfg (ln : Line) (ch : ChRef) (p t : Qty) (report : Bool)
  | aoRbchkCfg (ln : Line) (ch : ChRef) (p t : Qty)
  | chReadback (ln : Line) (ch : ChRef)
  | convRate (ln : Line) (ch : ChRef) (r : Qty) (notch : Notch)
  | convWindow (ln : Line) (ch : ChRef) (lo hi : Qty) (hyst : Option Qty) (count : Option Nat)
  | convWindowOff (ln : Line) (ch : ChRef)
  | convWindowFault (ln : Line) (ch : ChRef) (out : Option ChRef)
  | convGet (ln : Line) (ch : ChRef)
  | convRotate (ln : Line) (g : Nat) (on : Bool) (step : Option Qty)
  | convRotateGet (ln : Line) (g : Nat)
  | convXchk (ln : Line) (g : Nat) (ch : Option ChRef) (lim : Option (Qty × Qty))
  | convXchkGet (ln : Line) (g : Nat)
  | convScan (ln : Line) (g e : Nat)
  | convSyncBall (ln : Line) (g : Nat) (on : Bool)
  | convSyncRing (ln : Line) (g : Nat) (ring : Option Nat) (every : Option Nat)
  | sync (ln : Line) (gs : List Nat)
  | safeCmd (ln : Line)
  | safeRelease (ln : Line) (o : SafeObj)
  | safeReleaseAuto (ln : Line) (o : SafeObj) (on : Bool)
  | safeGet (ln : Line) (o : SafeObj)
  | ringStart (ln : Line) (c : Option Nat)
  | ringStop (ln : Line) (c : Option Nat)
  | ringLine (ln : Line) (c : Nat) (long : Bool)
  | ringPeriod (ln : Line) (c : Nat) (t : Qty)
  | ringSlots (ln : Line) (c n : Nat)
  | ringMargin (ln : Line) (c n : Nat)
  | ringSlot (ln : Line) (c slot : Nat) (k : SlotKind) (owner : Node) (len start : Nat) (rx : Bool)
  | ringMap (ln : Line) (c slot cell : Nat) (k : MapKind) (ch : Option ChRef)
  | ringHop (ln : Line) (c i : Nat) (t : Qty)
  | ringTx (ln : Line) (c slot cell : Nat) (vs : List Nat)
  | ringCommit (ln : Line) (c slot : Nat) (len : Option Nat)
  | ringRx (ln : Line) (c slot : Nat) (cell count : Option Nat)
  | ringRoundev (ln : Line) (c : Nat) (n : Option Nat)
  | ringGet (ln : Line) (c : Nat)
  | chBind (ln : Line) (ch : ChRef) (c slot cell limit : Nat)
  | chBindGet (ln : Line) (ch : ChRef)
  | ringRole (ln : Line) (c : Nat) (r : Role)
  | ringSeg (ln : Line) (c n : Nat)
  | ringPosm (ln : Line) (c : Nat) (p : Posm)
  | ringPostab (ln : Line) (c e : Nat) (v : Option (BitVec 128 × Nat))
  | ringBridge (ln : Line) (on : Bool) (bcast : Option Bool)
  | ringBridgeEntry (ln : Line) (e src slot cell count j dcell : Nat)
  | ringReachDown (ln : Line) (down : Bool) (seg : Nat) (on : Bool)
  | ringCocoon (ln : Line) (c : Nat) (t : Qty) (at_ : Option Nat)
  | ringRho (ln : Line) (c : Nat) (q : Qty)
  | ringSleepGet (ln : Line) (c : Nat)
  | ringPortGet (ln : Line) (c port : Nat)
  | ringPortClear (ln : Line) (c port : Nat)
  | cvuGet (ln : Line) (u : Un)
  | cvuClear (ln : Line) (u : Un)
  | profGet (ln : Line)
  | profWord (ln : Line) (addr : Nat)
  | profProgram (ln : Line) (addr : Nat) (v : BitVec 64)
  | profErase (ln : Line) (addr : Nat)
  | profEraseSlot (ln : Line) (b : Bool)
  | profWipe (ln : Line) (b : Nat)
  | profCrc (ln : Line) (b : Bool)
  | profSwap (ln : Line) (b : Bool) (crc : Nat)
  | profProtect (ln : Line) (k : Nat)
  | profPassword (ln : Line) (pw : Option (BitVec 64))
  | tallySave (ln : Line) (ch : Option ChRef)
  | tallyGet (ln : Line) (ch : ChRef)
  | rflashGet (ln : Line)
  | rflashBlockGet (ln : Line) (bank block : Nat)
  | rflashRead (ln : Line) (bank block page : Nat)
  | rflashHex (ln : Line) (off : Nat)
  | rflashProgram (ln : Line) (bank block page : Nat)
  | rflashErase (ln : Line) (bank block : Nat)
  | rflashBad (ln : Line) (bank block : Nat)
  | rflashRetry (ln : Line) (set_ : Option (BitVec 3))
  | rflashSync (ln : Line)
  | recOnOff (ln : Line) (on : Bool)
  | recKeyframe (ln : Line) (t : Qty)
  | recOsum (ln : Line) (t : Qty)
  | recWindow (ln : Line) (pre post : Qty)
  | recTriggerCfg (ln : Line) (t : TrigName) (on : Bool)
  | recClaim (ln : Line) (banks : List Nat)
  | recOverwrite (ln : Line) (on : Bool)
  | recFreeze (ln : Line)
  | recFreeTrail (ln : Line)
  | recGet (ln : Line)
  | recList (ln : Line)
  | recCapGet (ln : Line) (c : CapSel)
  | recCapErase (ln : Line) (id : Nat)
  | recReplay (ln : Line) (c : CapSel) (from_ : Option Nat) (fast nostop : Bool)
  | recReplayPause (ln : Line)
  | recReplayContinue (ln : Line)
  | recReplayStop (ln : Line)
  | recResult (ln : Line)
  | lineRefused (ln : Line) (e : LineErr)
deriving DecidableEq, Repr

/-- The line of a spelling. -/
def Spelling.line : Spelling → Line
  | .devStatus ln | .devFence ln | .devUnit ln _ | .devReset ln | .remoteLineForward ln _ _ | .broadcastLine ln _ _
  | .portMode ln _ _ | .portCrc ln _ _ | .portEvents ln _ _ | .portEvstamp ln _ _ | .portBaud ln _ _ | .portMailto ln _ _
  | .portStatus ln _ | .evGet ln | .evAck ln _ | .evClear ln | .kick ln | .wdogSet ln _ | .wdogOff ln | .wdogGet ln | .lock ln
  | .unlock ln _ | .rd ln _ _ | .wr ln _ _ | .timeGet ln | .timeSet ln _ | .timeTrim ln _ | .timeSlew ln _ | .grpGet ln _
  | .grpRetrain ln _ | .arm ln | .disarm ln | .chMode ln _ _ _ | .chSafe ln _ _ | .chEts ln _ _ | .chSource ln _ _
  | .chSet ln _ _ | .chGet ln _ | .diThrType ln _ _ | .diThrProg ln _ _ _ | .diInvert ln _ _ | .diDebounce ln _ _
  | .diWirebreak ln _ _ | .dicEdge ln _ _ | .dicCount ln _ | .dicCountSet ln _ _ | .dicCountClear ln _ | .dicPersist ln _ _
  | .skipSrc ln _ _ _ | .skipConfirm ln _ _ | .skipAct ln _ _ _ _ _ | .skipActPulse ln _ _ _ _ | .skipActGsafe ln _ _
  | .skipActStamp ln _ | .skipNote ln _ _ | .skipEnable ln _ _ | .skipRelease ln _ | .skipReportRevoked ln _ | .skipGet ln _
  | .dohRated ln _ _ | .dohWire ln _ _ | .dohWireCustom ln _ _ | .dohInrush ln _ _ _ | .dohLimit ln _ _ | .dohRetry ln _ _
  | .dohUndercurrent ln _ _ | .dohOltest ln _ _ | .tripClear ln _ | .dohFuse ln _ | .aicLoop ln _ _ | .airRtd ln _ _
  | .airExc ln _ _ | .airLeads ln _ _ _ | .aiRngt ln _ _ | .aoDevCfg ln _ _ _ _ | .aoRbchkCfg ln _ _ _ | .chReadback ln _
  | .convRate ln _ _ _ | .convWindow ln _ _ _ _ _ | .convWindowOff ln _ | .convWindowFault ln _ _ | .convGet ln _
  | .convRotate ln _ _ _ | .convRotateGet ln _ | .convXchk ln _ _ _ | .convXchkGet ln _ | .convScan ln _ _ | .convSyncBall ln _ _
  | .convSyncRing ln _ _ _ | .sync ln _ | .safeCmd ln | .safeRelease ln _ | .safeReleaseAuto ln _ _ | .safeGet ln _
  | .ringStart ln _ | .ringStop ln _ | .ringLine ln _ _ | .ringPeriod ln _ _ | .ringSlots ln _ _ | .ringMargin ln _ _
  | .ringSlot ln _ _ _ _ _ _ _ | .ringMap ln _ _ _ _ _ | .ringHop ln _ _ _ | .ringTx ln _ _ _ _ | .ringCommit ln _ _ _
  | .ringRx ln _ _ _ _ | .ringRoundev ln _ _ | .ringGet ln _ | .chBind ln _ _ _ _ _ | .chBindGet ln _ | .ringRole ln _ _
  | .ringSeg ln _ _ | .ringPosm ln _ _ | .ringPostab ln _ _ _ | .ringBridge ln _ _ | .ringBridgeEntry ln _ _ _ _ _ _ _
  | .ringReachDown ln _ _ _ | .ringCocoon ln _ _ _ | .ringRho ln _ _ | .ringSleepGet ln _ | .ringPortGet ln _ _
  | .ringPortClear ln _ _ | .cvuGet ln _ | .cvuClear ln _ | .profGet ln | .profWord ln _ | .profProgram ln _ _ | .profErase ln _
  | .profEraseSlot ln _ | .profWipe ln _ | .profCrc ln _ | .profSwap ln _ _ | .profProtect ln _ | .profPassword ln _
  | .tallySave ln _ | .tallyGet ln _ | .rflashGet ln | .rflashBlockGet ln _ _ | .rflashRead ln _ _ _ | .rflashHex ln _
  | .rflashProgram ln _ _ _ | .rflashErase ln _ _ | .rflashBad ln _ _ | .rflashRetry ln _ | .rflashSync ln | .recOnOff ln _
  | .recKeyframe ln _ | .recOsum ln _ | .recWindow ln _ _ | .recTriggerCfg ln _ _ | .recClaim ln _ | .recOverwrite ln _
  | .recFreeze ln | .recFreeTrail ln | .recGet ln | .recList ln | .recCapGet ln _ | .recCapErase ln _ | .recReplay ln _ _ _ _
  | .recReplayPause ln | .recReplayContinue ln | .recReplayStop ln | .recResult ln | .lineRefused ln _ => ln

/-- What the line of a command spells; none for a command that no line gives. What a line does not say (how a training attempt ends,
how a page reads) drops out. -/
def spellingOf : Instr → Option Spelling
  | .devStatus ln => some (.devStatus ln)
  | .devFence ln => some (.devFence ln)
  | .devUnit ln u => some (.devUnit ln u)
  | .devReset ln => some (.devReset ln)
  | .remoteLineForward ln dst text => some (.remoteLineForward ln dst text)
  | .broadcastLine ln v text => some (.broadcastLine ln v text)
  | .portMode ln p gen => some (.portMode ln p gen)
  | .portCrc ln p on => some (.portCrc ln p on)
  | .portEvents ln p on => some (.portEvents ln p on)
  | .portEvstamp ln p on => some (.portEvstamp ln p on)
  | .portBaud ln p rate => some (.portBaud ln p rate)
  | .portMailto ln p t => some (.portMailto ln p t)
  | .portStatus ln p => some (.portStatus ln p)
  | .evGet ln => some (.evGet ln)
  | .evAck ln seq => some (.evAck ln seq)
  | .evClear ln => some (.evClear ln)
  | .kick ln => some (.kick ln)
  | .wdogSet ln t => some (.wdogSet ln t)
  | .wdogOff ln => some (.wdogOff ln)
  | .wdogGet ln => some (.wdogGet ln)
  | .lock ln => some (.lock ln)
  | .unlock ln pw => some (.unlock ln pw)
  | .rd ln addr count => some (.rd ln addr count)
  | .wr ln addr value => some (.wr ln addr value)
  | .timeGet ln => some (.timeGet ln)
  | .timeSet ln ticks => some (.timeSet ln ticks)
  | .timeTrim ln t => some (.timeTrim ln t)
  | .timeSlew ln t => some (.timeSlew ln t)
  | .grpGet ln g => some (.grpGet ln g)
  | .grpRetrain ln g _ => some (.grpRetrain ln g)
  | .arm ln => some (.arm ln)
  | .disarm ln => some (.disarm ln)
  | .chMode ln ch m w4 => some (.chMode ln ch m w4)
  | .chSafe ln ch a => some (.chSafe ln ch a)
  | .chEts ln ch on => some (.chEts ln ch on)
  | .chSource ln ch ring => some (.chSource ln ch ring)
  | .chSet ln ch v => some (.chSet ln ch v)
  | .chGet ln ch => some (.chGet ln ch)
  | .diThrType ln ch t3 => some (.diThrType ln ch t3)
  | .diThrProg ln ch thr hyst => some (.diThrProg ln ch thr hyst)
  | .diInvert ln ch on => some (.diInvert ln ch on)
  | .diDebounce ln ch t => some (.diDebounce ln ch t)
  | .diWirebreak ln ch on => some (.diWirebreak ln ch on)
  | .dicEdge ln ch e => some (.dicEdge ln ch e)
  | .dicCount ln ch => some (.dicCount ln ch)
  | .dicCountSet ln ch v => some (.dicCountSet ln ch v)
  | .dicCountClear ln ch => some (.dicCountClear ln ch)
  | .dicPersist ln ch a => some (.dicPersist ln ch a)
  | .skipSrc ln k ch p => some (.skipSrc ln k ch p)
  | .skipConfirm ln k t => some (.skipConfirm ln k t)
  | .skipAct ln k a ch r t => some (.skipAct ln k a ch r t)
  | .skipActPulse ln k ch high t => some (.skipActPulse ln k ch high t)
  | .skipActGsafe ln k g => some (.skipActGsafe ln k g)
  | .skipActStamp ln k => some (.skipActStamp ln k)
  | .skipNote ln k on => some (.skipNote ln k on)
  | .skipEnable ln k on => some (.skipEnable ln k on)
  | .skipRelease ln k => some (.skipRelease ln k)
  | .skipReportRevoked ln on => some (.skipReportRevoked ln on)
  | .skipGet ln k => some (.skipGet ln k)
  | .dohRated ln ch a => some (.dohRated ln ch a)
  | .dohWire ln ch w => some (.dohWire ln ch w)
  | .dohWireCustom ln ch k => some (.dohWireCustom ln ch k)
  | .dohInrush ln ch t m => some (.dohInrush ln ch t m)
  | .dohLimit ln ch a => some (.dohLimit ln ch a)
  | .dohRetry ln ch on => some (.dohRetry ln ch on)
  | .dohUndercurrent ln ch a => some (.dohUndercurrent ln ch a)
  | .dohOltest ln ch on => some (.dohOltest ln ch on)
  | .tripClear ln ch => some (.tripClear ln ch)
  | .dohFuse ln ch => some (.dohFuse ln ch)
  | .aicLoop ln ch on => some (.aicLoop ln ch on)
  | .airRtd ln ch t => some (.airRtd ln ch t)
  | .airExc ln ch i => some (.airExc ln ch i)
  | .airLeads ln ch w3 r => some (.airLeads ln ch w3 r)
  | .aiRngt ln ch t => some (.aiRngt ln ch t)
  | .aoDevCfg ln ch p t report => some (.aoDevCfg ln ch p t report)
  | .aoRbchkCfg ln ch p t => some (.aoRbchkCfg ln ch p t)
  | .chReadback ln ch => some (.chReadback ln ch)
  | .convRate ln ch r notch => some (.convRate ln ch r notch)
  | .convWindow ln ch lo hi hyst count => some (.convWindow ln ch lo hi hyst count)
  | .convWindowOff ln ch => some (.convWindowOff ln ch)
  | .convWindowFault ln ch out => some (.convWindowFault ln ch out)
  | .convGet ln ch => some (.convGet ln ch)
  | .convRotate ln g on step => some (.convRotate ln g on step)
  | .convRotateGet ln g => some (.convRotateGet ln g)
  | .convXchk ln g ch lim => some (.convXchk ln g ch lim)
  | .convXchkGet ln g => some (.convXchkGet ln g)
  | .convScan ln g e => some (.convScan ln g e)
  | .convSyncBall ln g on => some (.convSyncBall ln g on)
  | .convSyncRing ln g ring every => some (.convSyncRing ln g ring every)
  | .sync ln gs => some (.sync ln gs)
  | .safeCmd ln => some (.safeCmd ln)
  | .safeRelease ln o => some (.safeRelease ln o)
  | .safeReleaseAuto ln o on => some (.safeReleaseAuto ln o on)
  | .safeGet ln o => some (.safeGet ln o)
  | .ringStart ln c => some (.ringStart ln c)
  | .ringStop ln c => some (.ringStop ln c)
  | .ringLine ln c long => some (.ringLine ln c long)
  | .ringPeriod ln c t => some (.ringPeriod ln c t)
  | .ringSlots ln c n => some (.ringSlots ln c n)
  | .ringMargin ln c n => some (.ringMargin ln c n)
  | .ringSlot ln c slot k owner len start rx => some (.ringSlot ln c slot k owner len start rx)
  | .ringMap ln c slot cell k ch => some (.ringMap ln c slot cell k ch)
  | .ringHop ln c i t => some (.ringHop ln c i t)
  | .ringTx ln c slot cell vs => some (.ringTx ln c slot cell vs)
  | .ringCommit ln c slot len => some (.ringCommit ln c slot len)
  | .ringRx ln c slot cell count => some (.ringRx ln c slot cell count)
  | .ringRoundev ln c n => some (.ringRoundev ln c n)
  | .ringGet ln c => some (.ringGet ln c)
  | .chBind ln ch c slot cell limit => some (.chBind ln ch c slot cell limit)
  | .chBindGet ln ch => some (.chBindGet ln ch)
  | .ringRole ln c r => some (.ringRole ln c r)
  | .ringSeg ln c n => some (.ringSeg ln c n)
  | .ringPosm ln c p => some (.ringPosm ln c p)
  | .ringPostab ln c e v => some (.ringPostab ln c e v)
  | .ringBridge ln on bcast => some (.ringBridge ln on bcast)
  | .ringBridgeEntry ln e src slot cell count j dcell => some (.ringBridgeEntry ln e src slot cell count j dcell)
  | .ringReachDown ln down seg on => some (.ringReachDown ln down seg on)
  | .ringCocoon ln c t at_ => some (.ringCocoon ln c t at_)
  | .ringRho ln c n => some (.ringRho ln c n)
  | .ringSleepGet ln c => some (.ringSleepGet ln c)
  | .ringPortGet ln c port => some (.ringPortGet ln c port)
  | .ringPortClear ln c port => some (.ringPortClear ln c port)
  | .cvuGet ln u => some (.cvuGet ln u)
  | .cvuClear ln u => some (.cvuClear ln u)
  | .profGet ln => some (.profGet ln)
  | .profWord ln addr => some (.profWord ln addr)
  | .profProgram ln addr v => some (.profProgram ln addr v)
  | .profErase ln addr => some (.profErase ln addr)
  | .profEraseSlot ln b => some (.profEraseSlot ln b)
  | .profWipe ln b => some (.profWipe ln b)
  | .profCrc ln b => some (.profCrc ln b)
  | .profSwap ln b crc => some (.profSwap ln b crc)
  | .profProtect ln k => some (.profProtect ln k)
  | .profPassword ln pw => some (.profPassword ln pw)
  | .tallySave ln ch => some (.tallySave ln ch)
  | .tallyGet ln ch => some (.tallyGet ln ch)
  | .rflashGet ln => some (.rflashGet ln)
  | .rflashBlockGet ln bank block => some (.rflashBlockGet ln bank block)
  | .rflashRead ln bank block page _ => some (.rflashRead ln bank block page)
  | .rflashHex ln off => some (.rflashHex ln off)
  | .rflashProgram ln bank block page => some (.rflashProgram ln bank block page)
  | .rflashErase ln bank block => some (.rflashErase ln bank block)
  | .rflashBad ln bank block => some (.rflashBad ln bank block)
  | .rflashRetry ln set_ => some (.rflashRetry ln set_)
  | .rflashSync ln => some (.rflashSync ln)
  | .recOnOff ln on => some (.recOnOff ln on)
  | .recKeyframe ln t => some (.recKeyframe ln t)
  | .recOsum ln t => some (.recOsum ln t)
  | .recWindow ln pre post => some (.recWindow ln pre post)
  | .recTriggerCfg ln t on => some (.recTriggerCfg ln t on)
  | .recClaim ln banks => some (.recClaim ln banks)
  | .recOverwrite ln on => some (.recOverwrite ln on)
  | .recFreeze ln => some (.recFreeze ln)
  | .recFreeTrail ln => some (.recFreeTrail ln)
  | .recGet ln => some (.recGet ln)
  | .recList ln => some (.recList ln)
  | .recCapGet ln c => some (.recCapGet ln c)
  | .recCapErase ln id => some (.recCapErase ln id)
  | .recReplay ln c from_ fast nostop => some (.recReplay ln c from_ fast nostop)
  | .recReplayPause ln => some (.recReplayPause ln)
  | .recReplayContinue ln => some (.recReplayContinue ln)
  | .recReplayStop ln => some (.recReplayStop ln)
  | .recResult ln => some (.recResult ln)
  | .lineRefused ln e => some (.lineRefused ln e)
  | .splitLowRead ln p => some (.rd ln (pairLo p) 1)
  | .splitHighRead ln p => some (.rd ln (pairLo p + 4) 1)
  | .splitLowWrite ln p v => some (.wr ln (pairLo p) v.toNat)
  | .splitHighWrite ln p v => some (.wr ln (pairLo p + 4) v.toNat)
  | .pflashSeqStep ln off v => some (.wr ln (0x80000000 + off.toNat) v.toNat)
  | .programWord ln off v => some (.wr ln (0x80000000 + off.toNat) v.toNat)
  | .eraseSector ln off => some (.wr ln (0x80000000 + off.toNat) 0x21)
  | .eraseBank ln b => some (.wr ln (if b then 0x80200000 else 0x80000000) 0x2E)
  | .enterPassword ln b v => some (.wr ln (if b then 0x80200A48 else 0x80000A48) v.toNat)
  | .setPassword ln b v => some (.wr ln (if b then 0x80200A48 else 0x80000A48) v.toNat)
  | .protectGroup ln b k => some (.wr ln (if b then 0x80200A48 else 0x80000A48) k.toNat)
  | .clearStatus ln b => some (.wr ln (if b then 0x80200A48 else 0x80000A48) 0x90)
  | _ => none

/-! ### Tokens and keywords (R96, R100, R101) -/

/-- The tokens of a line: HT counts as a space. -/
def lineTokens (l : List Byte) : List (List Byte) := (tokens l).filter (· ≠ [])

/-- A token in its canonical form (R101). -/
def lowered (t : List Byte) : List Byte := t.map lowByte

/-- Whether a token is a keyword. -/
def isKw (k : String) (t : List Byte) : Bool := decide (lowered t = textBytes k)

/-- What a token stands for in a list of keywords. -/
def byKw {α : Type} (l : List (String × α)) (t : List Byte) : Option α := (l.find? fun x => isKw x.1 t).map (·.2)

/-! ### Numbers and quantities (R103, R104) -/

/-- The value of a digit. -/
def digitVal (base : Nat) (b : Byte) : Option Nat :=
  let c := lowByte b
  let v := if 0x30 ≤ c ∧ c ≤ 0x39 then c.toNat - 0x30 else if 0x61 ≤ c ∧ c ≤ 0x66 then c.toNat - 0x61 + 10 else 99
  if v < base then some v else none

/-- The digits that a text begins with, and the rest. An underscore may stand between two digits; free allows one before the
first. -/
def digits (base : Nat) : Bool → List Byte → List Nat × List Byte
  | _, [] => ([], [])
  | free, b :: l =>
    match digitVal base b with
    | some d => let r := digits base true l
                (d :: r.1, r.2)
    | none =>
      if free && decide (b = 0x5F) && (l.head?.bind (digitVal base)).isSome then digits base false l else ([], b :: l)

/-- The number that digits write. -/
def ofDigits (base : Nat) (l : List Nat) : Nat := l.foldl (fun n d => base * n + d) 0

/-- A number at the start of a token: its digits as a quantity, whether its integer part needs more than 64 bits, and what
follows it. -/
def numberAt (t : List Byte) : Option (Qty × Bool × List Byte) :=
  let whole (base : Nat) (r : List Byte) : Option (Qty × Bool × List Byte) :=
    match digits base true r with
    | ([], _) => none
    | (ds, r) => let n := ofDigits base ds
                 some ({ num := n }, decide (2 ^ 64 ≤ n), r)
  let decimal (neg : Bool) (r : List Byte) : Option (Qty × Bool × List Byte) :=
    match digits 10 false r with
    | ([], _) => none
    | (ds, r) =>
      let fr : List Nat × List Byte := match r with
        | 0x2E :: q => match digits 10 false q with
          | ([], _) => ([], r)
          | x => x
        | _ => ([], r)
      let n : Int := ofDigits 10 (ds ++ fr.1)
      some ({ num := if neg then -n else n, dec := fr.1.length }, decide (2 ^ 64 ≤ ofDigits 10 ds), fr.2)
  match lowered t with
  | 0x30 :: 0x78 :: r => whole 16 r
  | 0x30 :: 0x62 :: r => whole 2 r
  | 0x2B :: r => decimal false r
  | 0x2D :: r => decimal true r
  | r => decimal false r

/-- The units of Table 4.2. -/
def unitOf (t : List Byte) : Option MUnit :=
  byKw [("ns", .ns), ("us", .us), ("ms", .ms), ("s", .s), ("ua", .uA), ("ma", .mA), ("a", .A), ("mv", .mV), ("v", .V),
    ("ohm", .ohm), ("kohm", .kohm), ("hz", .Hz), ("khz", .kHz), ("degc", .degC), ("%", .percent), ("ppm", .ppm)] t

/-- An argument as written: its token, and the quantity that it is, if it is one. -/
structure Arg where
  raw : List Byte
  qty : Option Qty := none
  big : Bool := false
deriving DecidableEq, Repr

/-- One more token: a unit that directly follows a number without one belongs to it (R104), and the two are one argument. Latest
first. -/
def addArg (r : List Arg) (t : List Byte) : List Arg :=
  let fresh : Arg := match numberAt t with
    | some (q, big, []) => { raw := t, qty := some q, big := big }
    | some (q, big, u) => match unitOf u with
      | some x => { raw := t, qty := some { q with unit := some x }, big := big }
      | none => { raw := t }
    | none => { raw := t }
  match r, unitOf t with
  | a :: l, some x => match a.qty with
    | some q => if q.unit = none then { a with raw := a.raw ++ 0x20 :: t, qty := some { q with unit := some x } } :: l else fresh :: r
    | none => fresh :: r
  | _, _ => fresh :: r

/-- The arguments of a list of tokens. -/
def argsOf (l : List (List Byte)) : List Arg := (l.foldl addArg []).reverse

/-- Whether an argument is a keyword. -/
def Arg.kw (a : Arg) (k : String) : Bool := isKw k a.raw
/-- A keyword of a list. -/
def Arg.key {α : Type} (a : Arg) (l : List (String × α)) : Option α := byKw l a.raw
/-- A whole number without a unit; a negative one has no place in a count and is none. -/
def Arg.nat (a : Arg) : Option Nat :=
  match a.qty with
  | some q => if q.dec = 0 ∧ 0 ≤ q.num ∧ q.unit = none then some q.num.toNat else none
  | none => none
/-- A binary parameter (R103). -/
def Arg.onOff (a : Arg) : Option Bool :=
  match a.key [("on", true), ("off", false)] with
  | some b => some b
  | none => match a.nat with
    | some 1 => some true
    | some 0 => some false
    | _ => none

/-! ### Objects (R102) -/

/-- A token cut into its digit runs, each replaced by #, and the numbers that they write. -/
def skeleton : List Byte → List Byte × List (List Nat)
  | [] => ([], [])
  | b :: l =>
    let r := skeleton l
    match digitVal 10 b with
    | none => (lowByte b :: r.1, r.2)
    | some d => match r.1, r.2 with
      | 0x23 :: s, n :: m => (0x23 :: s, (d :: n) :: m)
      | s, m => (0x23 :: s, [d] :: m)

/-- A channel: one digit of the group, one or two of the channel. -/
def chanName (t : List Byte) : Option ChRef :=
  match skeleton t with
  | (s, [[g], c]) => if s = textBytes "g#.c#" ∧ c.length ≤ 2 then some { g := g, c := ofDigits 10 c } else none
  | _ => none

/-- A group. -/
def groupName (t : List Byte) : Option Nat :=
  match skeleton t with
  | (s, [[g]]) => if s = textBytes "g#" then some g else none
  | _ => none

/-- A reflex (R193): one or two digits; a longer number is no reflex name. DESIGN CHOICE: assumption 101. -/
def reflexName (t : List Byte) : Option Nat :=
  match skeleton t with
  | (s, [k]) => if s = textBytes "k#" ∧ k.length ≤ 2 then some (ofDigits 10 k) else none
  | _ => none

/-- A controller (R345). -/
def ctlOf (t : List Byte) : Option Nat := byKw [("ring0", 0), ("ring1", 1)] t

/-- A unit of Table 1.1. -/
def unOf (t : List Byte) : Option Un :=
  match byKw [("sup", Un.sup), ("xo", .xo), ("pll", .pll), ("strap", .strap), ("cp0", .cp0), ("cp1", .cp1), ("safe", .safe),
      ("fabric", .fabric), ("shadow", .shadow), ("skip", .skip), ("ring0", .ring0), ("ring1", .ring1), ("cvu.l0", .cvuL0),
      ("cvu.l1", .cvuL1), ("cvu.l2", .cvuL2), ("cvu.l3", .cvuL3), ("cvu.c0", .cvuC0), ("cvu.c1", .cvuC1), ("cvu.f", .cvuF),
      ("pflash", .pflash), ("rflash", .rflash), ("trail", .trail), ("chrys", .chrys)] t with
  | some u => some u
  | none => match skeleton t with
    | (s, [[g]]) => (([("g#.link", GUn.link), ("g#.fe", .fe), ("g#.mod", .mod), ("g#.sar", .sar), ("g#.sw", .sw),
        ("g#.dac", .dac), ("g#.di", .di), ("g#.latch", .latch), ("g#.temp", .temp)].find? fun x => decide (s = textBytes x.1)).map
          (·.2)).bind fun k => if g < 8 then some (.grp g k) else none
    | _ => none

/-- Hex digits, all of a text. -/
def hexOf (t : List Byte) : Option Nat :=
  if t ≠ [] ∧ t.all fun b => (digitVal 16 b).isSome then some (ofDigits 16 (t.filterMap (digitVal 16))) else none

/-- A node address: two parts of one or two hex digits each (Table 4.1). -/
def nodeOf (t : List Byte) : Option Node :=
  let a := t.takeWhile (· ≠ 0x2E)
  let b := (t.dropWhile (· ≠ 0x2E)).drop 1
  match hexOf a, hexOf b with
  | some x, some y => if a.length ≤ 2 ∧ b.length ≤ 2 then some { seg := BitVec.ofNat 8 x, pos := BitVec.ofNat 8 y } else none
  | _, _ => none

/-- The parts of a token between hyphens. -/
def hyphened : List Byte → List (List Byte)
  | [] => [[]]
  | b :: l => if b = 0x2D then [] :: hyphened l else
    match hyphened l with
    | p :: r => (b :: p) :: r
    | [] => [[b]]

/-- A password (R134): 16 hex digits, with or without a hyphen after the fourth, eighth and twelfth. -/
def passOf (t : List Byte) : Option (BitVec 64) :=
  let p := hyphened t
  let ends := (p.foldl (fun (r : Nat × List Nat) x => (r.1 + x.length, r.2 ++ [r.1 + x.length])) (0, [])).2
  match hexOf p.flatten with
  | some v => if ends.getLast? = some 16 ∧ (ends.all fun n => decide (n % 4 = 0)) ∧ (p.all fun x => decide (x ≠ [])) then
      some (BitVec.ofNat 64 v) else none
  | none => none

/-- A unique ID: eight hyphenated groups of four hex digits (Table 13.4). -/
def uidOf (t : List Byte) : Option (BitVec 128) :=
  let p := hyphened t
  if p.length = 8 ∧ p.all fun x => decide (x.length = 4) then (hexOf p.flatten).map (BitVec.ofNat 128 ·) else none

/-- A block bank.block, or a page bank.block.page (Table 16.7). -/
def dotted (t : List Byte) : Option (List Nat) :=
  match skeleton t with
  | (s, l) => if s = textBytes "#.#" ∨ s = textBytes "#.#.#" then some (l.map (ofDigits 10)) else none

/-! ### Register names (R102, chapter 19) -/

/-- The registers outside groups: a name with # for each index, the address, and the stride and count of each index. -/
def sysNames : List (String × Nat × List (Nat × Nat)) :=
  [("sys.id", 0, []), ("sys.uid#", 4, [(4, 4)]), ("sys.stage", 0x20, []), ("sys.straps", 0x24, []), ("sys.rstcause", 0x28, []),
   ("sys.supstat", 0x2C, []), ("sys.fence", 0x30, []), ("sys.tj", 0x34, []), ("sys.gfence#", 0x40, [(4, 8)]),
   ("clk.stat", 0x10000, []), ("clk.tslo", 0x10004, []), ("clk.tshi", 0x10008, []), ("clk.trim", 0x1000C, []),
   ("clk.hosttrim", 0x10010, []), ("clk.slewrem", 0x10014, []), ("clk.sleeptrim", 0x10018, []),
   ("cmd.cp#cfg", 0x20000, [(0x10, 2)]), ("cmd.cp#stat", 0x20004, [(0x10, 2)]), ("cmd.evstat", 0x20020, []),
   ("cmd.wdog", 0x20030, []), ("cmd.wdleft", 0x20034, []), ("cmd.lock", 0x20040, []),
   ("safe.stat", 0x30000, []), ("safe.dev", 0x30004, []), ("safe.release", 0x30008, []), ("safe.grp#", 0x30010, [(4, 8)]),
   ("safe.autorel#", 0x30040, [(4, 4)]), ("safe.ch#", 0x30100, [(4, 128)]), ("safe.chst#", 0x30300, [(4, 128)]),
   ("cvu.u#.stat", 0x40000, [(0x10, 7)]), ("cvu.u#.checked", 0x40004, [(0x10, 7)]), ("cvu.u#.errors", 0x40008, [(0x10, 7)]),
   ("cvu.f.last", 0x4006C, [])]

/-- The RING, SKIP, REC and FLASHCTL blocks. -/
def blockNames : List (String × Nat × List (Nat × Nat)) :=
  let c : List (Nat × Nat) := [(0x100, 2)]
  let pc : List (Nat × Nat) := [(0x20, 2), (0x100, 2)]
  let k : List (Nat × Nat) := [(0x20, 32)]
  [("ring.state#", 0x50000, c), ("ring.ctl#", 0x50004, c), ("ring.cfg#", 0x50008, c), ("ring.period#", 0x5000C, c),
   ("ring.nslot#", 0x50010, c), ("ring.margin#", 0x50014, c), ("ring.schedid#", 0x50018, c), ("ring.roundno#", 0x5001C, c),
   ("ring.ringdly#", 0x50020, c), ("ring.marktslo#", 0x50024, c), ("ring.marktshi#", 0x50028, c), ("ring.stat#", 0x5002C, c),
   ("ring.mail#", 0x50030, c), ("ring.commit#", 0x50034, c), ("ring.role#", 0x50040, c), ("ring.join#", 0x50044, c),
   ("ring.rho#", 0x50048, c), ("ring.wakeofs#", 0x5004C, c), ("ring.wakest#", 0x50050, c), ("ring.p#stat#", 0x50080, pc),
   ("ring.p#noise#", 0x5008C, pc), ("ring.p#oow#", 0x50090, pc), ("ring.bind#", 0x50800, [(8, 128)]),
   ("ring.agelim#", 0x50804, [(8, 128)])] ++
  [("skip.stat", 0x60000, []), ("skip.cfg", 0x60004, []), ("skip.enable", 0x60008, []), ("skip.holding", 0x6000C, []),
   ("skip.pending", 0x60010, []), ("skip.k#.src", 0x60100, k), ("skip.k#.act", 0x60104, k), ("skip.k#.time", 0x60108, k),
   ("skip.k#.stat", 0x6010C, k), ("skip.k#.fires", 0x60110, k), ("skip.k#.revokes", 0x60114, k),
   ("skip.k#.discards", 0x60118, k)] ++
  [("rec.cfg", 0x70000, []), ("rec.stat", 0x70004, []), ("rec.trig", 0x70008, []), ("rec.win", 0x7000C, []),
   ("rec.kfint", 0x70010, []), ("rec.osumt", 0x70014, []), ("rec.claim", 0x70018, []), ("rec.rate", 0x7001C, []),
   ("rec.epoch", 0x70020, []), ("rec.lastcap", 0x70024, []), ("rec.caps", 0x70028, []), ("rec.divkind", 0x70030, []),
   ("rec.divtslo", 0x70034, []), ("rec.divtshi", 0x70038, []), ("rec.divrec", 0x7003C, []), ("rec.divexp", 0x70040, []),
   ("rec.divgot", 0x70044, []), ("rec.divaddr", 0x70048, []), ("rec.trstat", 0x70F00, []), ("rec.trsize", 0x70F04, []),
   ("rec.trfill", 0x70F08, []), ("rec.trcorr", 0x70F0C, []), ("rec.truncorr", 0x70F10, []), ("rec.trlast", 0x70F14, [])] ++
  [("flashctl.pstat#", 0x80000, [(4, 2)]), ("flashctl.prot", 0x80008, []), ("flashctl.lastaddr", 0x8000C, []),
   ("flashctl.gen", 0x80010, []), ("flashctl.tally", 0x80014, []), ("flashctl.rcfg", 0x80100, []),
   ("flashctl.rclaim", 0x80104, []), ("flashctl.rtseq", 0x80108, []), ("flashctl.rtstat", 0x8010C, []),
   ("flashctl.raddr", 0x80110, []), ("flashctl.rcmd", 0x80114, []), ("flashctl.rstat#", 0x80120, [(4, 8)]),
   ("flashctl.rblk#", 0x80400, [(4, 512)])]

/-- The registers of a group and of a channel (Tables 19.11 to 19.13). -/
def groupNames : List (String × Nat × List (Nat × Nat)) :=
  let g (n : String) (o : Nat) : String × Nat × List (Nat × Nat) := ("g#." ++ n, 0x10100000 + o, [(0x1000000, 8)])
  let c (n : String) (o : Nat) : String × Nat × List (Nat × Nat) := ("g#.c#." ++ n, 0x10000000 + o, [(0x1000000, 8), (0x1000, 16)])
  [g "gstat" 0, g "linkerr" 4, g "dohsum" 8, g "temp" 0xC, g "vf" 0x10, g "sync" 0x40, g "rot.cfg" 0x44, g "rot.stat" 0x48,
   g "rot.count" 0x4C, g "retired" 0x50, g "xchk.cfg" 0x54, g "xchk.stat" 0x58,
   ("g#.scan.e#", 0x10100100, [(0x1000000, 8), (4, 40)])] ++
  [c "mode" 0, c "safe" 4, c "hold" 8, c "out" 0xC, c "drive" 0x10, c "stat" 0x14, c "di.cfg" 0x40, c "di.debounce" 0x44,
   c "di.countlo" 0x48, c "di.counthi" 0x4C, c "di.value" 0x50, c "di.edgetslo" 0x54, c "di.edgetshi" 0x58,
   c "di.persist" 0x5C, c "di.pstep" 0x60, c "di.revokes" 0x64, c "doh.cfg" 0x40, c "doh.ilim" 0x44, c "doh.ol" 0x48,
   c "doh.current" 0x4C, c "doh.model" 0x50, c "doh.trips" 0x54, c "doh.clear" 0x58] ++
  [c "ai.cfg" 0x40, c "ai.diag" 0x44, c "ai.value" 0x48, c "ai.res" 0x4C, c "ai.raw" 0x50, c "ai.tslo" 0x54, c "ai.tshi" 0x58,
   c "ao.dev" 0x40, c "ao.rbchk" 0x44, c "ao.rba" 0x48, c "ao.rbb" 0x4C, c "ao.aux" 0x50, c "conv.cfg" 0x80,
   c "conv.slot" 0x84, c "win.cfg" 0x88, c "win.lo" 0x8C, c "win.hi" 0x90, c "win.hyst" 0x94, c "win.stat" 0x98]

/-- The address that indexes give, when each lies in its range. -/
def indexed (base : Nat) : List Nat → List (Nat × Nat) → Option Nat
  | [], [] => some base
  | n :: l, (st, m) :: r => if n < m then indexed (base + n * st) l r else none
  | _, _ => none

/-- A register by name: an index left out at the end is 0, as in ring.state (R102). The two error counters of a port carry a
digit of their own before the controller's. -/
def registerOf (t : List Byte) : Option Nat :=
  let k := skeleton t
  let ns := k.2.map (ofDigits 10)
  let all := sysNames ++ blockNames ++ groupNames
  let look (s : List Byte) (l : List Nat) : Option Nat :=
    (all.find? fun x => decide (s = textBytes x.1)).bind fun x => indexed x.2.1 l x.2.2
  if k.1 = textBytes "ring.p#err#" then
    match k.2 with
    | [[p], [1]] => indexed 0x50084 [p] [(0x20, 2)]
    | [[p], [2]] => indexed 0x50088 [p] [(0x20, 2)]
    | [[p], [1, c]] => indexed 0x50084 [p, c] [(0x20, 2), (0x100, 2)]
    | [[p], [2, c]] => indexed 0x50088 [p, c] [(0x20, 2), (0x100, 2)]
    | _ => none
  else match look k.1 ns with
    | some a => some a
    | none => look (k.1 ++ [0x23]) (ns ++ [0])

/-- The object of rd and wr: an address number or a register name. -/
def Arg.address (a : Arg) : Option Nat :=
  match a.nat with
  | some n => some n
  | none => if a.qty.isSome then none else registerOf a.raw

/-! ### The forms of the verbs (R142) -/

/-- A line whose object is missing or not one of the verb's (R141). -/
def noObj (ln : Line) : Line := { ln with objOk := false }
/-- A line whose arguments do not fit (R141). -/
def noArg (ln : Line) : Line := { ln with argOk := false }

/-- The dev verb. -/
def devForms (ln : Line) : List Arg → Spelling
  | [a] => if a.kw "status" then .devStatus ln else if a.kw "fence" then .devFence ln else if a.kw "reset" then .devReset ln
      else .devStatus (noObj ln)
  | [a, b] => if a.kw "unit" then (match unOf b.raw with | some u => .devUnit ln u | none => .devUnit (noObj ln) .sup)
      else if a.kw "status" || a.kw "fence" || a.kw "reset" then .devStatus (noArg ln) else .devStatus (noObj ln)
  | _ => .devStatus (noObj ln)

/-- The port verb (R143). -/
def portForms (ln : Line) : List Arg → Spelling
  | p :: l =>
    match p.key [("cp0", PortSel.cp0), ("cp1", .cp1)] with
    | none => .portStatus (noObj ln) .cp0
    | some p =>
      let bad := Spelling.portCrc (noArg ln) p false
      match l with
      | [a] => if a.kw "status" then .portStatus ln p else bad
      | [a, v] =>
        if a.kw "mode" then (match v.key [("typed", false), ("generated", true)] with | some b => .portMode ln p b | none => bad)
        else if a.kw "crc" then (match v.onOff with | some b => .portCrc ln p b | none => bad)
        else if a.kw "events" then (match v.onOff with | some b => .portEvents ln p b | none => bad)
        else if a.kw "evstamp" then (match v.onOff with | some b => .portEvstamp ln p b | none => bad)
        else if a.kw "baud" then (match v.nat with | some n => .portBaud ln p n | none => bad)
        else if a.kw "mailto" then (match v.qty with | some q => .portMailto ln p q | none => bad)
        else bad
      | _ => bad
  | [] => .portStatus (noObj ln) .cp0

/-- The ev verb (R144). -/
def evForms (ln : Line) : List Arg → Spelling
  | [a] => if a.kw "get" then .evGet ln else if a.kw "clear" then .evClear ln else if a.kw "ack" then .evGet (noArg ln)
      else .evGet (noObj ln)
  | a :: l => if a.kw "ack" then (match l with
      | [v] => (match v.nat with | some n => .evAck ln n | none => .evGet (noArg ln))
      | _ => .evGet (noArg ln))
      else if a.kw "get" || a.kw "clear" then .evGet (noArg ln) else .evGet (noObj ln)
  | [] => .evGet (noObj ln)

/-- The wdog verb (R132). -/
def wdogForms (ln : Line) : List Arg → Spelling
  | [a] => if a.kw "off" then .wdogOff ln else if a.kw "get" then .wdogGet ln
      else (match a.qty with | some q => .wdogSet ln q | none => .wdogOff (noObj ln))
  | [] => .wdogOff (noObj ln)
  | _ => .wdogOff (noArg ln)

/-- The time verb (R91). -/
def timeForms (ln : Line) : List Arg → Spelling
  | [a] => if a.kw "get" then .timeGet ln else if a.kw "set" || a.kw "trim" || a.kw "slew" then .timeTrim (noArg ln) { num := 0 }
      else .timeGet (noObj ln)
  | [a, v] =>
    if a.kw "set" then (match v.nat with | some n => .timeSet ln n | none => .timeTrim (noArg ln) { num := 0 })
    else if a.kw "trim" then (match v.qty with | some q => .timeTrim ln q | none => .timeTrim (noArg ln) { num := 0 })
    else if a.kw "slew" then (match v.qty with | some q => .timeSlew ln q | none => .timeTrim (noArg ln) { num := 0 })
    else if a.kw "get" then .timeGet (noArg ln) else .timeGet (noObj ln)
  | _ => .timeGet (noObj ln)

/-- The rd verb (R137): a count left out is 1. -/
def rdForms (ln : Line) : List Arg → Spelling
  | [a] => (match a.address with | some x => .rd ln x 1 | none => .rd (noObj ln) 0 1)
  | [a, n] => (match a.address, n.nat with
      | some x, some n => .rd ln x n
      | none, _ => .rd (noObj ln) 0 1
      | _, none => .rd (noArg ln) 0 1)
  | [] => .rd (noObj ln) 0 1
  | _ => .rd (noArg ln) 0 1

/-- The wr verb (R138). -/
def wrForms (ln : Line) : List Arg → Spelling
  | [a, v] => (match a.address, v.nat with
      | some x, some n => .wr ln x n
      | none, _ => .wr (noObj ln) 0 0
      | _, none => .wr (noArg ln) 0 0)
  | a :: _ => if a.address.isSome then .wr (noArg ln) 0 0 else .wr (noObj ln) 0 0
  | [] => .wr (noObj ln) 0 0

/-- The keywords of the modes (Table 5.2). -/
def modeKw : List (String × Mode) :=
  [("off", .off), ("di", .di), ("dic", .dic), ("doh", .doh), ("dof", .dof), ("aic", .aic), ("aiv", .aiv), ("air", .air),
   ("aoc", .aoc), ("aov", .aov)]

/-- The ch verb with one word after the channel. -/
def chForms1 (ln : Line) (c : ChRef) (a : Arg) : Option Spelling :=
  if a.kw "get" then some (.chGet ln c) else if a.kw "count" then some (.dicCount ln c)
  else if a.kw "fuse" then some (.dohFuse ln c) else if a.kw "readback" then some (.chReadback ln c) else none

/-- The ch verb with a keyword and one argument. -/
def chForms2 (ln : Line) (c : ChRef) (a v : Arg) : Option Spelling :=
  if a.kw "mode" then (v.key modeKw).map fun m => .chMode ln c m false
  else if a.kw "safe" then (v.key [("off", SafeArg.off), ("on", .on)]).map fun x => .chSafe ln c x
  else if a.kw "ets" then v.onOff.map fun b => .chEts ln c b
  else if a.kw "source" then (v.key [("host", false), ("ring", true)]).map fun b => .chSource ln c b
  else if a.kw "set" then
    match v.key [("on", SetArg.on), ("off", .off)] with
    | some x => some (.chSet ln c x)
    | none => v.qty.map fun q => .chSet ln c (.qty q)
  else if a.kw "thr" then
    match v.key [("type1", false), ("type3", true)] with
    | some b => some (.diThrType ln c b)
    | none => v.qty.map fun q => .diThrProg ln c q none
  else if a.kw "invert" then v.onOff.map fun b => .diInvert ln c b
  else if a.kw "debounce" then v.qty.map fun q => .diDebounce ln c q
  else if a.kw "wirebreak" then v.onOff.map fun b => .diWirebreak ln c b
  else if a.kw "edge" then (v.key [("rising", Pol.rising), ("falling", .falling), ("both", .both)]).map fun p => .dicEdge ln c p
  else if a.kw "count" then if v.kw "clear" then some (.dicCountClear ln c) else none
  else if a.kw "persist" then
    if v.kw "off" then some (.dicPersist ln c none) else v.qty.map fun q => .dicPersist ln c (some (q, none))
  else if a.kw "rated" then v.qty.map fun q => .dohRated ln c q
  else if a.kw "wire" then v.qty.map fun q => .dohWire ln c q
  else if a.kw "limit" then v.qty.map fun q => .dohLimit ln c q
  else if a.kw "retry" then v.onOff.map fun b => .dohRetry ln c b
  else if a.kw "undercurrent" then
    if v.kw "off" then some (.dohUndercurrent ln c none) else v.qty.map fun q => .dohUndercurrent ln c (some q)
  else if a.kw "oltest" then v.onOff.map fun b => .dohOltest ln c b
  else if a.kw "trip" then if v.kw "clear" then some (.tripClear ln c) else none
  else if a.kw "loop" then v.onOff.map fun b => .aicLoop ln c b
  else if a.kw "rtd" then (v.key [("pt100", Rtd.pt100), ("pt1000", .pt1000), ("ohm", .ohm)]).map fun r => .airRtd ln c r
  else if a.kw "exc" then v.qty.map fun q => .airExc ln c q
  else if a.kw "leads" then (v.key [("2", false), ("3", true)]).map fun b => .airLeads ln c b none
  else if a.kw "rngt" then v.qty.map fun q => .aiRngt ln c q
  else if a.kw "bind" then if v.kw "get" then some (.chBindGet ln c) else none
  else none

/-- The ch verb with more arguments. -/
def chForms3 (ln : Line) (c : ChRef) (a : Arg) : List Arg → Option Spelling
  | [v, w] =>
    if a.kw "mode" then if w.kw "4wire" then (v.key modeKw).map fun m => .chMode ln c m true else none
    else if a.kw "safe" then
      if v.kw "value" then w.qty.map fun q => .chSafe ln c (.value q)
      else if v.kw "hold" then w.qty.map fun q => .chSafe ln c (.hold q) else none
    else if a.kw "count" then if v.kw "set" then w.nat.map fun n => .dicCountSet ln c n else none
    else if a.kw "wire" then if v.kw "custom" then w.nat.map fun k => .dohWireCustom ln c k else none
    else if a.kw "inrush" then v.qty.bind fun t => w.qty.map fun m => .dohInrush ln c t m
    else if a.kw "leads" then (v.key [("2", false), ("3", true)]).bind fun b => w.qty.map fun q => .airLeads ln c b (some q)
    else if a.kw "rbchk" then v.qty.bind fun p => w.qty.map fun t => .aoRbchkCfg ln c p t
    else none
  | [v, w, x] =>
    if a.kw "thr" then if w.kw "hyst" then v.qty.bind fun t => x.qty.map fun h => .diThrProg ln c t (some h) else none
    else if a.kw "persist" then
      if w.kw "step" then v.qty.bind fun t => x.nat.map fun n => .dicPersist ln c (some (t, some n)) else none
    else if a.kw "dev" then
      v.qty.bind fun p => w.qty.bind fun t => (x.key [("fault", false), ("report", true)]).map fun r => .aoDevCfg ln c p t r
    else none
  | [r, sl, ce, k, n] =>
    if a.kw "bind" && k.kw "limit" then
      (ctlOf r.raw).bind fun q => sl.nat.bind fun s => ce.nat.bind fun i => n.nat.map fun m => .chBind ln c q s i m
    else none
  | _ => none

/-- The ch verb (R165, Tables 6.4, 8.5, 9.4, 12.9). -/
def chForms (ln : Line) : List Arg → Spelling
  | [] => .chGet (noObj ln) { g := 0, c := 0 }
  | o :: l =>
    match chanName o.raw with
    | none => .chGet (noObj ln) { g := 0, c := 0 }
    | some c =>
      let r := match l with
        | [] => none
        | [a] => chForms1 ln c a
        | [a, v] => chForms2 ln c a v
        | a :: v => chForms3 ln c a v
      r.getD (.chEts (noArg ln) c false)

/-- The group verbs. -/
def grpForms (ln : Line) : List Arg → Spelling
  | g :: l =>
    match groupName g.raw with
    | none => .grpGet (noObj ln) 0
    | some n => match l with
      | [a] => if a.kw "get" then .grpGet ln n else if a.kw "retrain" then .grpRetrain ln n
          else .grpRetrain (noArg ln) n
      | _ => .grpRetrain (noArg ln) n
  | [] => .grpGet (noObj ln) 0

/-- What a skip action does (Table 7.7). -/
def skipAct (ln : Line) (k : Nat) : List Arg → Option Spelling
  | [a] => if a.kw "stamp" then some (.skipActStamp ln k) else none
  | a :: t :: l =>
    if a.kw "gsafe" then (if l = [] then (groupName t.raw).map fun g => .skipActGsafe ln k g else none)
    else if a.kw "pulse" then
      match l with
      | [v, w] => (chanName t.raw).bind fun c => (v.key [("high", true), ("low", false)]).bind fun h =>
          w.qty.map fun q => .skipActPulse ln k c h q
      | _ => none
    else
      (a.key [("set", SAct.set), ("clear", .clear), ("toggle", .toggle)]).bind fun x => (chanName t.raw).bind fun c =>
        match l with
        | [] => some (.skipAct ln k x c .command { num := 0 })
        | [f] => if f.kw "follow" then some (.skipAct ln k x c .follow { num := 0 }) else none
        | [h, w] => if h.kw "hold" then w.qty.map fun q => .skipAct ln k x c .timed q else none
        | _ => none
  | [] => none

/-- The skip verb (R211). -/
def skipForms (ln : Line) : List Arg → Spelling
  | [] => .skipGet (noObj ln) 0
  | o :: l =>
    if o.kw "report" then
      match l with
      | [a, b] => match a.kw "revoked", b.onOff with
        | true, some x => .skipReportRevoked ln x
        | _, _ => .skipReportRevoked (noArg ln) false
      | _ => .skipReportRevoked (noArg ln) false
    else match reflexName o.raw with
      | none => .skipGet (noObj ln) 0
      | some k =>
        let r : Option Spelling := match l with
          | [a] => if a.kw "get" then some (.skipGet ln k) else if a.kw "release" then some (.skipRelease ln k)
              else (a.key [("on", true), ("off", false)]).map fun b => .skipEnable ln k b
          | [a, v] =>
            if a.kw "confirm" then v.qty.map fun q => .skipConfirm ln k q
            else if a.kw "note" then v.onOff.map fun b => .skipNote ln k b
            else if a.kw "act" then skipAct ln k [v] else none
          | a :: v =>
            if a.kw "act" then skipAct ln k v
            else if a.kw "src" then
              match v with
              | [c, p] => (chanName c.raw).bind fun c =>
                  (p.key [("rising", Pol.rising), ("falling", .falling), ("both", .both)]).map fun p => .skipSrc ln k c p
              | _ => none
            else none
          | [] => none
        r.getD (.skipRelease (noArg ln) k)

/-- The conv verb on a channel (R293). -/
def convChan (ln : Line) (c : ChRef) : List Arg → Option Spelling
  | [a] => if a.kw "get" then some (.convGet ln c) else none
  | [a, v] =>
    if a.kw "rate" then v.qty.map fun q => .convRate ln c q .off
    else if a.kw "window" && v.kw "off" then some (.convWindowOff ln c) else none
  | a :: v :: w :: l =>
    if a.kw "rate" then
      match w.kw "notch", l with
      | true, [n] => v.qty.bind fun q => (n.key [("off", Notch.off), ("50", .n50), ("60", .n60)]).map fun n => .convRate ln c q n
      | _, _ => none
    else if a.kw "window" then
      if v.kw "fault" then
        if l ≠ [] then none else if w.kw "event" then some (.convWindowFault ln c none)
        else (chanName w.raw).map fun o => .convWindowFault ln c (some o)
      else v.qty.bind fun lo => w.qty.bind fun hi =>
        match l with
        | [] => some (.convWindow ln c lo hi none none)
        | [k, x] => if k.kw "hyst" then x.qty.map fun h => .convWindow ln c lo hi (some h) none
            else if k.kw "count" then x.nat.map fun n => .convWindow ln c lo hi none (some n) else none
        | [k, x, m, n] => if k.kw "hyst" && m.kw "count" then
              x.qty.bind fun h => n.nat.map fun n => .convWindow ln c lo hi (some h) (some n)
            else none
        | _ => none
    else none
  | [] => none

/-- The conv verb on a group (R293). -/
def convGroup (ln : Line) (g : Nat) : List Arg → Option Spelling
  | [a, v] =>
    if a.kw "rotate" then
      if v.kw "get" then some (.convRotateGet ln g) else v.onOff.map fun b => .convRotate ln g b none
    else if a.kw "xchk" then
      if v.kw "get" then some (.convXchkGet ln g) else if v.kw "off" then some (.convXchk ln g none none)
      else (chanName v.raw).map fun c => .convXchk ln g (some c) none
    else if a.kw "scan" then v.nat.map fun e => .convScan ln g e
    else if a.kw "sync" then
      if v.kw "off" then some (.convSyncRing ln g none none) else (ctlOf v.raw).map fun c => .convSyncRing ln g (some c) none
    else none
  | [a, v, w] => if a.kw "sync" && v.kw "ball" then w.onOff.map fun b => .convSyncBall ln g b else none
  | [a, v, w, x] =>
    if a.kw "rotate" && w.kw "step" then v.onOff.bind fun b => x.qty.map fun q => .convRotate ln g b (some q)
    else if a.kw "xchk" then
      w.qty.bind fun p => x.qty.bind fun t =>
        if v.kw "off" then some (.convXchk ln g none (some (p, t)))
        else (chanName v.raw).map fun c => .convXchk ln g (some c) (some (p, t))
    else if a.kw "sync" && w.kw "every" then
      x.nat.bind fun n => if v.kw "off" then some (.convSyncRing ln g none (some n))
        else (ctlOf v.raw).map fun c => .convSyncRing ln g (some c) (some n)
    else none
  | _ => none

/-- The conv verb. -/
def convForms (ln : Line) : List Arg → Spelling
  | o :: l => match chanName o.raw, groupName o.raw with
    | some c, _ => (convChan ln c l).getD (.convWindowOff (noArg ln) c)
    | none, some g => (convGroup ln g l).getD (.convRotate (noArg ln) g false none)
    | none, none => .convGet (noObj ln) { g := 0, c := 0 }
  | [] => .convGet (noObj ln) { g := 0, c := 0 }

/-- The sync verb (R294). -/
def syncForms (ln : Line) (l : List Arg) : Spelling :=
  match l.mapM fun a => groupName a.raw with
  | some gs => .sync ln gs
  | none => .sync (noObj ln) []

/-- The object of a safe form. -/
def safeObjOf (t : List Byte) : Option SafeObj :=
  match chanName t, groupName t with
  | some c, _ => some (.ch c)
  | none, some g => some (.grp g)
  | none, none => none

/-- The safe verb (R315). -/
def safeForms (ln : Line) : List Arg → Spelling
  | [] => .safeCmd ln
  | a :: l =>
    if a.kw "release" then
      match l with
      | [] => .safeRelease ln .dev
      | [o] => (match safeObjOf o.raw with | some x => .safeRelease ln x | none => .safeRelease (noObj ln) .dev)
      | [k, o, b] => if k.kw "auto" then
            (match safeObjOf o.raw, b.onOff with
             | some x, some b => .safeReleaseAuto ln x b
             | none, _ => .safeRelease (noObj ln) .dev
             | _, none => .safeRelease (noArg ln) .dev)
          else .safeRelease (noArg ln) .dev
      | _ => .safeRelease (noArg ln) .dev
    else if a.kw "get" then
      match l with
      | [] => .safeGet ln .dev
      | [o] => (match safeObjOf o.raw with | some x => .safeGet ln x | none => .safeGet (noObj ln) .dev)
      | _ => .safeGet (noArg ln) .dev
    else .safeCmd (noObj ln)

/-- The ring verb on a controller with one or two words (Tables 12.9, 13.4). -/
def ringShort (ln : Line) (c : Nat) : List Arg → Option Spelling
  | [a] => if a.kw "start" then some (.ringStart ln (some c)) else if a.kw "stop" then some (.ringStop ln (some c))
      else if a.kw "get" then some (.ringGet ln c) else none
  | [a, v] =>
    if a.kw "line" then (v.key [("100", false), ("25", true)]).map fun b => .ringLine ln c b
    else if a.kw "period" then v.qty.map fun q => .ringPeriod ln c q
    else if a.kw "slots" then v.nat.map fun n => .ringSlots ln c n
    else if a.kw "margin" then v.nat.map fun n => .ringMargin ln c n
    else if a.kw "commit" then v.nat.map fun n => .ringCommit ln c n none
    else if a.kw "rx" then v.nat.map fun n => .ringRx ln c n none none
    else if a.kw "roundev" then if v.kw "off" then some (.ringRoundev ln c none) else v.nat.map fun n => .ringRoundev ln c (some n)
    else if a.kw "role" then (v.key [("tk", Role.tk), ("follower", .follower)]).map fun r => .ringRole ln c r
    else if a.kw "seg" then v.nat.map fun n => .ringSeg ln c n
    else if a.kw "posm" then (v.key [("hop", Posm.hop), ("table", .table), ("either", .either)]).map fun p => .ringPosm ln c p
    else if a.kw "cocoon" then v.qty.map fun q => .ringCocoon ln c q none
    else if a.kw "rho" then
v.qty.map fun q => .ringRho ln c q
    else if a.kw "sleep" then if v.kw "get" then some (.ringSleepGet ln c) else none
    else none
  | _ => none

/-- The ring verb on a controller with more words. -/
def ringLong (ln : Line) (c : Nat) (a : Arg) (l : List Arg) : Option Spelling :=
  if a.kw "tx" then
    match l with
    | s :: i :: v :: vs => s.nat.bind fun s => i.nat.bind fun i => ((v :: vs).mapM Arg.nat).map fun vs => .ringTx ln c s i vs
    | _ => none
  else match l with
  | [v, w] =>
    if a.kw "hop" then v.nat.bind fun i => w.qty.map fun q => .ringHop ln c i q
    else if a.kw "commit" then v.nat.bind fun s => w.nat.map fun n => .ringCommit ln c s (some n)
    else if a.kw "rx" then v.nat.bind fun s => w.nat.map fun i => .ringRx ln c s (some i) none
    else if a.kw "role" then if v.kw "backup" then w.nat.map fun k => .ringRole ln c (.backup k) else none
    else if a.kw "postab" then if w.kw "off" then v.nat.map fun e => .ringPostab ln c e none else none
    else if a.kw "port" then
      v.nat.bind fun p => if w.kw "get" then some (.ringPortGet ln c p) else if w.kw "clear" then some (.ringPortClear ln c p) else none
    else none
  | [v, w, x] =>
    if a.kw "rx" then v.nat.bind fun s => w.nat.bind fun i => x.nat.map fun n => .ringRx ln c s (some i) (some n)
    else if a.kw "cocoon" then if w.kw "at" then v.qty.bind fun q => x.nat.map fun n => .ringCocoon ln c q (some n) else none
    else if a.kw "postab" then v.nat.bind fun e => (uidOf w.raw).bind fun u => x.nat.map fun p => .ringPostab ln c e (some (u, p))
    else if a.kw "map" then v.nat.bind fun s => w.nat.bind fun i =>
      (x.key [("host", MapKind.host), ("value", .value), ("status", .status), ("count", .count), ("revokes", .revokes)]).map
        fun k => .ringMap ln c s i k none
    else none
  | v :: w :: x :: y :: r =>
    if a.kw "map" then
      if r ≠ [] then none else v.nat.bind fun s => w.nat.bind fun i =>
        (x.key [("host", MapKind.host), ("value", .value), ("status", .status), ("count", .count), ("revokes", .revokes)]).bind
          fun k => (chanName y.raw).map fun ch => .ringMap ln c s i k (some ch)
    else if a.kw "slot" then v.nat.bind fun s =>
      (w.key [("round", SlotKind.round), ("data", .data), ("event", .event), ("mail", .mail), ("spare", .spare)]).bind fun k =>
        (nodeOf x.raw).bind fun o => y.nat.bind fun n =>
          match r with
          | [st] => st.nat.map fun st => .ringSlot ln c s k o n st false
          | [st, f] => if f.kw "rx" then st.nat.map fun st => .ringSlot ln c s k o n st true else none
          | _ => none
    else none
  | _ => none

/-- The bridge forms (R367, R370). -/
def bridgeForms (ln : Line) : List Arg → Option Spelling
  | [a] => a.onOff.map fun b => .ringBridge ln b none
  | [a, k, b] => if k.kw "bcast" then a.onOff.bind fun x => b.onOff.map fun y => .ringBridge ln x (some y) else none
  | [e, r, s, i, n, j, d] => e.nat.bind fun e => (ctlOf r.raw).bind fun r => s.nat.bind fun s => i.nat.bind fun i =>
      n.nat.bind fun n => j.nat.bind fun j => d.nat.map fun d => .ringBridgeEntry ln e r s i n j d
  | _ => none

/-- The ring verb. -/
def ringForms (ln : Line) : List Arg → Spelling
  | [] => .ringGet (noObj ln) 0
  | o :: l =>
    let bad := Spelling.ringBridge (noArg ln) false none
    match ctlOf o.raw with
    | some c =>
      (match l with
       | [] => none
       | [_] => ringShort ln c l
       | [_, _] => ringShort ln c l
       | a :: r => ringLong ln c a r).getD (.ringSlots (noArg ln) c 0)
    | none =>
      if o.kw "start" then (if l = [] then .ringStart ln none else bad)
      else if o.kw "stop" then (if l = [] then .ringStop ln none else bad)
      else if o.kw "bridge" then (bridgeForms ln l).getD bad
      else if o.kw "reach" || o.kw "down" then
        match l with
        | [g, b] => (g.nat.bind fun g => b.onOff.map fun b => Spelling.ringReachDown ln (o.kw "down") g b).getD bad
        | _ => bad
      else .ringGet (noObj ln) 0

/-- The cvu verb (R398). -/
def cvuForms (ln : Line) : List Arg → Spelling
  | [u, a] => match unOf u.raw with
    | some x => if a.kw "get" then .cvuGet ln x else if a.kw "clear" then .cvuClear ln x else .cvuClear (noArg ln) x
    | none => .cvuGet (noObj ln) .cvuF
  | u :: _ => match unOf u.raw with
    | some x => .cvuClear (noArg ln) x
    | none => .cvuGet (noObj ln) .cvuF
  | [] => .cvuGet (noObj ln) .cvuF

/-- Slot A or B. -/
def Arg.slot (a : Arg) : Option Bool := a.key [("a", false), ("b", true)]

/-- A four-digit check value, with or without the prefix 0x. -/
def Arg.crc (a : Arg) : Option Nat :=
  match lowered a.raw with
  | 0x30 :: 0x78 :: _ => a.nat
  | t => if t.length = 4 then hexOf t else none

/-- The prof verb (R433). -/
def profForms (ln : Line) : List Arg → Option Spelling
  | [a] => if a.kw "get" then some (.profGet ln) else none
  | [a, v] =>
    if a.kw "word" then v.nat.map fun x => .profWord ln x
    else if a.kw "erase" then
      match v.slot with
      | some b => some (.profEraseSlot ln b)
      | none => v.nat.map fun x => .profErase ln x
    else if a.kw "wipe" then (v.key [("pb0", 0), ("pb1", 1)]).map fun b => .profWipe ln b
    else if a.kw "crc" then v.slot.map fun b => .profCrc ln b
    else if a.kw "protect" then v.nat.map fun k => .profProtect ln k
    else if a.kw "password" then some (.profPassword ln (passOf v.raw))
    else none
  | [a, v, w] =>
    if a.kw "program" then v.nat.bind fun x => w.nat.map fun n => .profProgram ln x (BitVec.ofNat 64 n)
    else if a.kw "swap" then v.slot.bind fun b => w.crc.map fun c => .profSwap ln b c
    else none
  | _ => none

/-- The tally verb (R433). -/
def tallyForms (ln : Line) : List Arg → Spelling
  | [a] => if a.kw "save" then .tallySave ln none else .tallySave (noArg ln) none
  | [a, v] => match chanName v.raw with
    | some c => if a.kw "save" then .tallySave ln (some c) else if a.kw "get" then .tallyGet ln c else .tallySave (noArg ln) none
    | none => .tallySave (noObj ln) none
  | _ => .tallySave (noArg ln) none

/-- The rflash verb (R458). -/
def rflashForms (ln : Line) : List Arg → Option Spelling
  | [a] => if a.kw "get" then some (.rflashGet ln) else if a.kw "sync" then some (.rflashSync ln) else none
  | [a, v] =>
    if v.kw "get" then match dotted a.raw with
      | some [b, k] => some (.rflashBlockGet ln b k)
      | _ => none
    else if a.kw "hex" then v.nat.map fun n => .rflashHex ln n
    else if a.kw "retry" then
      if v.kw "auto" then some (.rflashRetry ln none)
      else match skeleton v.raw with
        | (s, [[n]]) => if s = textBytes "rt#" ∧ n < 8 then some (.rflashRetry ln (some (BitVec.ofNat 3 n))) else none
        | _ => none
    else match dotted v.raw with
      | some [b, k, p] => if a.kw "read" then some (.rflashRead ln b k p)
          else if a.kw "program" then some (.rflashProgram ln b k p) else none
      | some [b, k] => if a.kw "erase" then some (.rflashErase ln b k) else if a.kw "bad" then some (.rflashBad ln b k) else none
      | _ => none
  | _ => none

/-- A capsule (R491). -/
def Arg.cap (a : Arg) : Option CapSel := if a.kw "trail" then some .trail else a.nat.map .id

/-- The options of rec replay, in their order. -/
def replayOpts (ln : Line) (c : CapSel) (k : Option Nat) : List Arg → Option Spelling
  | [] => some (.recReplay ln c k false false)
  | [a] => if a.kw "fast" then some (.recReplay ln c k true false) else if a.kw "nostop" then some (.recReplay ln c k false true)
      else none
  | [a, b] => if a.kw "fast" && b.kw "nostop" then some (.recReplay ln c k true true) else none
  | _ => none

/-- The keywords of rec trigger (Table 17.8). -/
def trigKw : List (String × TrigName) :=
  [("trip", .trip), ("fault", .fault), ("devsafe", .devsafe), ("grpsafe", .grpsafe), ("age", .age), ("fence", .fence),
   ("window", .window), ("ring", .ring), ("reset", .reset), ("skip", .skip)]

/-- The rec verb (R491). -/
def recForms (ln : Line) : List Arg → Option Spelling
  | [a] =>
    if a.kw "freeze" then some (.recFreeze ln) else if a.kw "get" then some (.recGet ln)
    else if a.kw "list" then some (.recList ln) else if a.kw "result" then some (.recResult ln)
    else (a.key [("on", true), ("off", false)]).map fun b => .recOnOff ln b
  | a :: v :: l =>
    if a.kw "claim" then
      if v.kw "none" then (if l = [] then some (.recClaim ln []) else none)
      else ((v :: l).mapM Arg.nat).map fun bs => .recClaim ln bs
    else if a.kw "replay" then
      match l, v.key [("pause", Spelling.recReplayPause ln), ("continue", .recReplayContinue ln), ("stop", .recReplayStop ln)] with
      | [], some i => some i
      | f :: k :: r, _ => v.cap.bind fun c => if f.kw "from" then k.nat.bind fun n => replayOpts ln c (some n) r
          else replayOpts ln c none (f :: k :: r)
      | r, _ => v.cap.bind fun c => replayOpts ln c none r
    else if a.kw "cap" then
      match l with
      | [w] => if w.kw "get" then v.cap.map fun c => .recCapGet ln c
          else if w.kw "erase" then v.nat.map fun n => .recCapErase ln n else none
      | _ => none
    else match l with
      | [] =>
        if a.kw "keyframe" then v.qty.map fun q => .recKeyframe ln q
        else if a.kw "osum" then v.qty.map fun q => .recOsum ln q
        else if a.kw "overwrite" then v.onOff.map fun b => .recOverwrite ln b
        else if a.kw "free" then if v.kw "trail" then some (.recFreeTrail ln) else none
        else none
      | [w] =>
        if a.kw "window" then v.qty.bind fun p => w.qty.map fun q => .recWindow ln p q
        else if a.kw "trigger" then (v.key trigKw).bind fun t => w.onOff.map fun b => .recTriggerCfg ln t b
        else none
      | _ => none
  | [] => none

/-- The command that a verb and its arguments spell; none for an unknown verb. -/
def verbForms (ln : Line) (v : List Byte) (l : List Arg) : Option Spelling :=
  let plain (i j : Spelling) : Spelling := if l = [] then i else j
  (byKw
    [("dev", fun (_ : Unit) => devForms ln l), ("port", fun _ => portForms ln l), ("ev", fun _ => evForms ln l),
     ("kick", fun _ => plain (.kick ln) (.kick (noArg ln))), ("wdog", fun _ => wdogForms ln l),
     ("lock", fun _ => plain (.lock ln) (.lock (noArg ln))),
     ("unlock", fun _ => match l with | [a] => .unlock ln (passOf a.raw) | [] => .unlock (noObj ln) none | _ => .unlock (noArg ln) none),
     ("rd", fun _ => rdForms ln l), ("wr", fun _ => wrForms ln l), ("time", fun _ => timeForms ln l),
     ("grp", fun _ => grpForms ln l), ("arm", fun _ => plain (.arm ln) (.arm (noArg ln))),
     ("disarm", fun _ => plain (.disarm ln) (.disarm (noArg ln))), ("ch", fun _ => chForms ln l),
     ("skip", fun _ => skipForms ln l), ("conv", fun _ => convForms ln l), ("sync", fun _ => syncForms ln l),
     ("safe", fun _ => safeForms ln l), ("ring", fun _ => ringForms ln l), ("cvu", fun _ => cvuForms ln l),
     ("prof", fun _ => (profForms ln l).getD (if l = [] then .profGet (noObj ln) else .profWipe (noArg ln) 0)),
     ("tally", fun _ => tallyForms ln l),
     ("rflash", fun _ => (rflashForms ln l).getD (if l = [] then .rflashGet (noObj ln) else .rflashSync (noArg ln))),
     ("rec", fun _ => (recForms ln l).getD (if l = [] then .recGet (noObj ln) else .recOnOff (noArg ln) false))] v).map (· ())

/-! ### Lines (R95, R97, R100, R115, R116, R118, R123, R127) -/

/-- The bytes of a line from a token on. -/
def dropToken (l : List Byte) : List Byte := (l.dropWhile isSep).dropWhile (!isSep ·)

/-- The line with its tag token and one following separator removed, for the fingerprint (R118). -/
def withoutToken (pre l : List Byte) : List Byte :=
  let lead := l.takeWhile isSep
  pre ++ lead ++ (dropToken l).drop 1

/-- The suffix of a line: none, a sound form with its value, or a malformed one. -/
inductive Suffix where
  | none | value (n : Nat) | bad
deriving DecidableEq, Repr

/-- The suffix that stands at the first * of a line (R391): exactly four hex digits to its end. Without a space before it, it is a
suffix as well. DESIGN CHOICE: assumption 102. -/
def suffixOf (l : List Byte) : Suffix :=
  match l.dropWhile (· ≠ 0x2A) with
  | [] => .none
  | _ :: d => if d.length = 4 then (match hexOf d with | some n => .value n | none => .bad) else .bad

/-- The address of a line: none, the broadcast, or a node; bad for any other token that begins with @. -/
inductive Address where
  | none | all | node (a : Node) | bad
deriving DecidableEq, Repr

/-- The parts of a line before its verb: its address, its tag, whether a tag is malformed, the bytes from the verb on, and the bytes
that the fingerprint runs over. -/
structure Header where
  addr  : Address := .none
  tag   : Option (BitVec 16) := none
  badTag : Bool := false
  text  : List Byte
  print : List Byte
deriving DecidableEq, Repr

/-- The header of a line whose suffix has been taken off; body keeps the space before the suffix (R115, R118). -/
def headerOf (body : List Byte) : Header :=
  let first (l : List Byte) : List Byte := ((lineTokens l).head?).getD []
  let a := first body
  let addr : Address := match a with
    | 0x40 :: r => if r = [0x2A] then .all else match nodeOf r with | some n => .node n | none => .bad
    | _ => .none
  let rest := if addr = .none then body else dropToken body
  let pre := body.take (body.length - rest.length)
  match first rest with
  | 0x23 :: r =>
    let ok := decide (r.length ≤ 4) && (hexOf r).isSome
    { addr := addr, tag := if ok then (hexOf r).map (BitVec.ofNat 16 ·) else none, badTag := !ok, text := dropToken rest
      print := withoutToken pre rest }
  | _ => { addr := addr, text := rest, print := body }

/-- The text from the verb onward, without separators around it (Table 12.7). -/
def trimmed (l : List Byte) : List Byte :=
  (((l.dropWhile isSep).reverse).dropWhile isSep).reverse

/-- What a locked entry point still accepts of a verb (Table 4.7). -/
def lockedAllows (v : List Byte) (l : List Arg) : Bool :=
  let last (k : String) : Bool := (l.getLast?.map (·.kw k)).getD false
  ["dev", "ev", "kick", "lock", "unlock", "rd", "arm", "disarm", "sync", "safe"].any (isKw · v) ||
  (if isKw "port" v then last "status" else last "get") ||
  (isKw "ch" v && ((l[1]?).map (·.kw "set")).getD false)

/-- What a broadcast line spells, from the command that it would be without its address (R127): safe only without an object. -/
def castOf (v : List Byte) (l : List Arg) : Spelling → BVerb
  | .kick _ => .kick
  | .safeCmd _ => .safe
  | .sync _ gs => .sync gs
  | .unlock _ _ => .other false true
  | .profPassword _ _ => .other true true
  | _ => .other (!lockedAllows v l) false

/-- The command that the symbols of a completed line spell on an entry point; none for an empty line. The checks come in the
order of R541: CHAR, TOOLONG, OVERRUN, the suffix, then SYNTAX. h: what MAIL says of a line of the mail entry point, its tag among
it (R124). -/
def State.lineCommand (s : State) (e : Ep) (h : Option MailHead) (l : List RxSym) : Option Spelling :=
  let bs := symBytes l
  let gen := decide (e ≠ .mail) && s.generated e
  let sx := if e = .mail then .none else suffixOf bs
  -- R127: the * of a broadcast address is no suffix
  let at_ := bs.takeWhile (· ≠ 0x2A)
  let cast := decide (at_.getLast? = some 0x40)
  let tail := bs.drop (at_.length + 1)
  let sx := if cast then suffixOf tail else sx
  let has := match sx with | .value _ => true | _ => false
  let body := if cast then at_ ++ [0x2A] ++ tail.takeWhile (· ≠ 0x2A) else bs.takeWhile (· ≠ 0x2A)
  let ln : Line := { ep := e, origin := h.map (·.origin) }
  let bad (x : LineErr) : Option Spelling := some (.lineRefused ln x)
  if bs.any fun b => !(decide (b = 9) || (decide (0x20 ≤ b) && decide (b ≤ 0x7E))) then
    some (.lineRefused { ln with crc := has } .char)
  else if 255 < bs.length then bad .toolong
  else if l.any (· = RxSym.lost) then bad .overrun
  else if lineTokens bs = [] then none
  else
    let hd := headerOf body
    let fenced := s.fenced (cvuOf e)
    let crcOk := fenced || match sx with | .value n => decide (n = crc16 body) | _ => true
    let ln := { ln with crc := has, tag := if e = .mail then h.bind (·.tag) else hd.tag, fp := BitVec.ofNat 16 (crc16 hd.print) }
    let ref (x : LineErr) : Option Spelling := some (.lineRefused ln x)
    if sx = .bad then ref .syntx
    else if !crcOk then ref .crc
    else if has && fenced then ref .nocrc
    else if gen && !has && s.flag 0x24 14 && !fenced then ref .crcreq
    else match lineTokens hd.text with
      | [] => ref .syntx
      | v :: l' =>
        if hd.addr = .bad ∨ hd.badTag ∨ (v :: l').any (fun t => t.any fun b => b = 0x40 ∨ b = 0x23 ∨ b = 0x2A) ∨
            !(v.all fun b => decide (0x61 ≤ lowByte b) && decide (lowByte b ≤ 0x7A)) then ref .syntx
        else
          let args := argsOf l'
          let ln := { ln with intOk := !args.any (·.big) }
          match hd.addr with
          | .all => some (match verbForms ln v args with
              | none => .lineRefused ln .verb
              | some x => .broadcastLine x.line (castOf v args x) (trimmed hd.text))
          | .node a =>
            let ln := { ln with addr := some a }
            if s.isSelf a then some ((verbForms ln v args).getD (.lineRefused ln .verb))
            else some (.remoteLineForward ln a (trimmed hd.text))
          | _ => some ((verbForms ln v args).getD (.lineRefused ln .verb))

/-- The command that the first completed line of an entry point spells, if one stands there. -/
def State.spelt (s : State) (e : Ep) : Option Spelling :=
  match splitLine (s.port e).rx with
  | some (l, _) => s.lineCommand e (s.port e).heads.head? l
  | none => none

end Sys2Proof.Machine
end

