-- ==== Sys2Proof/Safety.lean ====
section
/-!
DEFINITION. What holds in every state that the part can reach: the canonical form of its stores, and the bounds that the spec
gives its queues and counters. The terms of the statements: a line that passes its checks, what its answer is, and what a command
leaves as it was.
-/
namespace Sys2Proof.Machine

/-- The canonical form of what the profile flash holds beside its words: the index of its ladders, and per bank the operation, the
sequencer and the line that waits. -/
def PFlash.tables (p : PFlash) : Bool :=
  swf (fun _ => {}) p.index && swf (fun _ => none) p.ops && swf (fun _ => {}) p.seqs && swf (fun _ => none) p.who

/-- The canonical form of the part's stores: the register space, the implied state of channels, groups and controllers, the
times of the known-answer tests, the profile flash with its tables, the record flash and the recording area of
the trail. Equal contents are then equal data. -/
def Memory.wf (s : State) : Bool :=
  swf resetWord s.regs && swf (fun _ => {}) s.chn && swf (fun _ => {}) s.grp && swf (fun _ => {}) s.ring &&
  swf (fun _ => 0) s.kat && swf (fun _ => {}) s.pf.words && s.pf.tables &&
  swf (fun _ => {}) s.rf.pages && swf (fun _ => 0) s.chrys.trail

/-- The stores are canonical; the event queue holds at most 256 entries (R129) and a tag cache 64 (R118, R124); three failed
attempts are the lockout (R136); the stages end at S8 (Table 2.4). -/
def Inv (s : State) : Prop :=
  Memory.wf s = true ∧ s.evq.length ≤ 256 ∧
  (s.cp0.tags.length ≤ 64 ∧ s.cp1.tags.length ≤ 64 ∧ s.mail.tags.length ≤ 64) ∧
  s.pwFails ≤ 3 ∧ s.sup.stage ≤ 8

/-! ### Lines that pass -/

/-- A completed line that is executed: its entry point takes lines and no earlier line of it waits for its end (R128), its suffix and
tag are accepted (R116, R121), and no check that every form meets refuses it (R541). f says which of them its form meets: outside
the crawl set the part must stand at S8 and not in crawl (R49, R41), a locked entry point refuses the locked forms (R142), replay
those that R485 names. -/
structure Passes (ln : Line) (f : Form) (s : State) : Prop where
  serves : s.serves ln.ep = true
  free   : s.waiting ln.ep = false
  suffix : suffixErr ln f.core s = none
  fresh  : findTag ln s = none
  stage  : f.core = true ∨ (s.sup.crawl = false ∧ s.sup.stage = 8)
  object : ln.objOk = true
  opened : f.locked = true → s.locked ln.ep = false
  args   : ln.argOk = true
  ints   : ln.intOk = true
  live   : f.replay = true → s.replaying = false

/-- The state after an accepted line has been taken from its FIFO, its suffix counted, and its LINE record written. -/
def accepted (ln : Line) (f : Form) (s : State) : State :=
  recLine ln.ep f.secret (takenBytes ln s) 0 (countSuffix ln (taken ln s))

/-- The line came as a broadcast of another node, which draws no response (R127). -/
def isSilent (ln : Line) : Bool := (ln.origin.map (·.bcast)).getD false

/-- The line was answered with r (R107): the port sent one response, of this line and no duplicate, after it nothing but event
lines and the prompt (R112); the tag, if the line had one, names the response in the tag cache (R119). -/
def Answered (ln : Line) (r : Resp) (s t : State) : Prop :=
  (isSilent ln = false → ∃ l c, (t.port ln.ep).tx = l ++ TxItem.resp ln.addr (.loc r) false c :: (s.port ln.ep).tx ∧
    ∀ x ∈ l, x = .prompt ∨ ∃ e a b, x = .event e a b) ∧
  ∀ g, ln.tag = some g → ∃ x ∈ (t.port ln.ep).tags, x.tag = g ∧ x.origin = ln.origin ∧ x.fp = ln.fp ∧ x.resp = some (.loc r)

/-! ### What a command leaves -/

/-- No register. -/
abbrev noReg (_ : Nat) : Prop := False

/-- The event stands in the queue (R129). -/
def Queued (c : Ev) (o : Obj) (d : List Fld) (t : State) : Prop :=
  ∃ x ∈ t.evq, x.ev.cls = c ∧ x.ev.obj = o ∧ x.ev.det = d

/-- The registers that belong to the carrying of a command and to the recording of what happens: the overflow of the event queue
(R129), the state of Chrysalis, its newest capsule and the fill of the trail (R457, R474, R478); for a line on a port also its
status with TAGEVICT (R120) and the counters of its check-value unit (R397); for a line of the mail entry point the discarded
fragments (R344). -/
def ioKey (e : Option Ep) (k : Nat) : Prop :=
  k = 0x20020 ∨ k = 0x70004 ∨ k = 0x70024 ∨ k = 0x70F08 ∨
  (e = some .cp0 ∧ (k = 0x20004 ∨ k = 0x40044)) ∨ (e = some .cp1 ∧ (k = 0x20014 ∨ k = 0x40054)) ∨
  (e = some .mail ∧ (k = 0x50030 ∨ k = 0x50130))

/-- From s to t a command of entry point e (none: an event) changed no register but those of w and ioKey, and no other state:
what it may change beside them is the receive FIFO, the tag cache and the sent lines of e, the marks of events as sent, the
MAIL queues for a line of the mail entry point, the event queue where events are queued, and the record in the trail with the
capsule that a trigger starts. The bits of REC.STAT that say whether a replay runs stay, and so does the canonical form of the
register store. -/
structure Stays (e : Option Ep) (w : Nat → Prop) (s t : State) : Prop where
  pending : t.pending = s.pending
  member  : t.member = s.member
  uid     : t.uid = s.uid
  freeIdx : t.freeIdx = s.freeIdx
  reg     : ∀ k, ¬ w k → ¬ ioKey e k → t.reg k = s.reg k
  canon   : swf resetWord s.regs = true → swf resetWord t.regs = true
  replay  : ¬ w aRecStat → swf resetWord s.regs = true → t.fld aRecStat 0 3 = s.fld aRecStat 0 3
  sup     : t.sup = s.sup
  clk     : t.clk = s.clk
  port    : ∀ x, e ≠ some x → t.port x = s.port x
  own     : ∀ x, e = some x → (t.port x).unlocked = (s.port x).unlocked ∧ (t.port x).crSeen = (s.port x).crSeen ∧
              (t.port x).dropping = (s.port x).dropping ∧ (t.port x).typed = (s.port x).typed ∧
              (t.port x).remote = (s.port x).remote ∧ (t.port x).nextId = (s.port x).nextId ∧
              (t.port x).rdShadow = (s.port x).rdShadow ∧ (t.port x).wrShadow = (s.port x).wrShadow
  events  : s.evNew = [] → t.evNew = [] ∧ t.evNext = s.evNext ∧ t.evq.map (·.ev) = s.evq.map (·.ev)
  wdog    : t.wdog = s.wdog
  pwFails : t.pwFails = s.pwFails
  session : t.session = s.session
  chn     : t.chn = s.chn
  grp     : t.grp = s.grp
  rf      : t.rf = s.rf
  pf      : t.pf = s.pf
  dir     : t.chrys.dir = s.chrys.dir ∧ t.chrys.replay = s.chrys.replay ∧ t.chrys.trailCap = s.chrys.trailCap ∧
              t.chrys.run = s.chrys.run ∧ t.chrys.prof = s.chrys.prof ∧ t.chrys.epoch = s.chrys.epoch
  syncs   : t.syncs = s.syncs
  ring    : e ≠ some .mail → t.ring = s.ring
  kat     : t.kat = s.kat
  s5regs  : t.s5regs = s.s5regs

/-- The line completes: the next state answers it with r, is s' but for the carrying of the line, and its queue holds the events
that s' has raised. -/
def Does (c : Instr) (ln : Line) (r : Resp) (s s' : State) : Prop :=
  ∃ t, exec c s = .next t ∧ Answered ln r s t ∧ Stays (some ln.ep) noReg s' t ∧
    (s'.evNew.length ≤ 255 → ∀ e ∈ s'.evNew, ∃ x ∈ t.evq, x.ev = e)

/-- The event completes: the next state is s' but for the recording of what happened, and its queue holds the events that s' has
raised, each with the timestamp it carries, else that of s'. -/
def Becomes (c : Instr) (s s' : State) : Prop :=
  ∃ t, exec c s = .next t ∧ Stays none noReg s' t ∧
    (s'.evNew.length ≤ 255 → ∀ e ∈ s'.evNew, ∃ x ∈ t.evq, x.ev = e ∧ x.ts = e.own.getD s'.clk.ts)

/-- The command is one that the text in the FIFO of its entry point spells, or one that no text gives (assumption 7): the sender of a
run of the part sends no other. -/
def FromText (c : Instr) (s : State) : Prop := ∀ x, spellingOf c = some x → ∃ e, s.spelt e = some x

end Sys2Proof.Machine
end

