-- ==== Sys2Proof/Certificates/Slice0/Obligations.lean ====
section
/-!
DEFINITION. The statements about the model: what each command does, the rules behind it, and what every step keeps. Does, Becomes,
Passes, Answered and Stays are those of Sys2Proof/Safety.lean.
-/
open Sys2Proof Sys2Proof.Machine

/-- The port commands that store a setting (R143, R111): each answers ok and writes its field of CMD.CPkCFG, and nothing else. Any
field but MODE and BAUD is written before the response; those two after its stop bit. Completion: Machine.exec answers the next
state that holds its own effect, for portCrc, portEvents, portEvstamp, portMode, portBaud, portMailto. -/
def Obligations.PortSettings : Prop :=
  ∀ (ln : Line) (p : PortSel) (s : State), Inv s → Passes ln {} s → ln.ep ≠ .mail →
    (∀ on, ∃ t, Machine.exec (.portCrc ln p on) s = .next t ∧ Answered ln .ok s t ∧
      t.reg (aCfg (portEp p)) = setBit (s.reg (aCfg (portEp p))) 1 on ∧ Stays (some ln.ep) (· = aCfg (portEp p)) s t) ∧
    (∀ on, ∃ t, Machine.exec (.portEvents ln p on) s = .next t ∧ Answered ln .ok s t ∧
      t.reg (aCfg (portEp p)) = setBit (s.reg (aCfg (portEp p))) 2 on ∧ Stays (some ln.ep) (· = aCfg (portEp p)) s t) ∧
    (∀ on, ∃ t, Machine.exec (.portEvstamp ln p on) s = .next t ∧ Answered ln .ok s t ∧
      t.reg (aCfg (portEp p)) = setBit (s.reg (aCfg (portEp p))) 3 on ∧ Stays (some ln.ep) (· = aCfg (portEp p)) s t) ∧
    (∀ gen, ∃ t, Machine.exec (.portMode ln p gen) s = .next t ∧ Answered ln .ok s t ∧
      t.reg (aCfg (portEp p)) = setBit (s.reg (aCfg (portEp p))) 0 gen ∧ Stays (some ln.ep) (· = aCfg (portEp p)) s t) ∧
    (∀ rate, rate ∈ baudRates → ∃ t, Machine.exec (.portBaud ln p rate) s = .next t ∧ Answered ln .ok s t ∧
      t.reg (aCfg (portEp p)) = setBits (s.reg (aCfg (portEp p))) 4 3 (baudRates.idxOf rate) ∧
      Stays (some ln.ep) (· = aCfg (portEp p)) s t) ∧
    (∀ q, qBad q .ms = false → 10 ≤ qSteps q .ms 1 1000000 → qSteps q .ms 1 1000000 ≤ 60000 →
      ∃ t, Machine.exec (.portMailto ln p q) s = .next t ∧ Answered ln .ok s t ∧
      t.reg (aCfg (portEp p)) = setBits (s.reg (aCfg (portEp p))) 16 16 (qSteps q .ms 1 1000000).toNat ∧
      Stays (some ln.ep) (· = aCfg (portEp p)) s t)

/-- The host's time commands and the end of a slew (R84, R85, R86, R87): time set steps the timestamp, clears F and STEPPED is set,
a slew in progress ends and the step is reported; time trim writes CLK.HOSTTRIM held to its limit; time slew loads the slew; in its
last cycle, where the remainder is smaller than the term of 50 ppm, the remainder goes into the timestamp and the end is reported.
Completion: Machine.exec answers the next state that holds its own effect, for timeSet, timeTrim, timeSlew, slewComplete. -/
def Obligations.TimeDiscipline : Prop :=
  (∀ (ln : Line) (s : State), Inv s → Passes ln {} s →
    (∀ n, s.ringLive = false → n < 2 ^ 64 → s.evNew = [] → ∃ t, Machine.exec (.timeSet ln n) s = .next t ∧ Answered ln .ok s t ∧
      t.clk = { s.clk with ts := BitVec.ofNat 64 n, frac := 0, slew := 0, slewing := false } ∧
      t.reg 0x10000 = setBit (s.reg 0x10000) 7 true ∧ Queued .timeStep .none [fn s.clk.ts.toNat, fn (n % 2 ^ 64)] t ∧
      Stays (some ln.ep) (· = 0x10000) ({ s with clk := t.clk }.emit .timeStep .none []) t) ∧
    (∀ q, qBad q .ppm = false → s.clk.disc = false → ∃ t, Machine.exec (.timeTrim ln q) s = .next t ∧ Answered ln .ok s t ∧
      t.reg 0x10010 = wordI (clampI (-214748) 214748 (qSteps q .ppm (2 ^ 32) 1000000)) ∧
      Stays (some ln.ep) (· = 0x10010) s t) ∧
    (∀ q, qBad q .s = false → s.clk.disc = false → (qSteps q .s 2 5).natAbs ≤ 2000000000 →
      ∃ t, Machine.exec (.timeSlew ln q) s = .next t ∧ Answered ln .ok s t ∧
      t.clk = { s.clk with slewing := true, slew := qSteps q .s 2 5 * 2 ^ 32 } ∧
      Stays (some ln.ep) noReg { s with clk := t.clk } t)) ∧
  (∀ s : State, s.dead = false → s.asleep = false → s.sup.pllLock = true → s.clk.slewing = true → s.clk.disc = false →
    s.clk.slew.natAbs < 214748 → s.evNew = [] →
    ∃ t, Machine.exec .slewComplete s = .next t ∧ t.clk.slewing = false ∧ t.clk.slew = 0 ∧ t.clk.raw = s.clk.raw ∧
      t.clk.frac = BitVec.ofInt 32 (s.clk.frac.toNat + s.clk.slew) ∧
      t.clk.ts = s.clk.ts + BitVec.ofInt 64 ((s.clk.frac.toNat + s.clk.slew).fdiv (2 ^ 32)) ∧
      Queued .timeSlewed .none [] t ∧ Stays none noReg ({ s with clk := t.clk }.emit .timeSlewed .none []) t)

/-- The lines that report on the part, a port, the event queue, the watchdog and the time (R65, R66, R27, R143, R144, R91): each is
answered with the values of the state in which it is executed, and changes nothing beside the carrying of the line. Completion:
Machine.exec answers the next state that holds its own effect, for devStatus, devFence, devUnit, portStatus, evGet, wdogGet,
timeGet. -/
def Obligations.QueryLines : Prop :=
  ∀ (ln : Line) (s : State), Inv s →
    (Passes ln devForm s →
      (∃ t, Machine.exec (.devStatus ln) s = .next t ∧ Answered ln (.vals (accepted ln devForm s).devStatus) s t ∧
        Stays (some ln.ep) noReg s t) ∧
      (∃ t, Machine.exec (.devFence ln) s = .next t ∧ Answered ln (.vals (accepted ln devForm s).devFence) s t ∧
        Stays (some ln.ep) noReg s t) ∧
      (∀ u, (∀ g k, u = .grp g k → g < s.member.groups) → ∃ t, Machine.exec (.devUnit ln u) s = .next t ∧
        Answered ln (.vals [fw ((accepted ln devForm s).unitState u)]) s t ∧ Stays (some ln.ep) noReg s t)) ∧
    (∀ p, ln.ep ≠ .mail → Passes ln { locked := false, replay := false } s →
      ∃ t, Machine.exec (.portStatus ln p) s = .next t ∧ Stays (some ln.ep) noReg s t ∧
        let a := accepted ln { locked := false, replay := false } s
        Answered ln (.vals [kw "mode" (if s.flag (aCfg (portEp p)) 0 then "generated" else "typed"),
          kb "crc" (s.flag (aCfg (portEp p)) 1), kb "events" (s.flag (aCfg (portEp p)) 2), kb "evstamp" (s.flag (aCfg (portEp p)) 3),
          kn "baud" (baudRates.getD (s.fld (aCfg (portEp p)) 4 3) 0), kn "tags" (a.port (portEp p)).tags.length,
          kn "mail" (s.port (portEp p)).remote.length, ky "locked" (s.locked (portEp p))]) s t) ∧
    (Passes ln { locked := false } s →
      (∃ t, Machine.exec (.evGet ln) s = .next t ∧ Stays (some ln.ep) noReg s t ∧
        (s.evq = [] → Answered ln (.vals [fw "none"]) s t) ∧
        (∀ x l, s.evq = x :: l → Answered ln (.vals ([kn "n" x.seq.toNat, kn "t" x.ts.toNat] ++ x.ev.flds)) s t)) ∧
      (∃ t, Machine.exec (.wdogGet ln) s = .next t ∧ Stays (some ln.ep) noReg s t ∧
        Answered ln (.vals (if s.wdPeriod = 0 then [fw "off"] else [fn s.wdPeriod, fn s.wdLeft])) s t) ∧
      (∃ t, Machine.exec (.timeGet ln) s = .next t ∧ Stays (some ln.ep) noReg s t ∧
        Answered ln (.vals [{ val := .n s.clk.ts.toNat }, ks "trim" (roundDiv (s.effT * 1000000000) (2 ^ 32)) 3 "ppm",
          kw "src" (match s.timeSrc with | 0 => "none" | 1 => "host" | _ => "ring"), { key := "slew", val := .n s.slewTicks }]) s t))

/-- The watchdog and the lock (R132, R135, R136, Table 11.1): kick reloads the watchdog and ends the condition of WDOG, SAFE_CLEAR
being queued where it was present; wdog and wdog off store the period and reload, a period of 0 stops it. lock locks its entry
point; unlock with the password unlocks it, clears the count of failures and opens the session; with another password it is answered
PASSWORD and counted, and after three failures it is answered PWLOCK and compares nothing. A reset other than power-on keeps the
count of failures, and a power-on reset clears it. A set password locks every entry point at S2. Completion: Machine.exec answers
the next state that holds its own effect, for kick, wdogSet, wdogOff, powerOnReset, xoQualified, lock, unlock. -/
def Obligations.WatchdogAndLock : Prop :=
  (∀ (ln : Line) (s : State), Inv s →
    (Passes ln { locked := false } s → ∃ t, Machine.exec (.kick ln) s = .next t ∧ Answered ln .ok s t ∧
      t.wdog = { running := decide (s.wdPeriod ≠ 0), reload := s.clk.raw } ∧
      t.reg 0x30004 = (if s.fenced .safe then s.reg 0x30004 else setBit (s.reg 0x30004) 19 false) ∧
      (s.fenced .safe = false → s.flag 0x30004 19 = true → s.evNew = [] → Queued .safeClear .dev [fcause 3] t) ∧
      (s.flag 0x30004 19 = false → Stays (some ln.ep) noReg { s with wdog := t.wdog } t) ∧
      Stays (some ln.ep) (· = 0x30004) ({ s with wdog := t.wdog }.emit .safeClear .dev []) t) ∧
    (Passes ln {} s →
      (∀ q, qBad q .ms = false → 10 ≤ qSteps q .ms 1 1000000 → qSteps q .ms 1 1000000 ≤ 600000 →
        ∃ t, Machine.exec (.wdogSet ln q) s = .next t ∧ Answered ln .ok s t ∧
        t.reg 0x20030 = word (qSteps q .ms 1 1000000).toNat ∧ t.wdog = { running := true, reload := s.clk.raw } ∧
        Stays (some ln.ep) (· = 0x20030) { s with wdog := t.wdog } t) ∧
      (∃ t, Machine.exec (.wdogOff ln) s = .next t ∧ Answered ln .ok s t ∧ t.reg 0x20030 = 0 ∧ t.wdog.running = false ∧
        Stays (some ln.ep) (· = 0x20030) { s with wdog := t.wdog } t))) ∧
  (State.reset.pwFails = 0 ∧ (∀ b s, b ≠ 0 → (takeReset b s).pwFails = s.pwFails) ∧
  (∀ s : State, ¬(s.sup.inReset = true ∧ s.sup.porHeld = true) →
    ∃ t, Machine.exec .powerOnReset s = .next t ∧ t.pwFails = 0) ∧
  (∀ (e : Ep) (late : Bool) (s : State), s.atStage 1 = true → ∃ t, Machine.exec (.xoQualified late) s = .next t ∧
    (t.port e).unlocked = !s.pwSet) ∧
  ∀ (ln : Line) (s : State), Inv s → s.pwSet = true →
    (Passes ln { locked := false } s → ∃ t, Machine.exec (.lock ln) s = .next t ∧ Answered ln .ok s t ∧
      (t.port ln.ep).unlocked = false ∧ Stays (some ln.ep) noReg (setUnlocked ln.ep false s) t) ∧
    (∀ pw, Passes ln { locked := false, secret := true } s →
      (s.pwFails < 3 → s.pwMatches pw = true → ∃ t, Machine.exec (.unlock ln (some pw)) s = .next t ∧ Answered ln .ok s t ∧
        (t.port ln.ep).unlocked = true ∧ t.pwFails = 0 ∧ t.session = true ∧
        Stays (some ln.ep) noReg { setUnlocked ln.ep true s with pwFails := 0, session := true } t) ∧
      (s.pwFails < 3 → s.pwMatches pw = false → ∃ t, Machine.exec (.unlock ln (some pw)) s = .next t ∧
        Answered ln (.err .password) s t ∧ t.pwFails = s.pwFails + 1 ∧
        Stays (some ln.ep) noReg { s with pwFails := s.pwFails + 1 } t) ∧
      (s.pwFails = 3 → ∃ t, Machine.exec (.unlock ln (some pw)) s = .next t ∧
        Answered ln (.err .pwlock) s t ∧ Stays (some ln.ep) noReg s t)))

/-- The event queue (R130, R144) and the tag caches (R120): ev ack removes the oldest events up to and including the one it names
and answers how many, none where the queue holds no such event; ev clear empties the queue; with EVENTS set a port sends each queued
event once, the oldest first, in typed mode while no line is being typed or executed; an entry of a tag cache that is 600 s old is
removed. Completion: Machine.exec answers the next state that holds its own effect, for evAck, evClear, eventLineSend,
tagEntryExpiry. -/
def Obligations.EventQueue : Prop :=
  (∀ (ln : Line) (s : State), Inv s → s.evNew = [] → Passes ln { locked := false } s →
    (∀ a x b, s.evq = a ++ x :: b → (∀ y ∈ a, y.seq ≠ x.seq) → ∃ t, Machine.exec (.evAck ln x.seq.toNat) s = .next t ∧
      Answered ln (.vals [kn "acked" (a.length + 1)]) s t ∧ t.evq.map (·.ev) = b.map (·.ev) ∧ t.evNext = s.evNext ∧
      Stays (some ln.ep) noReg { s with evq := b } t) ∧
    (∀ n, n ≤ 0xFFFF → (∀ y ∈ s.evq, y.seq.toNat ≠ n) → ∃ t, Machine.exec (.evAck ln n) s = .next t ∧
      Answered ln (.vals [kn "acked" 0]) s t ∧ Stays (some ln.ep) noReg s t) ∧
    (∃ t, Machine.exec (.evClear ln) s = .next t ∧ Answered ln .ok s t ∧ t.evq = [] ∧
      Stays (some ln.ep) noReg { s with evq := [] } t)) ∧
  (∀ (ep : Ep) (s : State),
    (∀ a x b, ep ≠ .mail → s.serves ep = true → s.replaying = false → s.flag (aCfg ep) 2 = true →
      (s.generated ep = true ∨ ((s.port ep).typed = [] ∧ (s.port ep).rx = [] ∧ s.waiting ep = false)) → s.evq = a ++ x :: b →
      (∀ y ∈ a, y.sent ep = true) → x.sent ep = false →
      Becomes (.eventLineSend ep) s
        (State.send ep (.event x (s.flag (aCfg ep) 3) (s.lineCrc ep)) { s with evq := a ++ x.mark ep :: b })) ∧
    (∀ a x b, s.dead = false → (s.port ep).tags = a ++ x :: b → (∀ y ∈ a, y.tag ≠ x.tag) →
      Becomes (.tagEntryExpiry ep x.tag) s (s.setPort ep { s.port ep with tags := a ++ b })))

/-- The stages of start-up (R33, R41, R76, R45, R422, R54): each event, met at its stage outside a reset, the floor and crawl mode,
moves the part to the next one with the effects of that stage. RESET_RELEASE latches the straps; XO_QUALIFIED sends the S2 line, or
holds it for a strapped rate of 3 or 12 Mbit/s until PLL lock; a self-test that fails neither CP0 nor the PLL, SAFE or the fabric
fences what failed and sends the S4 line, and one that fails CP0 leads to the floor (R26). Supplies that come good where no reset
waits for them make a power-on reset (R55; that no other row does is the model's choice, assumption 15). Completion: Machine.exec
answers the next state that holds its own effect, for powerOnReset, resetRelease, xoQualified, pllLock, pllLockTimeout,
selfTestComplete, s5ProfileLoad, s6GroupBringup, s7RingStart, s8Run, directoryScan. -/
def Obligations.StartStages : Prop :=
  ∀ s : State,
    (s.sup.inReset = true → s.sup.porHeld = true →
      Becomes .powerOnReset s { s with sup := { s.sup with porHeld := false, vcoreOk := true, vioOk := true } }) ∧
    (¬(s.sup.inReset = true ∧ s.sup.porHeld = true) → Becomes .powerOnReset s
      (let t := takeReset 0 s
       { t with sup := { t.sup with porHeld := false, vcoreOk := true, vioOk := true } })) ∧
    (∀ s1 s2, s.sup.inReset = true → s.sup.porHeld = false → Becomes (.resetRelease s1 s2) s
      (latchStraps s1 s2 { s with sup := { s.sup with inReset := false, resetLow := false, stage := 1 } })) ∧
    (∀ late, s.atStage 1 = true → s.fld 0x24 15 3 < 6 → Becomes (.xoQualified late) s
      (State.boot .s2 (lockPoints { s with sup := { s.sup with xoLate := late, stage := 2 } }))) ∧
    (∀ late, s.atStage 1 = true → 6 ≤ s.fld 0x24 15 3 → Becomes (.xoQualified late) s
      (lockPoints { s with sup := { s.sup with xoLate := late, stage := 2, s2Held := true } })) ∧
    (s.atStage 2 = true → s.sup.vanaOk = true → s.sup.s2Held = false →
      Becomes .pllLock s { s with sup := { s.sup with pllLock := true, stage := 3 } }) ∧
    (s.atStage 2 = true → s.sup.vanaOk = true → s.sup.s2Held = true → Becomes .pllLock s
      (let t := State.boot .s2 { s with sup := { s.sup with pllLock := true, stage := 3 } }
       { t with sup := { t.sup with s2Held := false } })) ∧
    (s.atStage 2 = true → Becomes .pllLockTimeout s (fenceUnit false .pll s)) ∧
    (∀ r, s.atStage 3 = true → r.cp0 = false →
      let t := toStage 4 (s.setReg 0x30 (s.reg 0x30 ||| s.failedUnits r.failed))
      let t := checkKept (loadTable r.bad t)
      let t := forAll (List.range 7) (fun u v => { v with kat := sset 0 v.kat u v.clk.raw }) t
      let t := t.boot (.s4 t.fenceCount)
      t.fenced .pll = false → t.fenced .safe = false → t.fenced .fabric = false → Becomes (.selfTestComplete r) s t) ∧
    (∀ r, s.atStage 3 = true → r.cp0 = true → ∃ t, Machine.exec (.selfTestComplete r) s = .next t ∧ t.sup.floor = true ∧
      t.sup.stage = 4 ∧ t.reg 0x30 = s.reg 0x30 ||| s.failedUnits r.failed ||| (if t.fenced .rflash then 0x10000 else 0)) ∧
    (∀ slot, s.atStage 4 = true → (toStage 5 s).chosenSlot = some slot → Becomes .s5ProfileLoad s
      (let t := loadProfile slot (toStage 5 s)
       { t.boot (.s5 t.sup.profSrc (some (t.slotGen slot))) with s5regs := t.regs })) ∧
    (s.atStage 4 = true → (toStage 5 s).chosenSlot = none → Becomes .s5ProfileLoad s
      (let t := strapDefaults (toStage 5 s)
       { t.boot (.s5 t.sup.profSrc none) with s5regs := t.regs })) ∧
    (∀ powered r, s.atStage 5 = true → Becomes (.s6GroupBringup powered r) s
      (let t := forAll (List.range s.member.groups) (groupS6 powered r) (toStage 6 s)
       let t := if t.mayArm then armPart t else t
       t.boot (.s6 (t.groups.filter (t.powered ·)).length t.member.groups t.sup.armed))) ∧
    (s.atStage 6 = true → Becomes .s7RingStart s (forAll (List.range s.member.rings) ringS7 (toStage 7 s))) ∧
    (s.atStage 7 = true → Becomes .s8Run s
      (let t := setWdog (wdogStrap (s.fld 0x24 22 2)) (toStage 8 s)
       let t := startEpoch (if t.mayRecord then freezePrev t else t)
       let t := t.boot (.s8 (decide (t.service = 3)))
       if t.generated .cp0 then t else t.send .cp0 .prompt)) ∧
    (∀ bad, s.running = true → s.asleep = false → s.chrys.scanned = false → s.fenced .chrys = false → s.fenced .rflash = false →
      s.fenced .cvuF = false → Becomes (.directoryScan bad) s (copyOn (scanDir bad s)))

/-- The sources of reset and the levels of the supplies (R34, R35, R55, R56, R61, R70, R186): outside a reset each source begins
one, with its bit of SYS.RSTCAUSE set beside those that stand, every other register at its reset value, and power-on reset held for
a brown-out; during a reset a source only sets its bit (the model's choice, assumption 5). A power-on reset sets bit 0 alone and
clears the lockout. The safe latch of every powered group acts on its own from then on (assumption 85). VANA and VDRAM are status
with a SUPPLY record; a fall of VIO below the hold-up threshold sets HOLDUPSEEN, is recorded and reported, and starts a snapshot of
every DIC channel with the persistent counter; its return lets the copy to the record flash go on. Completion: Machine.exec answers
the next state that holds its own effect, for brownOutVcore, brownOutVio, resetPin, xoLoss, vanaOkChange, vdramOkChange, holdupLow,
holdupLowClear. -/
def Obligations.ResetsAndSupplies : Prop :=
  ((∀ s : State, s.sup.inReset = false →
    (s.sup.vcoreOk = true → Becomes .brownOutVcore s (takeReset 1 { s with sup := { s.sup with vcoreOk := false } })) ∧
    (s.sup.vioOk = true → Becomes .brownOutVio s (takeReset 2 { s with sup := { s.sup with vioOk := false } })) ∧
    (s.sup.resetLow = false → Becomes .resetPin s (takeReset 3 { s with sup := { s.sup with resetLow := true } })) ∧
    (s.dead = false → Becomes .xoLoss s (takeReset 5 s))) ∧
  (∀ s : State, s.sup.inReset = true →
    (s.sup.resetLow = false → Becomes .resetPin s { s.setFlag 0x28 3 true with sup := { s.sup with resetLow := true } }) ∧
    (s.sup.vcoreOk = true → Becomes .brownOutVcore s
      { s.setFlag 0x28 1 true with sup := { s.sup with vcoreOk := false, porHeld := true, vdramKept := false } }) ∧
    (s.sup.vioOk = true → Becomes .brownOutVio s
      { s.setFlag 0x28 2 true with sup := { s.sup with vioOk := false, porHeld := true, vdramKept := false } })) ∧
  (∀ (b : Nat) (s : State), b = 1 ∨ b = 2 ∨ b = 3 ∨ b = 4 ∨ b = 5 → Memory.wf s = true →
    (takeReset b s).reg 0x28 = setBit (s.reg 0x28) b true ∧ (∀ k, k ≠ 0x28 → (takeReset b s).reg k = resetWord k) ∧
    (takeReset b s).sup.inReset = true ∧ (takeReset b s).sup.stage = 0 ∧ (takeReset b s).sup.porHeld = decide (b ≤ 2) ∧
    (takeReset b s).evq = [] ∧ (takeReset b s).cp0.tags = [] ∧ (takeReset b s).pwFails = s.pwFails ∧
    (takeReset b s).member = s.member ∧ (takeReset b s).uid = s.uid ∧ (takeReset b s).pending = s.pending ∧
    ∀ g, g < s.member.groups → ((takeReset b s).gr g).vf = (s.gr g).vf ∧
      ((s.gr g).vf = true → ((takeReset b s).gr g).acts = true)) ∧
  (∀ s : State, (takeReset 0 s).reg 0x28 = 1 ∧ (∀ k, k ≠ 0x28 → (takeReset 0 s).reg k = resetWord k) ∧
    (takeReset 0 s).pwFails = 0 ∧ (takeReset 0 s).sup.resetTag = none ∧ (takeReset 0 s).chrys.trail = [])) ∧
  (∀ s : State,
    (∀ ok, s.sup.vanaOk = !ok → Becomes (.vanaOkChange ok) s
      (State.record 0x06 1 ok.toNat [] { s with sup := { s.sup with vanaOk := ok } })) ∧
    (∀ ok, s.sup.vdramOk = !ok → Becomes (.vdramOkChange ok) s
      (State.record 0x06 2 ok.toNat [] { s with sup := { s.sup with vdramOk := ok, vdramKept := s.sup.vdramKept && ok } })) ∧
    (s.sup.holdupLow = false → s.dead = true → Becomes .holdupLow s
      ({ s with sup := { s.sup with holdupLow := true } }.setFlag 0x2C 1 true)) ∧
    (s.sup.holdupLow = true → s.dead = true → Becomes .holdupLowClear s { s with sup := { s.sup with holdupLow := false } }) ∧
    (s.sup.holdupLow = false → s.dead = false → Becomes .holdupLow s
      (forAll (List.range s.member.channels) persist
        ((State.record 0x06 0 1 [] ({ s with sup := { s.sup with holdupLow := true } }.setFlag 0x2C 1 true)).emit .holdupLow .dev []))) ∧
    (s.sup.holdupLow = true → s.dead = false → Becomes .holdupLowClear s
      (copyOn (State.record 0x06 0 0 [] { s with sup := { s.sup with holdupLow := false } }))))

/-- A unit that fails at run time is fenced (R309, R395, R48): a failed check, a failed known-answer test and an uncorrectable
factory word fence theirs; the bit of the unit is set and stays, UNIT_FENCED is queued, and a failed PLL, fabric or SAFE leads to
crawl mode, a failed CP0 to the floor. A known-answer test that passes starts the time of lastkat again. Completion: Machine.exec
answers the next state that holds its own effect, for unitFenced, knownAnswerTest, pflashFactoryCheck. -/
def Obligations.FencingUnits : Prop :=
  (∀ (u : Un) (s : State), s.dead = false → runChecked u = true → Becomes (.unitFenced u) s (fenceUnit true u s)) ∧
  (∀ (u : Un) (i : Nat) (s : State), s.dead = false → s.asleep = false → cvuNum u = some i → s.hasUnit u = true →
    s.fenced u = false → Becomes (.knownAnswerTest u false) s (fenceUnit true u s) ∧
    Becomes (.knownAnswerTest u true) s { s with kat := sset 0 s.kat i s.clk.raw }) ∧
  (∀ s : State, s.flashRuns = true → s.pfBusy 1 = false → Becomes (.pflashFactoryCheck true) s (fenceUnit true .pflash s) ∧
    Becomes (.pflashFactoryCheck false) s s) ∧
  (∀ (u : Un) (a b : Nat) (s : State), Memory.wf s = true → u.fenceBit = some (a, b) → s.hasUnit u = true → s.fenced u = false →
    (fenceUnit true u s).flag a b = true ∧
    { cls := Ev.unitFenced, obj := Obj.unit u, det := [{ val := FVal.un u }] : Event } ∈ (fenceUnit true u s).evNew ∧
    ((u = .pll ∨ u = .fabric ∨ u = .safe) → (fenceUnit true u s).sup.crawl = true) ∧
    (fenceUnit true u s).clk.ts = s.clk.ts) ∧
  (∀ s : State, s.sup.floor = false → (fenceUnit true .cp0 s).sup.floor = true ∧
    { cls := Ev.unitFenced, obj := Obj.unit .cp0, det := [{ val := FVal.un .cp0 }] : Event } ∈ (fenceUnit true .cp0 s).evNew)

/-- dev reset answers ok and then begins a reset with DEVRESET (R67); its tag is kept over the reset (R64), and the same tag within
600 s of the S2 that follows is answered again without another reset. Where a MAIL fragment carries the answer, the last one is
marked and the reset waits until it has been sent. Completion: Machine.exec answers the next state that holds its own effect, for
devReset. -/
def Obligations.DevReset : Prop :=
  ∀ (ln : Line) (s : State), Inv s → Passes ln devForm s →
    let a := accepted ln devForm s
    let u := answer ln .ok { a with sup := { a.sup with resetTag := match ln.tag with
      | some g => some { ep := ln.ep, origin := ln.origin, tag := g, due := true }
      | none => a.sup.resetTag } }
    (ln.ep ≠ .mail → answerSentBy ln a u = none) ∧
    (a.resetRepeats ln = false → answerSentBy ln a u = none → ∃ t, Machine.exec (.devReset ln) s = .next t ∧
      t.reg 0x28 = setBit (s.reg 0x28) 4 true ∧ (∀ k, k ≠ 0x28 → t.reg k = resetWord k) ∧ t.sup.inReset = true ∧
      t.sup.stage = 0 ∧ t.sup.porHeld = false ∧ (t.port ln.ep).tx = ((answer ln .ok a).port ln.ep).tx ∧
      (∀ g, ln.tag = some g → t.sup.resetTag = some { ep := ln.ep, origin := ln.origin, tag := g })) ∧
    (∀ c, a.resetRepeats ln = false → answerSentBy ln a u = some c → ∃ t, Machine.exec (.devReset ln) s = .next t ∧
      Stays none noReg (markReset c u) t ∧ t.sup.inReset = s.sup.inReset ∧
      ((t.rg c).queue.getLast?.map (·.reset)) = some true) ∧
    (a.resetRepeats ln = true → ∃ t, Machine.exec (.devReset ln) s = .next t ∧ Stays (some ln.ep) noReg s t)

/-- Bytes at a port (R98, R99, R112, R113): in generated mode a byte enters the receive FIFO, of 1024 bytes, and one that finds it
full sets RXOVF; LINEGAP discards the line that is not complete. In typed mode a printable byte is echoed and enters the line buffer
while it holds fewer than 255, one more draws BEL, backspace and Ctrl-U edit it, a terminator gives it to the parser, and a buffer
that has held bytes for 5 s lets the pending events through. Completion: Machine.exec answers the next state that holds its own
effect, for rxByte, linegap, typedByte, typedHoldTimeout. -/
def Obligations.PortBytes : Prop :=
  (∀ (b : Byte) (p : Port), fifoBytes p.rx ≤ 1024 → fifoBytes (fifoByte b p).1.rx ≤ 1024) ∧
  ∀ (ep : Ep) (s : State), ep ≠ .mail → s.serves ep = true →
    (s.generated ep = true →
      (∀ b, (fifoByte b (s.port ep)).2 = false → Becomes (.rxByte ep b) s (s.setPort ep (fifoByte b (s.port ep)).1)) ∧
      (∀ b, (fifoByte b (s.port ep)).2 = true →
        Becomes (.rxByte ep b) s ((s.setPort ep (fifoByte b (s.port ep)).1).setFlag (aPstat ep) 1 true)) ∧
      (openLine (s.port ep).rx ≠ [] → Becomes (.linegap ep) s
        ((s.setPort ep { s.port ep with rx := closedLines (s.port ep).rx, dropping := false }).setFlag (aPstat ep) 2 true))) ∧
    (s.generated ep = false → Becomes (.linegap ep) s s ∧
      (∀ b, 0x20 ≤ b → b ≤ 0x7E → (s.port ep).typed.length < 255 → Becomes (.typedByte ep b) s
        (State.send ep (.echo [if masked (s.port ep).typed then 0x2A else b])
          (s.setPort ep { s.port ep with crSeen := false, typed := (s.port ep).typed ++ [b] }))) ∧
      (∀ b, ((0x20 ≤ b ∧ b ≤ 0x7E ∧ 255 ≤ (s.port ep).typed.length) ∨ ((b = 8 ∨ b = 0x7F) ∧ (s.port ep).typed = [])) →
        Becomes (.typedByte ep b) s (State.send ep (.echo [7]) (s.setPort ep { s.port ep with crSeen := false }))) ∧
      (∀ b, b = 8 ∨ b = 0x7F → (s.port ep).typed ≠ [] → Becomes (.typedByte ep b) s
        (State.send ep (.echo [8, 0x20, 8]) (s.setPort ep { s.port ep with crSeen := false, typed := (s.port ep).typed.dropLast }))) ∧
      Becomes (.typedByte ep 0x15) s (State.send ep .prompt (State.send ep (.echo [0x5E, 0x55, 13, 10])
        (s.setPort ep { s.port ep with crSeen := false, typed := [] }))) ∧
      Becomes (.typedByte ep 13) s (typedEol ep (s.setPort ep { s.port ep with crSeen := true })) ∧
      ((s.port ep).crSeen = false → Becomes (.typedByte ep 10) s (typedEol ep (s.setPort ep { s.port ep with crSeen := false }))) ∧
      ((s.port ep).crSeen = true → Becomes (.typedByte ep 10) s (s.setPort ep { s.port ep with crSeen := false })) ∧
      ((s.port ep).typed ≠ [] → Becomes (.typedHoldTimeout ep) s
        (State.send ep (.echo (echoLine (s.port ep).typed)) (State.send ep .prompt (sendEvents ep (State.send ep (.echo crlf) s))))))

/-- Lines for other nodes (R123, R125, R126, R127): a remote line that passes is handed to MAIL with a pending tag entry and is
outstanding; its response, or NOREPLY once MAILTO has passed, completes it at its port. A broadcast line acts here and leaves by
every controller that takes MAIL; one with a verb that is not broadcast is answered NOBCAST. Completion: Machine.exec answers the
next state that holds its own effect, for remoteLineForward, remoteResponseArrival, noreply, broadcastLine. -/
def Obligations.RemoteLines : Prop :=
  (∀ (ln : Line) (dst : Node) (text : List Byte) (c : Nat) (s : State), Inv s → ln.ep ≠ .mail → Passes ln { locked := false } s →
    let a := accepted ln { locked := false } s
    a.remoteErr ln dst text = none → a.route dst = some c →
    ∃ t, Machine.exec (.remoteLineForward ln dst text) s = .next t ∧ (t.port ln.ep).remote.length = (s.port ln.ep).remote.length + 1 ∧
      (∀ g, ln.tag = some g → ∃ x ∈ (t.port ln.ep).tags, x.tag = g ∧ x.resp = none) ∧
      (∀ x, x ≠ c → t.rg x = s.rg x) ∧ Stays none noReg (forwardLine ln dst text a) t) ∧
  (∀ (ep : Ep) (x : Outst) (text : List Byte) (s : State), s.running = true → s.asleep = false →
    (s.port ep).remote.find? (fun y => decide (y.id = x.id)) = some x →
    Becomes (.remoteResponseArrival ep x.id text) s (remoteResponse ep x x.dst text false s) ∧
    Becomes (.noreply ep x.id) s (remoteResponse ep x x.dst (textBytes "!E NOREPLY") false
      (s.setPort ep { s.port ep with tags := (s.port ep).tags.filter fun t => !(decide (x.tag = some t.tag) && t.resp.isNone) }))) ∧
  (∀ (ln : Line) (v : BVerb) (text : List Byte) (s : State), Inv s → Passes ln (castForm v) s →
    let a := accepted ln (castForm v) s
    ((∀ p ∈ castChecks v a, p.2 = false) → Does (.broadcastLine ln v text) ln .ok s (castOut ln text (castHere v a))) ∧
    (∀ l p, v = .other l p → Does (.broadcastLine ln v text) ln (.err .nobcast) s a) ∧
    (∀ gs, v = .sync gs → (∀ g ∈ gs, g < s.member.groups) → ∀ p ∈ castChecks v a, p.2 = false))

/-- rd and wr (R137, R138): a read that passes its checks answers the words of its addresses in ascending order, with what the reads
do beside it; a write that passes acts as its register says and answers ok; MODE and BAUD of a port change after the response.
Completion: Machine.exec answers the next state that holds its own effect, for rd, wr. -/
def Obligations.ReadsAndWrites : Prop :=
  (∀ (ln : Line) (addr count : Nat) (s : State), Inv s → s.serves ln.ep = true → s.waiting ln.ep = false → suffixErr ln (rdCore addr count) s = none →
    findTag ln s = none →
    let a := accepted ln { locked := false, core := rdCore addr count } s
    let r := readRegs ln.ep (rdAddrs addr count) a
    rdErr ln addr count a = none →
      Does (.rd ln addr count) ln (.vals (r.1.map fun v => { val := .hex v })) s (readMem (rdAddrs addr count) r.1 r.2)) ∧
  (∀ (ln : Line) (addr value : Nat) (s : State), Inv s →
    let sec := decide (0x80000000 ≤ addr) && decide (addr < 0x80400000) && (taken ln s).pwSecret (addr - 0x80000000)
    let f : Form := { replay := !(taken ln s).editAt addr, secret := sec }
    Passes ln f s → (∀ p ∈ wrChecks addr value (accepted ln f s), p.2 = false) → (∀ b, s.pfWho b = none) →
    (addr ≠ 0x20000 → addr ≠ 0x20010 →
      Does (.wr ln addr value) ln .ok s (wrEffect ln.ep addr (word value) (accepted ln f s))) ∧
    (addr = 0x20000 ∨ addr = 0x20010 → ∃ t, Machine.exec (.wr ln addr value) s = .next t ∧ Answered ln .ok s t ∧
      t.reg addr = cfgWord (word value) ∧ Stays (some ln.ep) (· = addr) s t))

/-- The split pairs (R139, R140): a read of the low half captures the high half for its entry point; the read of the high half takes
the captured one, once, and without one is torn, with the flag of Table 19.2. A write of the low half of a count is held until the
write of the high half, which loads the whole; a write of the high half with no low half held loads it above the low half that
stands. Completion: Machine.exec answers the next state that holds its own effect, for splitLowRead, splitHighRead, splitLowWrite,
splitHighWrite. -/
def Obligations.SplitPairs : Prop :=
  ∀ (ln : Line) (p : Pair) (s : State), Inv s →
    (s.serves ln.ep = true → s.waiting ln.ep = false → findTag ln s = none →
      (suffixErr ln (rdCore (pairLo p) 1) s = none →
        let a := accepted ln { locked := false, core := rdCore (pairLo p) 1 } s
        rdErr ln (pairLo p) 1 a = none → a.pairAt (pairLo p) = some (p, false) →
        Does (.splitLowRead ln p) ln (.vals [{ val := .hex (a.view (pairLo p)) }]) s
          (a.setPort ln.ep { a.port ln.ep with rdShadow := some { pair := p, high := a.view (pairLo p + 4), used := false } })) ∧
      (suffixErr ln (rdCore (pairLo p + 4) 1) s = none →
        let a := accepted ln { locked := false, core := rdCore (pairLo p + 4) 1 } s
        rdErr ln (pairLo p + 4) 1 a = none → a.pairAt (pairLo p + 4) = some (p, true) →
        (∀ h, (s.port ln.ep).rdShadow = some { pair := p, high := h, used := false } →
          Does (.splitHighRead ln p) ln (.vals [{ val := .hex h }]) s
            (a.setPort ln.ep { a.port ln.ep with rdShadow := some { pair := p, high := h, used := true } })) ∧
        ((s.port ln.ep).rdShadow = none →
          Does (.splitHighRead ln p) ln (.vals [{ val := .hex (a.view (pairLo p + 4)) }]) s (tornFlag p a)))) ∧
    (∀ n v, Passes ln {} s → p = .count n → n < 128 →
      let a := accepted ln {} s
      ((∀ q ∈ wrChecks (pairLo p) v.toNat a, q.2 = false) → a.access (pairLo p) ≠ some .seq → a.access (pairLo p) ≠ some .trail →
        a.pairAt (pairLo p) = some (p, false) →
        Does (.splitLowWrite ln p v) ln .ok s (a.setPort ln.ep { a.port ln.ep with wrShadow := some (p, v) })) ∧
      (∀ l, (∀ q ∈ wrChecks (pairLo p + 4) v.toNat a, q.2 = false) → a.access (pairLo p + 4) ≠ some .seq →
        a.access (pairLo p + 4) ≠ some .trail → a.pairAt (pairLo p + 4) = some (p, true) →
        (s.port ln.ep).wrShadow = some (p, l) →
        Does (.splitHighWrite ln p v) ln .ok s (setCount n (v ++ l) (a.setPort ln.ep { a.port ln.ep with wrShadow := none }))) ∧
      ((∀ q ∈ wrChecks (pairLo p + 4) v.toNat a, q.2 = false) → a.access (pairLo p + 4) ≠ some .seq →
        a.access (pairLo p + 4) ≠ some .trail → a.pairAt (pairLo p + 4) = some (p, true) → (s.port ln.ep).wrShadow = none →
        Does (.splitHighWrite ln p v) ln .ok s
          (setCount n (v ++ s.reg (pairLo p)) (a.setPort ln.ep { a.port ln.ep with wrShadow := none }))))

/-- A line that fails a byte, suffix or syntax check, or names no verb, is answered with its code and executes nothing (R98, R100,
R107, R116, R141): no register changes but the status of the port and the counters of its check-value unit, and only VERB makes a
tag entry. The same of a line that a check of every form refuses, of a duplicate, which is answered again, and of another line with
the tag, which is answered TAGREUSE (R121), here for arm. A completed line spells a refusal by its first fault, of a byte, of its
length or of a loss (R96 to R98), and a line of separators only spells nothing. Completion: Machine.exec answers the next state that
holds its own effect, for lineRefused. -/
def Obligations.RefusedLines : Prop :=
  (∀ (s : State) (e : Ep) (l r : List RxSym), splitLine (s.port e).rx = some (l, r) →
    let bad (b : Byte) : Prop := b ≠ 9 ∧ (b < 0x20 ∨ 0x7E < b)
    let code (x : LineErr) : Prop := ∃ ln : Line, ln.ep = e ∧ s.spelt e = some (.lineRefused ln x)
    ((∃ b ∈ symBytes l, bad b) → code .char) ∧
    ((∀ b ∈ symBytes l, ¬ bad b) → 255 < (symBytes l).length → code .toolong) ∧
    ((∀ b ∈ symBytes l, ¬ bad b) → (symBytes l).length ≤ 255 → RxSym.lost ∈ l → code .overrun) ∧
    ((∀ b ∈ symBytes l, isSep b = true) → (symBytes l).length ≤ 255 → RxSym.lost ∉ l → s.spelt e = none)) ∧
  ∀ (ln : Line) (s : State), Inv s → s.serves ln.ep = true → s.waiting ln.ep = false →
    (∀ e, e ≠ .verb → ∃ t, Machine.exec (.lineRefused ln e) s = .next t ∧
      (isSilent ln = false → ∃ l c, (t.port ln.ep).tx =
        l ++ TxItem.resp ln.addr (.loc (.err (lineErrCode e))) false c :: (s.port ln.ep).tx) ∧
      (t.port ln.ep).tags = (s.port ln.ep).tags ∧
      Stays (some ln.ep) (fun k => ln.ep ≠ .mail ∧ (k = aPstat ln.ep ∨ k = 0x40044 ∨ k = 0x40048 ∨ k = 0x40054 ∨ k = 0x40058)) s t) ∧
    (suffixErr ln true s = none → findTag ln s = none → ∃ t, Machine.exec (.lineRefused ln .verb) s = .next t ∧
      Answered ln (.err .verb) s t ∧ Stays (some ln.ep) noReg s t) ∧
    (suffixErr ln false s = none →
      (∀ c, findTag ln s = none → pick (baseChecks ln { locked := false } s) = some c → ∃ t, Machine.exec (.arm ln) s = .next t ∧
        Answered ln (.err c) s t ∧ Stays (some ln.ep) noReg s t) ∧
      (∀ x r, findTag ln s = some x → x.fp = ln.fp → x.resp = some r → ∃ t, Machine.exec (.arm ln) s = .next t ∧
        Stays (some ln.ep) noReg s t ∧ (t.port ln.ep).tags = (s.port ln.ep).tags ∧ (isSilent ln = false → ∃ l c, (t.port ln.ep).tx =
          l ++ TxItem.resp ln.addr r true c :: (s.port ln.ep).tx)) ∧
      (∀ x, findTag ln s = some x → x.fp ≠ ln.fp → ∃ t, Machine.exec (.arm ln) s = .next t ∧
        Stays (some ln.ep) noReg s t ∧ (t.port ln.ep).tags = (s.port ln.ep).tags ∧ (isSilent ln = false → ∃ l c, (t.port ln.ep).tx =
          l ++ TxItem.resp ln.addr (.loc (.err .tagreuse)) false c :: (s.port ln.ep).tx)))

/-- A cause of device or group scope (R302, R303): holding it sets its held and present bits and queues SAFE_ENTER, every output
channel of the scope is then in safe state, and no register but that of the cause and, per channel of the scope, the safe state,
STAT and the channel's causes changes. -/
def Obligations.CausesHeld : Prop :=
  ∀ (b : Nat) (s : State), Memory.wf s = true → s.fenced .safe = false → b < 16 →
    (s.flag 0x30004 (16 + b) = false →
      let t := holdDev b s
      t.flag 0x30004 b = true ∧ t.flag 0x30004 (16 + b) = true ∧ { cls := .safeEnter, obj := .dev, det := [fcause b] } ∈ t.evNew ∧
      (∀ n, n < s.member.channels → isOut (s.mode n) = true → t.chst n ≠ 0) ∧
      (∀ k, k ≠ 0x30004 → (∀ n, n < s.member.channels → k ≠ aChst n ∧ k ≠ aStat n ∧ k ≠ aSafeCh n) → t.reg k = s.reg k)) ∧
    (∀ g, g < s.member.groups → s.flag (aSafeGrp g) (16 + b) = false →
      let t := holdGrp b g s
      t.flag (aSafeGrp g) b = true ∧ t.flag (aSafeGrp g) (16 + b) = true ∧
      { cls := .safeEnter, obj := .grp g, det := [fcause b] } ∈ t.evNew ∧
      (∀ n, n / 16 = g → isOut (s.mode n) = true → t.chst n ≠ 0) ∧
      (∀ k, k ≠ aSafeGrp g → (∀ n, n / 16 = g → k ≠ aChst n ∧ k ≠ aStat n ∧ k ≠ aSafeCh n) → t.reg k = s.reg k))

/-- The barrier link (R147, R148, R149, R150, R151): items whose check fails are discarded and counted, at the system end in LINKERR
and at the group end until its heartbeat carries the count; a silent link makes the latch act, which captures what a channel of kind
HOLD drives; a lost link clears its status, holds LINK and is retrained; a training that succeeds counts in RETRAINS and begins the
bring-up. Completion: Machine.exec answers the next state that holds its own effect, for heartbeatSend, linkItemReceive, linkLost,
linkSilent. -/
def Obligations.BarrierLink : Prop :=
  ∀ (g : Nat) (s : State),
    (s.linkLive g = true →
      (Becomes (.heartbeatSend g false) s (s.setGr g { s.gr g with hbDisc := (s.gr g).hbDisc + (s.gr g).disc, disc := 0 }) ∧
        Becomes (.heartbeatSend g true) s s) ∧
      Becomes (.linkItemReceive (.downBad g)) s (s.setGr g { s.gr g with disc := (s.gr g).disc + 1 }) ∧
      (s.replaying = false →
        Becomes (.linkItemReceive (.bad g)) s (s.setFld (grA g 4) 0 16 (min 0xFFFF (s.fld (grA g 4) 0 16 + 1))) ∧
        Becomes (.linkLost g) s (linkLost g s))) ∧
    (s.itemFrom g = true → ∃ t, Machine.exec (.linkItemReceive (.heartbeat g false)) s = .next t ∧
      t.freeIdx = s.freeIdx + 2 ∧ (Memory.wf s = true → (t.gr g).hbDisc = 0 ∧
        t.reg (grA g 4) = setBits (s.reg (grA g 4)) 0 16 (min 0xFFFF (s.fld (grA g 4) 0 16 + (s.gr g).hbDisc)))) ∧
    (g < s.member.groups → (s.gr g).vf = true →
      ((s.gr g).acts = true → Becomes (.linkSilent g) s s) ∧
      ((s.gr g).acts = false → Becomes (.linkSilent g) s (latchAlone g s) ∧ (Memory.wf s = true →
        let t := latchAlone g s
        t.flag (aGstat g) 2 = true ∧ (t.gr g).acts = true ∧ t.flag (aGstat g) 1 = s.flag (aGstat g) 1 ∧
        (∀ n, n / 16 = g → t.chst n = s.chst n) ∧
        ∀ n, n / 16 = g → bits (s.ch n).latch.safe 0 2 = 3 → isOut (s.feMode n) = true → s.chst n ≠ 2 →
          (t.ch n).latch.held = some (s.drive n).2)))

/-- The supply and the bring-up of a group (R15, R17, R150, R58, R59, R151, R154): a failed supply reports the group unpowered, and
its terminals are undriven whether the system end sees it or not; a group that answers again holds GROUP_POWERUP in place of
UNPOWERED and is brought up; a bring-up that ends powers its link and applies its modes; each training attempt of a lost link ends
as R151 and R310 say, the third failure within 10 s with a fenced link; a hold that has run its time drives OFF. Completion:
Machine.exec answers the next state that holds its own effect, for groupPowerFail, groupPowered, groupBringupComplete,
trainingSuccess, retrainAttempt, holdExpire. -/
def Obligations.GroupSupply : Prop :=
  (∀ (g : Nat) (s : State), g < s.member.groups →
    (s.linkLive g = true → Becomes (.groupPowerFail g) s (groupUnpowered g (s.recordFree 0x01 g 0 2))) ∧
    (s.linkLive g = false → (s.gr g).vf = true → Becomes (.groupPowerFail g) s (supplyLost g s)) ∧
    (Memory.wf s = true → ∀ n, n / 16 = g → (supplyLost g s).drive n = (4, 0)) ∧
    (∀ kept, s.unpowered g = true → s.dead = false → s.sup.crawl = false → s.gFenced g .link = false →
      Becomes (.groupPowered ⟨g, kept⟩) s
        (let t := dropCause (aSafeGrp g) 7 (grpChans g) (pulseCause (aSafeGrp g) 8 (.grp g) (grpChans g)
          (((supplyBack kept g (s.recordFree 0x01 g 0 2)).setFlag (aGstat g) 0 true).emit .groupPowered (.grp g) []))
         t.setGr g { t.gr g with bringing := true, powerup := true, unanswered := 0 })) ∧
    (∀ kept, (s.unpowered g = false ∨ s.dead = true ∨ s.sup.crawl = true ∨ s.gFenced g .link = true) → (s.gr g).vf = false →
      Becomes (.groupPowered ⟨g, kept⟩) s (supplyBack kept g s)) ∧
    (∀ r, s.dead = false → s.sup.crawl = false → (s.gr g).bringing = true →
      Becomes (.groupBringupComplete g r) s (bringUp (if (s.gr g).powerup then 1 else 2) g r s)) ∧
    (s.retraining g = true → Becomes (.trainingSuccess g) s (trainOk g s) ∧ ∀ r, Becomes (.retrainAttempt g r) s (attempt g r s))) ∧
  (∀ (g : Nat) (s : State), Memory.wf s = true → g < 8 → s.retraining g = true →
    (trainOk g s).fld (aGstat g) 8 8 = min 0xFF (s.fld (aGstat g) 8 8 + 1) ∧ ((trainOk g s).gr g).bringing = true ∧
    ((trainOk g s).gr g).lost = false ∧ { cls := .linkUp, obj := .grp g } ∈ (trainOk g s).evNew ∧
    (2 ≤ ((s.gr g).fails.filter fun x => decide (s.clk.raw < x + 4000000000)).length →
      (attempt g .failed s).gFenced g .link = true)) ∧
  (∀ (n : Nat) (s : State), n < s.member.channels →
    ((s.gr (n / 16)).acts = false → s.holdRuns n = true → Becomes (.holdExpire n) s (expireHold n s)) ∧
    ((s.gr (n / 16)).acts = true → (s.ch n).latch.held ≠ none → Becomes (.holdExpire n) s
      (withGates [n] (fun t => t.setCh n { t.ch n with latch := { (t.ch n).latch with held := none } }) s)) ∧
    (Memory.wf s = true → (expireHold n s).chst n = 2 ∧ { cls := .safeHoldexp, obj := .ch n } ∈ (expireHold n s).evNew))

/-- grp get, grp retrain, arm and disarm (R164, R160, R161): grp get reports the group; grp retrain makes one training attempt of a
lost link; arm takes STARTUP and DISARMED away and reports the outputs that moved to RUN; disarm holds DISARMED. Arming an armed
part and disarming a disarmed one change nothing. Completion: Machine.exec answers the next state that holds its own effect, for
arm, disarm, grpGet, grpRetrain. -/
def Obligations.GroupAndArmLines : Prop :=
  ∀ (ln : Line) (s : State), Inv s →
    (Passes ln { locked := false } s →
      let a := accepted ln { locked := false } s
      (s.sup.armed = true → Does (.arm ln) ln .ok s a) ∧
      (s.sup.armed = false → Does (.arm ln) ln .ok s
        (let t := dropCause 0x30004 1 a.chans (dropCause 0x30004 0 a.chans { a with sup := { a.sup with armed := true } })
         t.emit .safeRelease .dev [fn (a.safeCount a.chans - t.safeCount t.chans)])) ∧
      (s.sup.armed = false → Does (.disarm ln) ln .ok s a) ∧
      (s.sup.armed = true → Does (.disarm ln) ln .ok s (holdDev 1 { a with sup := { a.sup with armed := false } })) ∧
      (∀ g, g < s.member.groups → Does (.grpGet ln g) ln (.vals
        [kb "power" (s.powered g),
         kw "link" (if s.gFenced g .link then "fenced" else if s.linkUp g then "up" else "lost"),
         kw "latch" (if s.flag (aGstat g) 2 then "acting" else "idle"),
         (match s.temp g with | some v => kx "temp" v 1 "degC" | none => kw "temp" "-"),
         (match s.vf g with | some v => kx "vf" (roundDiv v 10) 2 "V" | none => kw "vf" "-"),
         { key := "doh", val := .n (s.dohSum g), unit := "mA" }, kn "retrains" (s.fld (aGstat g) 8 8)]) s a)) ∧
    (Passes ln {} s → ∀ g r, g < s.member.groups → s.gFenced g .link = false → s.unpowered g = false →
      (s.retraining g = true → Does (.grpRetrain ln g r) ln .ok s (attempt g r (accepted ln {} s))) ∧
      (s.retraining g = false → Does (.grpRetrain ln g r) ln .ok s (accepted ln {} s)))

/-- The channel commands (R162, R165, R152, R247): on a disarmed part ch mode stores the mode and lets what follows from it follow,
ch safe stores the kind with its value or time, ch ets and ch source write their bit; ch set writes OUT of a channel bound to the
host; ch get reads. MODE_ACTIVE makes the stored mode active at the group. Completion: Machine.exec answers the next state that
holds its own effect, for chMode, chSafe, chSource, chEts, chSet, chGet, modeActive. -/
def Obligations.ChannelLines : Prop :=
  (∀ (ln : Line) (ch : ChRef) (s : State), Inv s → ch.g < s.member.groups → ch.c < 16 →
    (Passes ln {} s → s.sup.armed = false →
      let a := accepted ln {} s
      (∀ m w4, (w4 = true → ch.c % 2 = 0 ∧ m = .air) → s.flag (chA ch.n 0) 5 = false →
        (m = .doh → s.dohSumWith ch.g ch.n (10 * s.fld (chA ch.n 0x140) 0 8) ≤ 12000) →
        Does (.chMode ln ch m w4) ln .ok s (storeMode ch.n m.code w4 a)) ∧
      (isOut (s.mode ch.n) = true →
        (kindOk (s.mode ch.n) 0 (s.flag (chA ch.n 0) 7) = true →
          Does (.chSafe ln ch .off) ln .ok s (withSafe ch.n (fun t => t.setFld (chA ch.n 4) 0 2 0) a)) ∧
        (kindOk (s.mode ch.n) 1 (s.flag (chA ch.n 0) 7) = true →
          Does (.chSafe ln ch .on) ln .ok s (withSafe ch.n (fun t => t.setFld (chA ch.n 4) 0 2 1) a)) ∧
        (∀ q, kindOk (s.mode ch.n) 2 (s.flag (chA ch.n 0) 7) = true → qBad q (aoUnit (s.mode ch.n)) = false →
          0 ≤ aoSteps (s.mode ch.n) q → aoSteps (s.mode ch.n) q ≤ aoMax (s.mode ch.n) →
          Does (.chSafe ln ch (.value q)) ln .ok s (withSafe ch.n (fun t =>
            let u := t.setFld (chA ch.n 4) 0 2 2
            u.setFld (chA ch.n 4) 16 16 (aoSteps (u.mode ch.n) q).toNat) a)) ∧
        (∀ q, kindOk (s.mode ch.n) 3 (s.flag (chA ch.n 0) 7) = true → qBad q .s = false →
          1 ≤ qSteps q .s 1 100000000 → qSteps q .s 1 100000000 ≤ 65535 →
          Does (.chSafe ln ch (.hold q)) ln .ok s (withSafe ch.n (fun t =>
            (t.setFld (chA ch.n 4) 0 2 3).setFld (chA ch.n 8) 0 16 (qSteps q .s 1 100000000).toNat) a)) ∧
        (∀ ring, ∃ t, Machine.exec (.chSource ln ch ring) s = .next t ∧ Answered ln .ok s t ∧
          t.reg (chA ch.n 0) = setBit (s.reg (chA ch.n 0)) 6 ring ∧ Stays (some ln.ep) (· = chA ch.n 0) s t)) ∧
      (∀ on, Does (.chEts ln ch on) ln .ok s (checkKind ch.n (a.setFlag (chA ch.n 0) 7 on)))) ∧
    (Passes ln { locked := false } s →
      let a := accepted ln { locked := false } s
      (isOut (s.mode ch.n) = true → s.flag (chA ch.n 0) 6 = false →
        (isAo (s.mode ch.n) = false → Does (.chSet ln ch .on) ln .ok s (setOut ch.n 1 a) ∧
          Does (.chSet ln ch .off) ln .ok s (setOut ch.n 0 a)) ∧
        (∀ q, isAo (s.mode ch.n) = true → qBad q (aoUnit (s.mode ch.n)) = false → 0 ≤ aoSteps (s.mode ch.n) q →
          aoSteps (s.mode ch.n) q ≤ aoMax (s.mode ch.n) →
          Does (.chSet ln ch (.qty q)) ln .ok s (setOut ch.n (aoSteps (s.mode ch.n) q).toNat a)) ∧
        (∀ q, isAo (s.mode ch.n) = false → q.unit = none → q.num % 10 ^ q.dec = 0 → 0 ≤ roundDiv q.num (10 ^ q.dec) →
          roundDiv q.num (10 ^ q.dec) ≤ 1 →
          Does (.chSet ln ch (.qty q)) ln .ok s (setOut ch.n (roundDiv q.num (10 ^ q.dec)).toNat a))) ∧
      Does (.chGet ln ch) ln (.vals (a.valueFlds ch.n ++ [a.statusFld ch.n])) s a)) ∧
  (∀ (n : Nat) (raw : Bool) (s : State), n < s.member.channels → s.groupUp (n / 16) = true → (s.ch n).isApplied = false →
    s.dead = false → s.sup.crawl = false → Becomes (.modeActive n raw) s (modeOn n raw s))

/-- The lines of digital inputs (R169, R170, R173, R175, R177, R182, R183, R186, R190): the di lines and dic edge write their field
of DI.CFG or DI.DEBOUNCE, and what follows a write of DI.CFG follows; dic count reads one snapshot of the live count with the time
of its last edge; count set and count clear write the count, which triggers a snapshot; persist writes PEN, the interval and the
step, and setting PEN before the first snapshot starts both anew. Completion: Machine.exec answers the next state that holds its own
effect, for diThrType, diInvert, diWirebreak, dicEdge, diThrProg, diDebounce, dicCount, dicCountSet, dicCountClear, dicPersist. -/
def Obligations.DigitalLines : Prop :=
  (∀ (ln : Line) (ch : ChRef) (s : State), Inv s → Passes ln {} s → ch.g < s.member.groups → ch.c < 16 → isDi (s.mode ch.n) = true →
    let a := accepted ln {} s
    let k := chA ch.n 0x40
    (∀ t3, Does (.diThrType ln ch t3) ln .ok s (writeDiCfg ch.n (setBits (s.reg k) 0 2 t3.toNat) a)) ∧
    (∀ on, Does (.diInvert ln ch on) ln .ok s (writeDiCfg ch.n (setBit (s.reg k) 2 on) a)) ∧
    (∀ on, Does (.diWirebreak ln ch on) ln .ok s (writeDiCfg ch.n (setBit (s.reg k) 3 on) a)) ∧
    (∀ e : Pol, s.mode ch.n = 2 → Does (.dicEdge ln ch e) ln .ok s
      (writeDiCfg ch.n (setBits (s.reg k) 4 2 (match e with | .rising => 0 | .falling => 1 | .both => 2)) a)) ∧
    (∀ thr, qBad thr .V = false → 20 ≤ qSteps thr .V 1 100 → qSteps thr .V 1 100 ≤ 280 →
      Does (.diThrProg ln ch thr none) ln .ok s
        (writeDiCfg ch.n (setBits (setBits (s.reg k) 0 2 2) 16 9 (qSteps thr .V 1 100).toNat) a) ∧
      ∀ h, qBad h .V = false → 2 ≤ qSteps h .V 1 100 → qSteps h .V 1 100 ≤ 20 → Does (.diThrProg ln ch thr (some h)) ln .ok s
        (writeDiCfg ch.n (setBits (setBits (setBits (s.reg k) 0 2 2) 16 9 (qSteps thr .V 1 100).toNat) 25 5
          (qSteps h .V 1 100).toNat) a)) ∧
    (∀ q, qBad q .us = false → 0 ≤ qSteps q .us 1 1000 → qSteps q .us 1 1000 ≤ 65535 →
      ∃ t, Machine.exec (.diDebounce ln ch q) s = .next t ∧ Answered ln .ok s t ∧
        t.reg (chA ch.n 0x44) = word (20 * (qSteps q .us 1 1000).toNat) ∧ Stays (some ln.ep) (· = chA ch.n 0x44) s t)) ∧
  (∀ (ln : Line) (ch : ChRef) (s : State), Inv s → Passes ln {} s → ch.g < s.member.groups → ch.c < 16 → s.mode ch.n = 2 →
    let a := accepted ln {} s
    Does (.dicCount ln ch) ln (.vals [{ val := .n (s.liveCount ch.n).toNat },
      if (s.ch ch.n).edgeSeen then kn "t" (s.pair (chA ch.n 0x54)).toNat else kw "t" "-"]) s a ∧
    (∀ v, v < 2 ^ 64 → Does (.dicCountSet ln ch v) ln .ok s (persist ch.n (a.setPair (chA ch.n 0x48) (BitVec.ofNat 64 v)))) ∧
    Does (.dicCountClear ln ch) ln .ok s (persist ch.n (a.setPair (chA ch.n 0x48) 0)) ∧
    Does (.dicPersist ln ch none) ln .ok s (a.setReg (chA ch.n 0x5C) (s.reg (chA ch.n 0x5C) &&& 0xFFFF)) ∧
    (∀ q, qBad q .s = false → 1 ≤ qSteps q .s 1 1000000000 → qSteps q .s 1 1000000000 ≤ 65535 →
      let u := a.setReg (chA ch.n 0x5C) (setBit (word (qSteps q .s 1 1000000000).toNat) 31 true)
      let t := if s.flag (chA ch.n 0x5C) 31 || (s.ch ch.n).snapped then u else restartSnap ch.n u
      Does (.dicPersist ln ch (some (q, none))) ln .ok s t ∧
      ∀ m, m < 2 ^ 32 → Does (.dicPersist ln ch (some (q, some m))) ln .ok s (t.setReg (chA ch.n 0x60) (word m))))

/-- What the configuration registers store (R152, R169, R175, R177, R253, R254, R259, Tables 6.4, 9.5 and 9.7): reserved types are
stored as the first, thresholds and times are held within their limits, a substitution sets CFGERR, clearing WBEN clears WIREBRK,
the filter takes the level that the comparator has under the new thresholds, after INVERT, as the slot's value; no other register
changes but the status. -/
def Obligations.StoredConfigurations : Prop :=
  (∀ (n : Nat) (v : Word) (s : State), Memory.wf s = true →
    let t := writeDiCfg n v s
    let x := t.reg (chA n 0x40)
    bits x 0 2 ≠ 3 ∧ bits x 4 2 ≠ 3 ∧ bits x 0 2 = (if bits v 0 2 = 3 then 0 else bits v 0 2) ∧ bit x 2 = bit v 2 ∧ bit x 3 = bit v 3 ∧
    (bits x 0 2 = 2 → bits x 16 9 = clamp 20 280 (bits v 16 9) ∧ bits x 25 5 = clamp 2 20 (bits v 25 5)) ∧
    (bits v 0 2 = 3 → t.flag (aStat n) 2 = true) ∧ (bit v 3 = false → t.flag (aStat n) 16 = false) ∧
    t.flag (chA n 0x50) 0 = ((t.ch n).raw != bit v 2) ∧ (t.ch n).raw = (s.setReg (chA n 0x40) x).compLevel n ∧
    (t.ch n).run = none ∧ t.fld (chA n 0x84) 0 17 = 0 ∧ (∀ m, m ≠ n → t.ch m = s.ch m) ∧
    (∀ k, k ≠ chA n 0x40 → k ≠ aStat n → k ≠ chA n 0x50 → k ≠ chA n 0x84 → t.reg k = s.reg k)) ∧
  (∀ (n : Nat) (s : State), Memory.wf s = true → n < 128 →
    (∀ v : Word, let t := writeAiCfg n v s
      let x := t.reg (chA n 0x240)
      bits x 3 2 ≠ 3 ∧ bits x 0 3 = bits v 0 3 ∧ bits x 16 16 = bits v 16 16 ∧ bits x 5 11 = 0 ∧
      (bits v 3 2 ≠ 3 → bits x 3 2 = bits v 3 2) ∧ (bits v 3 2 = 3 → bits x 3 2 = 0 ∧ t.flag (aStat n) 2 = true) ∧
      ∀ k, k ≠ chA n 0x240 → k ≠ aStat n → t.reg k = s.reg k) ∧
    (∀ v : Word, let t := writeAoRbchk n v s
      let x := t.reg (chA n 0x344)
      bits x 0 6 = clamp 6 50 (bits v 0 6) ∧ bits x 16 14 = clamp 10 10000 (bits v 16 14) ∧
      (bits x 0 6 ≠ bits v 0 6 ∨ bits x 16 14 ≠ bits v 16 14 → t.flag (aStat n) 2 = true) ∧
      ∀ k, k ≠ chA n 0x344 → k ≠ aStat n → t.reg k = s.reg k) ∧
    (∀ v : Word, let x := (writeAoDev n v s).reg (chA n 0x340)
      bits x 0 7 = clamp 2 100 (bits v 0 7) ∧ bit x 8 = bit v 8 ∧ bits x 16 14 = clamp 10 10000 (bits v 16 14)) ∧
    (∀ v : Nat, (writeAiDiag n v s).reg (chA n 0x244) = word (min 10000 v) ∧
      (10000 < v → (writeAiDiag n v s).flag (aStat n) 2 = true)))

/-- Counting (R178, R179, R182, R172): an item carries the group's 16-bit count; it adds the difference of that count from its base,
modulo 2^16, to the live count, modulo 2^64, and the count becomes the base; after a loss it only sets the base. The time of the
last counted edge comes with it. A confirmed edge sets STATE, adds one to EDGES modulo 2^16, and adds one to the group's count
exactly where EDGE selects it. -/
def Obligations.CountArithmetic : Prop :=
  ∀ (n : Nat) (s : State), Memory.wf s = true →
    ((takeCount n s).liveCount n =
        s.liveCount n + (if (s.ch n).baseOk then ((s.ch n).cnt16 - (s.ch n).base).setWidth 64 else 0) ∧
      ((takeCount n s).ch n).base = (s.ch n).cnt16 ∧ ((takeCount n s).ch n).baseOk = true ∧
      ((takeCount n s).ch n).cnt16 = (s.ch n).cnt16 ∧
      (takeCount n s).pair (chA n 0x54) = (s.ch n).edgeTs.getD (s.pair (chA n 0x54)) ∧
      ∀ m, m ≠ n → (takeCount n s).ch m = s.ch m) ∧
    (∀ level ts, (confirmEdge n level ts s).flag (chA n 0x50) 0 = level ∧
      (confirmEdge n level ts s).fld (chA n 0x50) 16 16 = (s.fld (chA n 0x50) 16 16 + 1) % 2 ^ 16 ∧
      ((confirmEdge n level ts s).ch n).cnt16 = (s.ch n).cnt16 + (if s.mode n = 2 ∧ s.counts n level = true then 1 else 0) ∧
      ((confirmEdge n level ts s).ch n).edgeTs =
        (if s.mode n = 2 ∧ s.counts n level = true then some ts else (s.ch n).edgeTs) ∧
      ((confirmEdge n level ts s).ch n).run = none ∧
      ∀ k, k ≠ chA n 0x50 → k ≠ chA n 0x84 → k ≠ aStat n → (confirmEdge n level ts s).reg k = s.reg k)

/-- What a DI or DIC channel meets (R19, R172, R175, R179, R186, R203): a confirmed edge, with the instant at which its run began
and only while the raw level stands, a wire break and its end, an edge or count item, which carries the group's count and the
t_start of its last counted edge, and the end of the snapshot interval; each item crosses from the group and is recorded; each acts
on a channel whose group delivers. Completion: Machine.exec answers the next state that holds its own effect, for debounceConfirm,
wirebreak, wireok, countItemSend, dicCountItem, persistInterval. -/
def Obligations.DigitalEvents : Prop :=
  ∀ (n : Nat) (s : State),
    (s.diLive n = true →
      (∀ level ts, s.flag (chA n 0x50) 0 = !level →
        ((s.ch n).run = none ∨ ((s.ch n).raw != s.invert n) = level → Becomes (.debounceConfirm n level ts) s
          (confirmFire n level (confirmEdge n level ((s.ch n).run.getD ts) (s.item (n / 16))))) ∧
        ((s.ch n).run ≠ none → ((s.ch n).raw != s.invert n) = !level → Becomes (.debounceConfirm n level ts) s s)) ∧
      (s.flag (chA n 0x40) 3 = true →
        (s.flag (aStat n) 16 = false → Becomes (.wirebreak n) s
          ((((s.item (n / 16)).setFlag (aStat n) 16 true).setFlag (aStat n) 17 true).emit .wirebreak (.ch n) [])) ∧
        (s.flag (aStat n) 16 = true → Becomes (.wireok n) s
          (((s.item (n / 16)).setFlag (aStat n) 16 false).emit .wireok (.ch n) []))) ∧
      (s.mode n = 2 →
        Becomes (.countItemSend n) s (takeCount n (s.item (n / 16))) ∧
        Becomes (.dicCountItem n (s.ch n).cnt16 (s.ch n).edgeTs) s (takeCount n (s.item (n / 16))) ∧
        ∀ count edge, (count ≠ (s.ch n).cnt16 ∨ edge ≠ (s.ch n).edgeTs) → Becomes (.dicCountItem n count edge) s s)) ∧
    (n < s.member.channels → s.dead = false → s.fld (chA n 0x5C) 0 16 ≠ 0 → s.persists n = true → Becomes (.persistInterval n) s
      { s.setCh n { s.ch n with snapCount := s.liveCount n, snapAt := s.clk.raw, snapped := true } with
        pf := { s.pf with queue := queueSnap n (s.liveCount n) s.pf.queue } }) ∧
    (∀ g, s.itemFrom g = true → s.item g = s.recordFree 0x01 g 0 2)

/-- The skip lines (R193, R194, R196, R197, R201, R208, R211): on a disarmed part the source, the confirm time, the action, its note
and its release are written; enabling writes SKIP.ENABLE and disabling ends the reflex's holds, as skip release does; skip get
reads. Completion: Machine.exec answers the next state that holds its own effect, for skipReportRevoked, skipEnable, skipRelease,
skipNote, skipActStamp, skipActGsafe, skipSrc, skipConfirm, skipAct, skipActPulse, skipGet. -/
def Obligations.SkipLines : Prop :=
  ∀ (ln : Line) (k : Nat) (s : State), Inv s → k < s.member.reflexes →
    (Passes ln {} s →
      let a := accepted ln {} s
      (∀ on, Does (.skipReportRevoked ln on) ln .ok s (a.setFlag 0x60004 0 on)) ∧
      Does (.skipEnable ln k true) ln .ok s (a.setFlag 0x60008 k true) ∧
      Does (.skipEnable ln k false) ln .ok s (endHoldsOf k (a.setFlag 0x60008 k false)) ∧
      Does (.skipRelease ln k) ln .ok s (endHoldsOf k a) ∧
      (s.sup.armed = false →
        (∀ on, Does (.skipNote ln k on) ln .ok s (a.setFlag (skA k 4) 14 on)) ∧
        Does (.skipActStamp ln k) ln .ok s (a.setFld (skA k 4) 0 3 5) ∧
        (∀ g, g < s.member.groups → Does (.skipActGsafe ln k g) ln .ok s
          (a.setReg (skA k 4) (setBits (setBits (s.skAct k) 0 3 4) 4 7 (16 * g)))) ∧
        (∀ (ch : ChRef) (p : Pol), ch.g < s.member.groups → ch.c < 16 → isDi (s.mode ch.n) = true →
          Does (.skipSrc ln k ch p) ln .ok s ((a.setFld (skA k 0) 0 7 ch.n).setFld (skA k 0) 8 2
            (match p with | .rising => 0 | .falling => 1 | .both => 2))) ∧
        (∀ q, s.skSrc k < s.member.channels → isDi (s.mode (s.skSrc k)) = true → qBad q .us = false →
          (q.num = 0 → Does (.skipConfirm ln k q) ln .ok s (a.setFlag (skA k 0) 12 true)) ∧
          (q.num ≠ 0 → 1 ≤ qSteps q .us 1 100 → qSteps q .us 1 100 ≤ 655350 → Does (.skipConfirm ln k q) ln .ok s
            ((a.setFlag (skA k 0) 12 false).setReg (chA (s.skSrc k) 0x44) (word (2 * (qSteps q .us 1 100).toNat))))) ∧
        (∀ (ch : ChRef) (q : Qty), ch.g < s.member.groups → ch.c < 16 → (s.mode ch.n = 3 ∨ s.mode ch.n = 4) →
          (∀ (x : SAct) (r : Rel), r ≠ .timed → Does (.skipAct ln k x ch r q) ln .ok s
            (a.setReg (skA k 4) (setBits (setBits (setBits (s.skAct k) 0 3 (match x with | .set => 0 | .clear => 1 | .toggle => 2))
              4 7 ch.n) 12 2 (match r with | .command => 0 | .follow => 1 | .timed => 2)))) ∧
          (qBad q .us = false → 1 ≤ skTime q → skTime q ≤ 2 ^ 32 - 1 →
            (∀ x : SAct, Does (.skipAct ln k x ch .timed q) ln .ok s
              ((a.setReg (skA k 4) (setBits (setBits (setBits (s.skAct k) 0 3 (match x with | .set => 0 | .clear => 1 | .toggle => 2))
                4 7 ch.n) 12 2 2)).setReg (skA k 8) (word (skTime q).toNat))) ∧
            (∀ high, Does (.skipActPulse ln k ch high q) ln .ok s
              ((a.setReg (skA k 4) (setBit (setBits (setBits (s.skAct k) 0 3 3) 4 7 ch.n) 3 high)).setReg (skA k 8)
                (word (skTime q).toNat))))))) ∧
    (Passes ln { locked := false } s → ∃ t l, Machine.exec (.skipGet ln k) s = .next t ∧ Answered ln (.vals l) s t ∧
      Stays (some ln.ep) noReg s t ∧ { key := "src", val := FVal.obj (s.skSrc k / 16) (s.skSrc k % 16) } ∈ l ∧
      kb "en" (s.flag 0x60008 k) ∈ l ∧ ky "holding" (s.skHolding k) ∈ l ∧ ky "pending" (s.skPending k) ∈ l ∧
      kn "fires" (s.reg (skA k 0x10)).toNat ∈ l ∧ kn "revokes" (s.reg (skA k 0x14)).toNat ∈ l ∧
      kn "discards" (s.reg (skA k 0x18)).toNat ∈ l)

/-- Reflexes (R172, R195, R197, R203): a raw edge of a channel that delivers takes the level of its comparator and, away from the
confirmed state, begins a run of the filter with its instant, and with Skipper working and no fire pending fires the reflexes it
matches; a return to the confirmed state before confirmation ends the run and revokes the fire; a timed hold and a pulse end, the
output taking the next rank down. Completion: Machine.exec answers the next state that holds its own effect, for reflexFire,
reflexRevoke, pulseEnd, reflexHoldTimeout. -/
def Obligations.SkipEvents : Prop :=
  ∀ (n : Nat) (s : State),
    (s.diLive n = true →
      (∀ level ts, (level != s.invert n) ≠ s.flag (chA n 0x50) 0 →
        let u := s.setCh n { s.ch n with raw := level, run := some ((s.ch n).run.getD ts) }
        (s.fenced .skip = false → (s.ch n).fire = none → Becomes (.reflexFire n level ts) s (fireAll n level ts u)) ∧
        (s.fenced .skip = true ∨ (s.ch n).fire ≠ none → Becomes (.reflexFire n level ts) s u)) ∧
      (∀ level ts, (level != s.invert n) = s.flag (chA n 0x50) 0 →
        Becomes (.reflexFire n level ts) s (s.setCh n { s.ch n with raw := level })) ∧
      Becomes (.reflexRevoke n) s
        (revokeFire n (s.setCh n { s.ch n with raw := s.flag (chA n 0x50) 0 != s.invert n, run := none }))) ∧
    (∀ h, (s.ch n).hold = some h →
      (bits h.act 0 3 = 3 → Becomes (.pulseEnd n) s (endHold n s)) ∧
      (bits h.act 0 3 ≤ 2 → bits h.act 12 2 = 2 → Becomes (.reflexHoldTimeout n) s (endHold n s)) ∧
      (Memory.wf s = true → ((endHold n s).ch n).hold = none ∧ (∀ m, m ≠ n → (endHold n s).ch m = s.ch m)))

/-- What a fired action meets (R200, R22, R198): toward an unpowered group or a link that is down, against the safe value of an
output in safe state, or behind a hold of a later edge, or of the same edge and a lower reflex, it is discarded and counted; toward
a group whose latch acts alone before the link is declared lost it is lost in the lane (the model's choice, assumption 90);
otherwise it takes the output, and no register of another output changes. -/
def Obligations.ReflexPrecedence : Prop :=
  ∀ (k src : Nat) (lev : Bool) (ts : BitVec 64) (s : State), Memory.wf s = true → k < 32 → bits (s.skAct k) 0 3 ≤ 3 →
    let m := actTarget (s.skAct k)
    (s.powered (m / 16) = true → s.linkUp (m / 16) = true → (s.gr (m / 16)).acts = true → dispatch k src lev ts s = (s, false)) ∧
    ((s.powered (m / 16) = false ∨ s.linkUp (m / 16) = false ∨ ((s.gr (m / 16)).acts = false ∧
        ((s.chst m ≠ 0 ∧ (s.actValue (s.skAct k) != decide (s.safeVal m ≠ 0)) = true) ∨
        (∃ h, (s.ch m).hold = some h ∧ (ts.toNat < h.ts.toNat ∨ (ts = h.ts ∧ h.k < k)))))) →
      (dispatch k src lev ts s).2 = false ∧ (dispatch k src lev ts s).1.reg (skA k 0x18) = s.reg (skA k 0x18) + 1 ∧
      (dispatch k src lev ts s).1.chn = s.chn) ∧
    (s.powered (m / 16) = true → s.linkUp (m / 16) = true → (s.gr (m / 16)).acts = false →
      (s.chst m = 0 ∨ s.actValue (s.skAct k) = decide (s.safeVal m ≠ 0)) →
      (∀ h, (s.ch m).hold = some h → h.ts.toNat ≤ ts.toNat ∧ (ts = h.ts → k ≤ h.k)) → (dispatch k src lev ts s).2 = true ∧
      (∃ h, ((dispatch k src lev ts s).1.ch m).hold = some h ∧ h.k = k ∧ h.val = s.actValue (s.skAct k) ∧ h.ts = ts) ∧
      (∀ j, j ≠ aStat m → j ≠ aSafeCh m → (dispatch k src lev ts s).1.reg j = s.reg j) ∧
      (∀ j, j ≠ m → (dispatch k src lev ts s).1.ch j = s.ch j))

/-- The protection of the switched outputs (R209, R210, R218 to R222, R224, R226 to R230, R307, Table 8.7): an overload of a DOF
sets its status and FAULT, and a terminal that disagrees is status and an event; a short, the current limit outside the inrush
window and a thermal model that reaches its trip level trip a DOH with causes 1, 2 and 3; the first two latch, the third unless
RETRY allows another retry; at 20 % of the model a retry and a cleared trip give the output to the next rank down, and no event but
the model's own steps moves its heat; the limiter acts at the active level, the inrush window, open load and undercurrent are status
bits, of which the last two follow their samples and raise an event when they set. Completion: Machine.exec answers the next state
that holds its own effect, for dofOverload, overloadClear, dofMismatch, dofMismatchClear, shortTrip, limitTrip, fuseTrip, tripRetry,
tripCleared, currentLimit, currentLimitEnd, inrushWindowClose, openLoad, openLoadClear, undercurrent, undercurrentClear. -/
def Obligations.OutputProtection : Prop :=
  (∀ (n : Nat) (s : State), s.dofLive n = true →
    (s.flag (aStat n) 16 = false → Becomes (.dofOverload n) s
      (refreshFault n ((((s.item (n / 16)).setFlag (aStat n) 16 true).setFlag (aStat n) 17 true).emit .overload (.ch n) []))) ∧
    (s.flag (aStat n) 16 = true →
      Becomes (.overloadClear n) s (refreshFault n ((s.item (n / 16)).setFlag (aStat n) 16 false))) ∧
    (s.gFenced (n / 16) .sar = false →
      (s.flag (aStat n) 18 = false → s.dofDisagrees n = true →
        Becomes (.dofMismatch n) s ((s.setFlag (aStat n) 18 true).emit .dofMismatch (.ch n) [])) ∧
      (s.flag (aStat n) 18 = true → s.dofDisagrees n = false →
        Becomes (.dofMismatchClear n) s (s.setFlag (aStat n) 18 false)))) ∧
  (∀ (n : Nat) (s : State), s.dohLive n = true →
    let u := s.item (n / 16)
    (s.gate n = true → s.flag (aStat n) 16 = false → Becomes (.shortTrip n) s (trip 1 .shortTrip true n u)) ∧
    (s.dohClocked n = true → s.gate n = true → s.flag (aStat n) 24 = true → s.flag (aStat n) 23 = false →
      s.flag (aStat n) 16 = false → Becomes (.limitTrip n) s (trip 2 .limitTrip true n u)) ∧
    (s.dohSampled n = true →
      (∀ mA : BitVec 16,
        (s.stepTrips n mA.toNat = true → Becomes (.fuseTrip n mA) s
          (fuseStep n mA.toNat (u.setFld (chA n 0x14C) 0 16 mA.toNat))) ∧
        (s.stepTrips n mA.toNat = false → Becomes (.fuseTrip n mA) s s)) ∧
      (s.flag (aStat n) 16 = true → s.flag (aStat n) 20 = false →
        (s.cool n = true → Becomes (.tripRetry n) s (chEvent .tripRetry n (endTrip n
          (u.setCh n { u.ch n with retries := (u.ch n).retries ++ [u.clk.raw] })))) ∧
        (s.cool n = false → Becomes (.tripRetry n) s s)) ∧
      (s.flag (aStat n) 20 = true → (s.ch n).clearReq = true →
        (s.cool n = true → s.fld (aStat n) 17 3 ≠ 4 ∨ s.flag (aGstat (n / 16)) 4 = false →
          Becomes (.tripCleared n) s (chEvent .tripCleared n (endTrip n u))) ∧
        (s.cool n = false → Becomes (.tripCleared n) s s)))) ∧
  (∀ (n mA : Nat) (s : State), Memory.wf s = true → n < 128 →
    (∀ row, s.fuseRow n = some row →
      (s.stepTrips n mA = true ↔ s.flag (aStat n) 16 = false ∧ row.2 ≤ s.nextHeat n mA row) ∧
      ((fuseStep n mA s).ch n).heat = some (s.nextHeat n mA row)) ∧
    (s.fuseRow n = none → (fuseStep n mA s).flag (aStat n) 2 = true ∧
      (s.stepTrips n mA = true ↔ s.flag (aStat n) 16 = false)) ∧
    (s.stepTrips n mA = true → (fuseStep n mA s).flag (aStat n) 16 = true ∧ (fuseStep n mA s).fld (aStat n) 17 3 = 3) ∧
    ((endTrip n s).ch n).heat = (s.ch n).heat) ∧
  (∀ (n : Nat) (s : State), s.dohLive n = true →
    let u := s.item (n / 16)
    (∀ mA : BitVec 16, s.gate n = true →
      let level := if s.flag (aStat n) 23 then min (s.fld (chA n 0x140) 24 6 * s.fld (chA n 0x140) 0 8) 8000
        else 100 * s.fld (chA n 0x144) 0 7
      (level ≤ mA.toNat → Becomes (.currentLimit ⟨n, mA⟩) s (u.setFlag (aStat n) 24 true)) ∧
      (mA.toNat < level → Becomes (.currentLimit ⟨n, mA⟩) s s)) ∧
    (s.flag (aStat n) 24 = true → Becomes (.currentLimitEnd n) s (u.setFlag (aStat n) 24 false)) ∧
    (s.flag (aStat n) 23 = true → Becomes (.inrushWindowClose n) s (u.setFlag (aStat n) 23 false)) ∧
    (s.dohSampled n = true →
      (s.flag (chA n 0x148) 8 = true → s.gate n = false →
        (s.flag (aStat n) 21 = false → 4000 < s.dohMv n → Becomes (.openLoad n) s
          (((u.setFlag (aStat n) 21 true).setFlag (aStat n) 26 true).emit .openLoad (.ch n) [])) ∧
        (s.flag (aStat n) 21 = true → s.dohMv n < 3000 → Becomes (.openLoadClear n) s (u.setFlag (aStat n) 21 false))) ∧
      (s.fld (chA n 0x148) 0 8 ≠ 0 → s.gate n = true → s.flag (aStat n) 23 = false →
        (s.flag (aStat n) 22 = false → s.fld (chA n 0x14C) 0 16 < s.fld (chA n 0x148) 0 8 → Becomes (.undercurrent n) s
          (((u.setFlag (aStat n) 22 true).setFlag (aStat n) 26 true).emit .undercurrent (.ch n) [])) ∧
        (s.flag (aStat n) 22 = true → s.fld (chA n 0x148) 0 8 ≤ s.fld (chA n 0x14C) 0 16 →
          Becomes (.undercurrentClear n) s (u.setFlag (aStat n) 22 false)))))

/-- What a trip does to the switch (R226, R234, R151): the driver is off, TRIPPED stands with its cause and TRIPSEEN, LATCHED as
given, the trips are counted, the event is raised, and beside the status, the trip counter and the safe state of this channel no
register changes; a trip clear of a hot model changes only the request (R227). -/
def Obligations.TripEffect : Prop :=
  ∀ (c n : Nat) (ev : Ev) (latch : Bool) (s : State), Memory.wf s = true → c < 8 → n < 128 → s.mode n = 3 →
    let t := trip c ev latch n s
    t.flag (aStat n) 16 = true ∧ t.fld (aStat n) 17 3 = c ∧ t.flag (aStat n) 20 = latch ∧ t.flag (aStat n) 25 = true ∧
    t.gate n = false ∧ (t.ch n).clearReq = false ∧ (t.ch n).heat = (s.ch n).heat ∧
    t.reg (chA n 0x154) = s.reg (chA n 0x154) + 1 ∧
    (∃ e ∈ t.evNew, e.cls = ev ∧ e.obj = .ch n) ∧
    (∀ k, k ≠ aStat n → k ≠ chA n 0x154 → k ≠ aSafeCh n → k ≠ aChst n → t.reg k = s.reg k) ∧
    (∀ m, m ≠ n → t.ch m = s.ch m) ∧
    (s.flag (aStat n) 20 = true → (s.cool n && s.otClear n) = false →
      tripClear n s = s.setCh n { s.ch n with clearReq := true }) ∧
    (s.flag (aStat n) 20 = false → tripClear n s = s)

/-- The doh lines and trip clear (R216, R220, R221, R223, R224, R227 to R230, R234): on a disarmed part the rating, the wire, the
inrush window, the limit and the retry are written in the steps of their fields; undercurrent, the open-load test and trip clear are
served armed or not; doh fuse reads the model. Completion: Machine.exec answers the next state that holds its own effect, for
dohRated, dohWire, dohWireCustom, dohInrush, dohLimit, dohRetry, dohUndercurrent, dohOltest, tripClear, dohFuse. -/
def Obligations.LoadSwitchLines : Prop :=
  ∀ (ln : Line) (ch : ChRef) (s : State), Inv s → Passes ln {} s → ch.g < s.member.groups → ch.c < 16 → s.mode ch.n = 3 →
    let a := accepted ln {} s
    (s.sup.armed = false →
      (∀ q, qBad q .A = false → 10 ≤ qSteps q .A 1 10000 → qSteps q .A 1 10000 ≤ 200 →
        s.dohSumWith ch.g ch.n (10 * (qSteps q .A 1 10000).toNat) ≤ 12000 →
        Does (.dohRated ln ch q) ln .ok s (a.setFld (chA ch.n 0x140) 0 8 (qSteps q .A 1 10000).toNat)) ∧
      (∀ q k, q.unit = none → wireCode q = some k → Does (.dohWire ln ch q) ln .ok s (a.setFld (chA ch.n 0x140) 8 3 k)) ∧
      (∀ k, k ≤ 7 → Does (.dohWireCustom ln ch k) ln .ok s
        (holdFence [ch.n] ((a.setFld (chA ch.n 0x140) 8 3 6).setFld (chA ch.n 0x140) 12 3 k))) ∧
      (∀ q m, qBad q .ms = false → m.unit = none → 1 ≤ qSteps q .ms 1 1000000 → qSteps q .ms 1 1000000 ≤ 200 →
        10 ≤ roundDiv (m.num * 10) (10 ^ m.dec) → roundDiv (m.num * 10) (10 ^ m.dec) ≤ 40 →
        Does (.dohInrush ln ch q m) ln .ok s ((a.setFld (chA ch.n 0x140) 16 8 (qSteps q .ms 1 1000000).toNat).setFld
          (chA ch.n 0x140) 24 6 (roundDiv (m.num * 10) (10 ^ m.dec)).toNat)) ∧
      (∀ q, qBad q .A = false → 5 ≤ qSteps q .A 1 100000 → qSteps q .A 1 100000 ≤ 80 →
        Does (.dohLimit ln ch q) ln .ok s (a.setFld (chA ch.n 0x144) 0 7 (qSteps q .A 1 100000).toNat)) ∧
      (∀ on, Does (.dohRetry ln ch on) ln .ok s (a.setFlag (chA ch.n 0x140) 11 on))) ∧
    Does (.dohUndercurrent ln ch none) ln .ok s (a.setFld (chA ch.n 0x148) 0 8 0) ∧
    (∀ q, qBad q .A = false → 5 ≤ qSteps q .A 1 1000 → qSteps q .A 1 1000 ≤ 200 →
      Does (.dohUndercurrent ln ch (some q)) ln .ok s (a.setFld (chA ch.n 0x148) 0 8 (qSteps q .A 1 1000).toNat)) ∧
    (∀ on, Does (.dohOltest ln ch on) ln .ok s (a.setFlag (chA ch.n 0x148) 8 on)) ∧
    Does (.tripClear ln ch) ln .ok s (tripClear ch.n a) ∧
    Does (.dohFuse ln ch) ln (.vals
      [kx "model" (s.percent ch.n : Nat) 2 "%", kx "i" (s.fld (chA ch.n 0x14C) 0 16 : Nat) 0 "mA",
       kw "cause" (tripCause (s.fld (aStat ch.n) 17 3)), kn "retries" (min 3 (s.retryCount ch.n)),
       kn "trips" (s.reg (chA ch.n 0x154)).toNat]) s a

/-- What an analogue loop meets (R238, R248, R249, R253 to R256): the limiter and the compliance are status bits that follow their
condition; the loop supply is switched off and on again; a standing deviation and a disagreement of the readbacks set their bits,
raise their events and move the fault, and clear where the check passes again. Completion: Machine.exec answers the next state that
holds its own effect, for aicInlim, aicInlimClear, loopOn, loopOff, complySet, complyClear, aoDeviation, aoDeviationClear,
aoReadback, aoReadbackClear. -/
def Obligations.AnalogueEvents : Prop :=
  ∀ (n : Nat) (s : State), s.converts n = true → s.itemFrom (n / 16) = true →
    let u := s.item (n / 16)
    (s.mode n = 5 →
      Becomes (.aicInlim n) s (u.setFlag (aStat n) 19 true) ∧ Becomes (.aicInlimClear n) s (u.setFlag (aStat n) 19 false) ∧
      Becomes (.loopOn n) s (u.setFlag (aStat n) 20 false) ∧
      (s.flag (chA n 0x240) 0 = true → s.flag (aStat n) 20 = false →
        Becomes (.loopOff n) s ((u.setFlag (aStat n) 20 true).emit .loopOff (.ch n) []))) ∧
    (isAo (s.mode n) = true →
      Becomes (.complySet n) s (u.setFlag (aStat n) 18 true) ∧ Becomes (.complyClear n) s (u.setFlag (aStat n) 18 false) ∧
      (s.gFenced (n / 16) .mod = false → s.gFenced (n / 16) .sar = false → s.flag (aGstat (n / 16)) 2 = false →
        s.flag (aStat n) 19 = false →
        (s.aoOff n = false →
          (s.deviates n = true → s.flag (aStat n) 16 = false → Becomes (.aoDeviation n) s
            (refreshFault n (((s.setFlag (aStat n) 16 true).setFlag (aStat n) 20 true).emit .aoDeviation (.ch n) []))) ∧
          (s.deviates n = false → s.flag (aStat n) 16 = true →
            Becomes (.aoDeviationClear n) s (refreshFault n (s.setFlag (aStat n) 16 false)))) ∧
        (s.disagrees n = true → s.flag (aStat n) 17 = false → Becomes (.aoReadback n) s
          (refreshFault n (((s.setFlag (aStat n) 17 true).setFlag (aStat n) 21 true).emit .aoReadback (.ch n) []))) ∧
        (s.disagrees n = false → s.flag (aStat n) 17 = true →
          Becomes (.aoReadbackClear n) s (refreshFault n (s.setFlag (aStat n) 17 false)))))

/-- The analogue lines (R237, R242, R243, R245, R253, R254, R259): the loop supply, the type, the excitation and the leads of an RTD
write AI.CFG, the range time AI.DIAG, the two checks of an output AO.DEV and AO.RBCHK, each in the steps of its register; ch
readback reads the two readbacks, the drive and the auxiliary measurement. Completion: Machine.exec answers the next state that
holds its own effect, for aicLoop, airRtd, airExc, airLeads, aoDevCfg, aoRbchkCfg, aiRngt, chReadback. -/
def Obligations.AnalogueLines : Prop :=
  ∀ (ln : Line) (ch : ChRef) (s : State), Inv s → Passes ln {} s → ch.g < s.member.groups → ch.c < 16 →
    let a := accepted ln {} s
    let k := chA ch.n 0x240
    (s.sup.armed = false →
      (s.mode ch.n = 5 → ∀ on, Does (.aicLoop ln ch on) ln .ok s (writeAiCfg ch.n (setBit (s.reg k) 0 on) a)) ∧
      (s.mode ch.n = 7 →
        (∀ ty : Rtd, Does (.airRtd ln ch ty) ln .ok s
          (writeAiCfg ch.n (setBits (s.reg k) 3 2 (match ty with | .pt100 => 0 | .pt1000 => 1 | .ohm => 2)) a)) ∧
        (∀ q x, qBad q .A = false → excCode q = some x →
          Does (.airExc ln ch q) ln .ok s (writeAiCfg ch.n (setBits (s.reg k) 2 1 x) a)) ∧
        (∀ w3, Does (.airLeads ln ch w3 none) ln .ok s (writeAiCfg ch.n (setBit (s.reg k) 1 w3) a)) ∧
        (∀ q, qBad q .ohm = false → 0 ≤ qSteps q .ohm 1000 1 → qSteps q .ohm 1000 1 ≤ 65535 →
          Does (.airLeads ln ch false (some q)) ln .ok s
            (writeAiCfg ch.n (setBits (setBit (s.reg k) 1 false) 16 16 (qSteps q .ohm 1000 1).toNat) a) ∧
          Does (.airLeads ln ch true (some q)) ln .ok s (writeAiCfg ch.n (setBit (s.reg k) 1 true) a))) ∧
      (isAo (s.mode ch.n) = true → ∀ p q, qBad p .percent = false → qBad q .ms = false →
        10 ≤ qSteps q .ms 1 1000000 → qSteps q .ms 1 1000000 ≤ 10000 →
        (2 ≤ qSteps p .percent 1 1000 → qSteps p .percent 1 1000 ≤ 100 → ∀ r,
          Does (.aoDevCfg ln ch p q r) ln .ok s (writeAoDev ch.n (word ((qSteps p .percent 1 1000).toNat +
            (if r then 256 else 0) + (qSteps q .ms 1 1000000).toNat * 65536)) a)) ∧
        (6 ≤ qSteps p .percent 1 1000 → qSteps p .percent 1 1000 ≤ 50 →
          Does (.aoRbchkCfg ln ch p q) ln .ok s (writeAoRbchk ch.n (word ((qSteps p .percent 1 1000).toNat +
            (qSteps q .ms 1 1000000).toNat * 65536)) a)))) ∧
    (s.mode ch.n = 5 ∨ s.mode ch.n = 6 → ∀ q, qBad q .ms = false → 0 ≤ qSteps q .ms 1 1000000 → qSteps q .ms 1 1000000 ≤ 10000 →
      Does (.aiRngt ln ch q) ln .ok s (writeAiDiag ch.n (qSteps q .ms 1 1000000).toNat a)) ∧
    (isAo (s.mode ch.n) = true → Does (.chReadback ln ch) ln (.vals
      [readFld "a" (s.mode ch.n) (s.reg (chA ch.n 0x348)).toInt, readFld "b" (s.mode ch.n) (s.reg (chA ch.n 0x34C)).toInt,
       aoFld "drive" (s.mode ch.n) (s.drive ch.n).2.toNat,
       kx "aux" (10 * (s.reg (chA ch.n 0x350)).toInt) 4 (if s.mode ch.n = 8 then "V" else "mA")]) s a)

/-- A boundary of a conversion filter (R239, R265 to R269, R278): CONVERSION_RESULT completes an output; a boundary without a result
adds 1 to AGE, the output counts toward the settling all the same, and the time of the range flags goes on. In an AIC or AIV channel
the slot keeps its value and ages until the filter has settled; after that the value, which the modulator's offset and gain make of
the filtered code, held to its span with SATUR beyond it, replaces it with the part's time, STALE and NOVALUE end and AGE is 0.
Completion: Machine.exec answers the next state that holds its own effect, for conversionResult, resultBoundaryMissed. -/
def Obligations.ConversionResults : Prop :=
  (∀ (n : Nat) (s : State),
    (∀ m, s.delivers n = true → Becomes (.conversionResult n m) s (convResult n m s)) ∧
    (let u := periodEnd n (rangeIdle n (ageUp n (boundary n (Config.freeWord s.freeIdx).toInt s.draw)))
     (s.converts n = true → s.dead = false → s.sup.crawl = false → Becomes (.resultBoundaryMissed n) s u) ∧
     (Memory.wf s = true → u.fld (chA n 0x84) 0 16 = min 65535 (s.fld (chA n 0x84) 0 16 + 1) ∧
       (u.ch n).conv.outs = min 5 ((s.ch n).conv.outs + 1) ∧ ∀ k, k ≠ chA n 0x84 → u.reg k = s.reg k))) ∧
  (∀ (n : Nat) (m : Measure) (s : State), Inv s → s.delivers n = true → s.gFenced (n / 16) .mod = false →
    (s.mode n = 5 ∨ s.mode n = 6) → m.spare = none →
    let lim : Int := if s.mode n = 5 then 25000000 else 11000000
    let low : Int := if s.mode n = 5 then 0 else -11000000
    let y := notch (s.fld (chA n 0x80) 4 2) (streamOut (s.outD n) m.src) (s.ch n).conv.x1 (s.ch n).conv.x2
    let v := (((s.cal (n / 16) (s.modOf n)).gain * ((y : Rat) - (s.cal (n / 16) (s.modOf n)).off)) * m.full / 8388608 + 1 / 2).floor
    ∃ t, Machine.exec (.conversionResult n m) s = .next t ∧ t.reg (chA n 0x250) = wordI y &&& 0xFFFFFF ∧
      (s.nSettle n ≤ min 5 ((s.ch n).conv.outs + 1) →
        t.reg (chA n 0x248) = BitVec.ofInt 32 (max low (min lim v)) ∧ t.pair (chA n 0x254) = s.clk.ts ∧
        t.fld (chA n 0x84) 0 17 = 0 ∧ t.flag (aStat n) 1 = false ∧
        t.flag (aStat n) 18 = decide (v < low ∨ lim < v)) ∧
      (min 5 ((s.ch n).conv.outs + 1) < s.nSettle n →
        t.reg (chA n 0x248) = s.reg (chA n 0x248) ∧ t.pair (chA n 0x254) = s.pair (chA n 0x254) ∧
        t.fld (chA n 0x84) 0 16 = min 65535 (s.fld (chA n 0x84) 0 16 + 1) ∧ t.flag (aStat n) 1 = s.flag (aStat n) 1))

/-- The window comparator (R284, R285): the band changes only after COUNT valid results in a row that ask for the same band, with
its event; a value between the limits and their hysteresis asks for none. -/
def Obligations.WindowBands : Prop :=
  ∀ (n : Nat) (v : Int) (s : State), Memory.wf s = true → s.flag (chA n 0x88) 0 = true → s.gFenced (n / 16) .mod = false →
    let lo := (s.reg (chA n 0x8C)).toInt
    let hi := (s.reg (chA n 0x90)).toInt
    let h : Int := (s.reg (chA n 0x94)).toNat
    lo + h ≤ hi - h →
    (s.winChange n v = 3 → (winResult n v s).regs = s.regs ∧ (winResult n v s).evNew = s.evNew) ∧
    (s.winChange n v ≠ 3 → (s.ch n).conv.winTo ≠ s.winChange n v → 1 < s.fld (chA n 0x88) 16 8 →
      (winResult n v s).regs = s.regs ∧ ((winResult n v s).ch n).conv.winN = 1) ∧
    (s.winChange n v ≠ 3 → (s.ch n).conv.winTo = s.winChange n v → s.fld (chA n 0x88) 16 8 ≤ (s.ch n).conv.winN + 1 →
      (winResult n v s).fld (chA n 0x98) 0 2 = s.winChange n v ∧ (winResult n v s).flag (chA n 0x98) 2 = true ∧
      ∃ e ∈ (winResult n v s).evNew, e.cls = .window ∧ e.obj = .ch n) ∧
    (s.fld (chA n 0x98) 0 2 = 0 → (s.winChange n v = 1 ↔ v < lo) ∧ (s.winChange n v = 2 ↔ hi < v)) ∧
    (s.fld (chA n 0x98) 0 2 = 1 → (s.winChange n v = 2 ↔ hi < v) ∧ (s.winChange n v = 0 ↔ lo + h ≤ v ∧ v ≤ hi)) ∧
    (s.fld (chA n 0x98) 0 2 = 2 → (s.winChange n v = 1 ↔ v < lo) ∧ (s.winChange n v = 0 ↔ lo ≤ v ∧ v ≤ hi - h))

/-- Synchronising resets (R77, R271 to R275, R294): the SYNC ball and the sync line request one for their groups, the edge at the
first edge of the 1 µs strobe at least 3 µs later; at the edge the filters of the powered groups named restart. The lines write
Gg.SYNC. Completion: Machine.exec answers the next state that holds its own effect, for syncBallEdge, syncEdge, sync, convSyncBall,
convSyncRing. -/
def Obligations.Synchronising : Prop :=
  ∀ (s : State),
    (s.running = true → s.replaying = false → Becomes .syncBallEdge s
      (requestSync (maskOf (s.groups.filter fun g => s.flag (grA g 0x40) 0 && s.powered g)) (s.record 0x05 1 1 []))) ∧
    (∀ x l, s.running = true → s.syncs = x :: l → Becomes .syncEdge s
      (forAll (s.groups.filter fun g => x.2.testBit g) syncGroup ({ s with syncs := l }.record 0x29 0 0 [word x.2]))) ∧
    (∀ mask, mask ≠ 0 → ∃ x ∈ (requestSync mask s).syncs, s.clk.raw + 1200 ≤ 400 * x.1 ∧ 400 * x.1 < s.clk.raw + 1600 ∧
      x.2 &&& mask = mask) ∧
    (∀ ln gs, Inv s → Passes ln { locked := false } s → (∀ g ∈ gs, g < s.member.groups) → Does (.sync ln gs) ln .ok s
      (requestSync (maskOf ((if gs = [] then s.groups else gs).filter s.powered)) (accepted ln { locked := false } s))) ∧
    (∀ ln g, Inv s → Passes ln {} s → g < s.member.groups →
      let a := accepted ln {} s
      (∀ on, Does (.convSyncBall ln g on) ln .ok s (a.setFlag (grA g 0x40) 0 on)) ∧
      (∀ r : Option Nat, (∀ c, r = some c → c < 2 ∧ c < s.member.rings) →
        let w := setBits (s.reg (grA g 0x40)) 1 2 ((r.map (· + 1)).getD 0)
        Does (.convSyncRing ln g r none) ln .ok s (writeSync g w a) ∧
        ∀ k, 1 ≤ k → k ≤ 65535 → Does (.convSyncRing ln g r (some k)) ln .ok s (writeSync g (setBits w 16 16 k) a)))

/-- The steps of the rotation (R276 to R283, Table 10.5): a step calibrates the spare, connects it in parallel, settles, compares
three pairs, hands over with the history of its filter and calibrates again; a channel that does not convert is swapped at once. A
modulator that fails is retired. Completion: Machine.exec answers the next state that holds its own effect, for rotationStepStart,
calComplete, rotConnect, rotSettleDone, handover, recalComplete, modFail. -/
def Obligations.RotationSteps : Prop :=
  ∀ (g : Nat) (s : State), s.modLive g = true →
    (s.rotOn g = true → s.rotSt g = 0 →
      let t := s.setFld (aRot g) 0 3 1
      (∀ c, t.stepFrom g 16 (s.gr g).conv.next = some c → Becomes (.rotationStepStart g) s
        ((t.setFld (aRot g) 8 4 c).setGr g { s.gr g with conv := { (s.gr g).conv with next := (c + 1) % 16 } })) ∧
      (t.stepFrom g 16 (s.gr g).conv.next = none → Becomes (.rotationStepStart g) s t)) ∧
    (∀ zero ref : Int, s.rotSt g = 1 →
      (calOf zero ref = none → Becomes (.calComplete g zero ref) s (mismatch g s)) ∧
      (calOf zero ref ≠ none →
        let t := calSpare g zero ref s
        (t.flag (grA g 0x44) 12 = false → Becomes (.calComplete g zero ref) s (t.setFld (aRot g) 0 3 6)) ∧
        (t.flag (grA g 0x44) 12 = true → t.stepFrom g 16 0 ≠ none → isAo (t.mode (t.rotCh g)) = false →
          Becomes (.calComplete g zero ref) s (t.setFld (aRot g) 0 3 2)) ∧
        (t.flag (grA g 0x44) 12 = true → t.stepFrom g 16 0 = none ∨ isAo (t.mode (t.rotCh g)) = true →
          Becomes (.calComplete g zero ref) s (t.setFld (aRot g) 0 3 0)))) ∧
    (s.rotSt g = 2 →
      (isAi (s.mode (s.rotCh g)) = true → s.nSettle (s.rotCh g) ≤ (s.ch (s.rotCh g)).conv.outs → s.active (s.rotCh g) = true →
        Becomes (.rotConnect g) s ((s.setFld (aRot g) 0 3 3).setGr g
          { s.gr g with conv := { (s.gr g).conv with spare1 := 0, spare2 := 0 } })) ∧
      (isAo (s.mode (s.rotCh g)) = true → Becomes (.rotConnect g) s (s.setFld (aRot g) 0 3 0)) ∧
      (isAi (s.mode (s.rotCh g)) = false → isAo (s.mode (s.rotCh g)) = false →
        Becomes (.rotConnect g) s (swapSpare g (s.rotCh g) s))) ∧
    (s.rotSt g = 3 → Becomes (.rotSettleDone g) s
      ((s.setFld (aRot g) 0 3 4).setGr g { s.gr g with conv := { (s.gr g).conv with pairs := 0 } })) ∧
    (s.rotSt g = 4 → (s.gr g).conv.pairs = 3 → Becomes (.handover g) s
      (let t := swapSpare g (s.rotCh g) s
       let n := s.rotCh g
       let t := t.setCh n { t.ch n with conv :=
         { (t.ch n).conv with x1 := (s.gr g).conv.spare1, x2 := (s.gr g).conv.spare2 } }
       let t := (t.setFld (aRot g) 15 2 0).count (grA g 0x4C)
       t.setGr g { s.gr g with conv := { (s.gr g).conv with pairs := 0 } })) ∧
    (∀ zero ref : Int, s.rotSt g = 5 → Becomes (.recalComplete g zero ref) s
      ((calSpare g zero ref s).setFld (aRot g) 0 3 (if s.flag (grA g 0x44) 12 then 0 else 6))) ∧
    (∀ m, m < 17 → s.flag (grA g 0x50) m = false → Becomes (.modFail g m) s (modFail g m s))

/-- The cross-check of a group (R291 to R293): a standing difference sets XFAIL and XSEEN with its event and holds FAULT on the
group's analogue outputs, and its end releases them; the line sets the channel, the threshold and the time, and get reads the
result. Completion: Machine.exec answers the next state that holds its own effect, for xchkFail, xchkClear, convXchk, convXchkGet.
-/
def Obligations.CrossCheck : Prop :=
  ∀ (g : Nat) (s : State),
    (s.itemFrom g = true → s.xIdle g = false →
      (s.xOver g = true → s.flag (grA g 0x58) 0 = false → Becomes (.xchkFail g) s (forAll (s.aoChans g) refreshFault
        ((((s.item g).setFlag (grA g 0x58) 0 true).setFlag (grA g 0x58) 1 true).emit .xchkFail (.grp g) []))) ∧
      (s.xOver g = false → s.flag (grA g 0x58) 0 = true → Becomes (.xchkClear g) s
        (forAll (s.aoChans g) refreshFault ((s.item g).setFlag (grA g 0x58) 0 false)))) ∧
    (∀ ln, Inv s → g < s.member.groups →
      (Passes ln {} s →
        let a := accepted ln {} s
        let x := s.reg (grA g 0x54)
        Does (.convXchk ln g none none) ln .ok s (writeXchkCfg g (setBit x 4 false) a) ∧
        (∀ p q, qBad p .percent = false → qBad q .ms = false → 1 ≤ qSteps p .percent 1 1000 → qSteps p .percent 1 1000 ≤ 50 →
          10 ≤ qSteps q .ms 1 1000000 → qSteps q .ms 1 1000000 ≤ 10000 →
          Does (.convXchk ln g none (some (p, q))) ln .ok s (writeXchkCfg g (setBits (setBits (setBit x 4 false) 8 8
            (qSteps p .percent 1 1000).toNat) 16 14 (qSteps q .ms 1 1000000).toNat) a)) ∧
        ∀ c, c < 16 →
          let y := setBit (setBits x 0 4 c) 4 true
          Does (.convXchk ln g (some { g := g, c := c }) none) ln .ok s (writeXchkCfg g y a) ∧
          ∀ p q, qBad p .percent = false → qBad q .ms = false → 1 ≤ qSteps p .percent 1 1000 → qSteps p .percent 1 1000 ≤ 50 →
            10 ≤ qSteps q .ms 1 1000000 → qSteps q .ms 1 1000000 ≤ 10000 →
            Does (.convXchk ln g (some { g := g, c := c }) (some (p, q))) ln .ok s (writeXchkCfg g
              (setBits (setBits y 8 8 (qSteps p .percent 1 1000).toNat) 16 14 (qSteps q .ms 1 1000000).toNat) a)) ∧
      (Passes ln { locked := false } s → Does (.convXchkGet ln g) ln (.vals
        [if s.flag (grA g 0x54) 4 then { key := "ch", val := .obj g (s.fld (grA g 0x54) 0 4) } else kw "ch" "off",
         ks "diff" (sext 16 (s.fld (grA g 0x58) 16 16)) 2 "%",
         kw "state" (if s.xIdle g then "idle" else if s.flag (grA g 0x58) 0 then "fail" else "ok")]) s
        (accepted ln { locked := false } s)))

/-- The conversion lines of a channel and of a group (R265 to R267, R276, R281, R284, R286, R293, R297): the rate restarts the
filter, the window restarts its evaluation, a target moves the fault, rotation is switched and a halted one runs again; the get
lines and conv scan read. Completion: Machine.exec answers the next state that holds its own effect, for convRate, convWindow,
convWindowOff, convWindowFault, convGet, convRotate, convScan, convRotateGet. -/
def Obligations.ConversionLines : Prop :=
  ∀ (ln : Line) (s : State), Inv s →
    (∀ ch : ChRef, ch.g < s.member.groups → ch.c < 16 →
      (Passes ln {} s → let a := accepted ln {} s
        ((isAi (s.mode ch.n) || isAo (s.mode ch.n)) = true → ∀ r x, qBad r .Hz = false → rateCode r = some x →
          Does (.convRate ln ch r .off) ln .ok s (writeConvCfg ch.n (word x) a) ∧
          (x = 3 → Does (.convRate ln ch r .n50) ln .ok s (writeConvCfg ch.n (word 19) a) ∧
            Does (.convRate ln ch r .n60) ln .ok s (writeConvCfg ch.n (word 35) a))) ∧
        (isAi (s.mode ch.n) = true →
          (∀ lo hi hy k, qBad lo (s.winUnit ch.n).1 = false → qBad hi (s.winUnit ch.n).1 = false → qBad hy (s.winUnit ch.n).1 = false →
            -2147483648 ≤ s.winQty ch.n lo → s.winQty ch.n hi ≤ 2147483647 → 0 ≤ s.winQty ch.n hy →
            s.winQty ch.n lo + s.winQty ch.n hy ≤ s.winQty ch.n hi - s.winQty ch.n hy → 1 ≤ k → k ≤ 255 →
            Does (.convWindow ln ch lo hi (some hy) (some k)) ln .ok s
              (let u := ((a.setReg (chA ch.n 0x8C) (wordI (s.winQty ch.n lo))).setReg (chA ch.n 0x90) (wordI (s.winQty ch.n hi))).setReg
                 (chA ch.n 0x94) (wordI (s.winQty ch.n hy))
               winReset ch.n ((u.setFld (chA ch.n 0x88) 16 8 k).setFlag (chA ch.n 0x88) 0 true))) ∧
          Does (.convWindowOff ln ch) ln .ok s (winReset ch.n (a.setFlag (chA ch.n 0x88) 0 false)) ∧
          (s.sup.armed = false →
            Does (.convWindowFault ln ch none) ln .ok s (winTarget ch.n false (s.fld (chA ch.n 0x88) 4 7) a) ∧
            ∀ o : ChRef, o.g < s.member.groups → o.c < 16 →
              Does (.convWindowFault ln ch (some o)) ln .ok s (winTarget ch.n true o.n a)))) ∧
      (Passes ln { locked := false } s → (isAi (s.mode ch.n) || isAo (s.mode ch.n)) = true → ∃ l,
        Does (.convGet ln ch) ln (.vals l) s (accepted ln { locked := false } s) ∧
        kn "rate" (rateName (s.fld (chA ch.n 0x80) 0 4)) ∈ l ∧ kn "age" (s.fld (chA ch.n 0x84) 0 16) ∈ l ∧
        ky "stale" (s.flag (chA ch.n 0x84) 16) ∈ l)) ∧
    (∀ g, g < s.member.groups →
      (Passes ln {} s → let a := accepted ln {} s
        (∀ q, qBad q .s = false → 1 ≤ qSteps q .s 1 1000000000 → qSteps q .s 1 1000000000 ≤ 3600 →
          Does (.convRotate ln g false (some q)) ln .ok s (writeRotCfg g (word (qSteps q .s 1 1000000000).toNat) a) ∧
          (s.spare g ≠ 0x1F → Does (.convRotate ln g true (some q)) ln .ok s
            (writeRotCfg g (word ((qSteps q .s 1 1000000000).toNat + 4096))
              ((a.setFlag (aRot g) 12 false).setFld (aRot g) 15 2 0)))) ∧
        (∀ e, e ≤ 39 → Does (.convScan ln g e) ln
          (.vals [s.scanValue g e, kn "frame" (s.fld (grA g (0x100 + 4 * e)) 16 16)]) s a)) ∧
      (Passes ln { locked := false } s → ∃ l, Does (.convRotateGet ln g) ln (.vals l) s (accepted ln { locked := false } s) ∧
        kw "state" (rotName (s.rotSt g)) ∈ l ∧ kn "handovers" (s.reg (grA g 0x4C)).toNat ∈ l ∧
        kn "mismatches" (s.fld (aRot g) 15 2) ∈ l ∧ ky "halt" (s.flag (aRot g) 12) ∈ l))

/-- What the part observes of its safe sources (R133, R298, R300, R301, R311, Table 11.1): an expired watchdog, SAFE# low, a low
field supply and a temperature trip hold their causes with their events; the end of each condition ends the cause's presence; an
overvoltage and a warning are status. Completion: Machine.exec answers the next state that holds its own effect, for wdogExpire,
safePin, safePinHigh, tempTrip, tempOk, vfLow, vfOk, vfHigh, vfHighEnd, tempWarn. -/
def Obligations.SafeSources : Prop :=
  ∀ (s : State),
    (s.wdog.running = true → s.running = true → s.asleep = false → s.replaying = false → Becomes .wdogExpire s
      (holdDev 3 ({ s with wdog := { s.wdog with running := false } }.emit .wdogExpire .dev []))) ∧
    (s.dead = false → s.fenced .safe = false →
      (s.sup.safeLow = false → s.flag 0x30004 18 = false → Becomes .safePin s
        (holdDev 2 (({ s.record 0x05 0 0 [] with sup := { s.sup with safeLow := true } }).emit .safePin .dev []))) ∧
      (s.sup.safeLow = true → Becomes .safePinHigh s
        (clearCause 0x30004 2 .dev { s.record 0x05 0 1 [] with sup := { s.sup with safeLow := false } }))) ∧
    (∀ g, s.itemFrom g = true →
      (s.flag (aGstat g) 4 = false → Becomes (.tempTrip g) s (holdGrp 10 g (forAll (grpChans g) (fun n u =>
        if u.dohLive n then trip 4 .thermalTrip true n u else u)
        (((s.item g).setFlag (aGstat g) 4 true).emit .tempTrip (.grp g) [])))) ∧
      (s.flag (aGstat g) 4 = true → Becomes (.tempOk g) s
        (clearCause (aSafeGrp g) 10 (.grp g) (((s.item g).setFlag (aGstat g) 4 false).emit .tempOk (.grp g) [])))) ∧
    (∀ g, s.scanRuns g = true →
      (∀ v, s.vf g = some v →
        (v < 17500 → s.flag (aSafeGrp g) 25 = false → Becomes (.vfLow g) s (holdGrp 9 g (s.emit .vfLow (.grp g) []))) ∧
        (17800 ≤ v → s.flag (aSafeGrp g) 25 = true →
          Becomes (.vfOk g) s (clearCause (aSafeGrp g) 9 (.grp g) (s.emit .vfOk (.grp g) []))) ∧
        (33000 < v → (s.gr g).vfHigh = false →
          Becomes (.vfHigh g) s ((s.setGr g { s.gr g with vfHigh := true }).emit .vfHigh (.grp g) [])) ∧
        (v ≤ 32500 → (s.gr g).vfHigh = true →
          Becomes (.vfHighEnd g) s ((s.setGr g { s.gr g with vfHigh := false }).emit .vfOk (.grp g) []))) ∧
      (∀ v, s.temp g = some v →
        (1250 ≤ v → s.flag (aGstat g) 3 = false →
          Becomes (.tempWarn g) s ((s.setFlag (aGstat g) 3 true).emit .tempWarn (.grp g) [])) ∧
        (v < 1200 → s.flag (aGstat g) 3 = true → s.flag (aGstat g) 4 = false →
          Becomes (.tempOk g) s ((s.setFlag (aGstat g) 3 false).emit .tempOk (.grp g) []))))

/-- The safe lines (R305, R306, R315): safe holds CMD at device scope, a cause that is present only at the command; safe release
answers how many channels moved to RUN and how many remain; auto sets AUTOREL of each channel; safe get reads. Completion:
Machine.exec answers the next state that holds its own effect, for safeCmd, safeRelease, safeReleaseAuto, safeGet. -/
def Obligations.SafeLines : Prop :=
  ∀ (ln : Line) (s : State), Inv s →
    (Passes ln { locked := false, core := true } s → Does (.safeCmd ln) ln .ok s
      (clearCause 0x30004 4 .dev (holdDev 4 (accepted ln { locked := false, core := true } s)))) ∧
    (Passes ln { locked := false } s →
      let a := accepted ln { locked := false } s
      (∀ o : SafeObj, (match o with | .dev => True | .grp g => g < s.member.groups | .ch r => r.g < s.member.groups ∧ r.c < 16) →
        Does (.safeRelease ln o) ln (.vals [kn "released" (release o a).1,
          kn "safe" ((release o a).2.safeCount ((release o a).2.relChans o))]) s (release o a).2 ∧
        (o ≠ .dev → ∀ on, Does (.safeReleaseAuto ln o on) ln .ok s (setAutorel (s.relChans o) on a))) ∧
      Does (.safeGet ln .dev) ln (.vals [ky "armed" s.sup.armed, kw "pin" (if s.sup.safeLow then "low" else "high"),
        { key := "causes", val := wordsOr (causeWords "" (s.reg 0x30004)) }, kn "safe" (s.safeCount s.chans)]) s a ∧
      (∀ g, g < s.member.groups → Does (.safeGet ln (.grp g)) ln (.vals
        [{ key := "causes", val := wordsOr (causeWords "" (s.reg (aSafeGrp g))) }, kn "safe" (s.safeCount (grpChans g))]) s a) ∧
      (∀ r : ChRef, r.g < s.member.groups → r.c < 16 → ∃ l, Does (.safeGet ln (.ch r)) ln (.vals l) s a ∧
        kw "state" (match s.chst r.n with | 0 => "run" | 1 => "safe" | _ => "expired") ∈ l ∧
        kb "autorel" (s.flag (0x30040 + 4 * (r.n / 32)) (r.n % 32)) ∈ l))

/-- A release (R305): of each cause register of the object it removes exactly the causes that are held, not present and removable at
that scope; no channel enters safe state by it, and a channel of the object that holds no cause any more is in RUN. -/
def Obligations.ReleaseRules : Prop :=
  ∀ (o : SafeObj) (s : State), Memory.wf s = true →
    (match o with | .dev => True | .grp g => g < s.member.groups | .ch r => r.g < s.member.groups ∧ r.c < 16) →
    let t := (release o s).2
    (∀ p ∈ s.relRegs o, ∀ b, b < 16 → t.flag p.1 b = (s.flag p.1 b && (s.flag p.1 (16 + b) || !p.2.testBit b))) ∧
    (∀ n ∈ s.relChans o, isOut (s.mode n) = true → t.heldOn n ≠ 0 → t.chst n = s.chst n) ∧
    (∀ n ∈ s.relChans o, isOut (s.mode n) = true → t.heldOn n = 0 → t.chst n = 0) ∧
    (∀ n, s.chst n = 0 → t.chst n = 0) ∧
    (release o s).1 = s.safeCount (s.relChans o) - t.safeCount (s.relChans o) ∧
    (∀ n, n ∉ s.relChans o → t.ch n = s.ch n ∧ t.chst n = s.chst n)

/-- The rounds of a Ringlet (R318, R319, R324, R328 to R331, R334, R337, R344, R349, R350, R380): a frame on the line is read as it
was sent, whatever the scrambler held before it; marks are sent, accepted and missed; frames are passed on, checked and taken;
windows close; own slots are assembled and launched; a mail fragment is taken or times out; a stop takes effect. Completion:
Machine.exec answers the next state that holds its own effect, for roundMarkSend, ringdlyMeasure, roundMarkAccept, markMissed,
ringStopped, lageRoundTick, slotAssembly, slotLaunch, mailFragmentTimeout, frameReceive, mailFrameReceive, rxWindowClose. -/
def Obligations.RingRounds : Prop :=
  (∀ (h : List Bool) (f : Frame), h.length = 58 → f.cells.length = f.len.toNat →
    rxFrame f.port f.slot ((h.reverse ++ scramble h (frameBits f)).drop 16) = some f) ∧
  ∀ (c : Nat) (s : State), s.ringRuns c = true →
    (∀ e, s.ringSt c = 4 → s.sendsMarks c = true →
      ((s.rg c).stop ≠ 2 → Becomes (.roundMarkSend c e) s (sendMark c (ageBad c 1 (roundEnd c e s)))) ∧
      ∀ t, Becomes (.ringdlyMeasure c t) s (s.setFld (rgA c 0x20) 0 24 (t + 16))) ∧
    (s.follows c = true →
      (∀ e, s.ringSt c = 4 → Becomes (.roundMarkAccept c e) s (countMark c (ageBad c 1 (anchor c (roundEnd c e s))))) ∧
      (∀ e, s.ringSt c = 3 → (s.rg c).fixed = true → s.flag (rgA c 0x2C) 0 = false →
        ((s.rg c).begun = true → Becomes (.roundMarkAccept c e) s (joinRun c (anchor c s))) ∧
        ((s.rg c).begun = false → Becomes (.roundMarkAccept c e) s
          ((anchor c s).setRg c { (anchor c s).rg c with begun := true }))) ∧
      (∀ e, s.ringSt c = 3 → ((s.rg c).fixed = false ∨ s.flag (rgA c 0x2C) 0 = true) →
        Becomes (.roundMarkAccept c e) s (anchor c s)) ∧
      (∀ port e, s.ringSt c = 4 →
        let t := roundEnd c e s
        let t := t.setRg c { t.rg c with mute := true, round := (t.rg c).round + 1 }
        let t := ageBad c 1 (forAll (t.rxData c) (ageSlot c 1) t)
        (t.fld (rgA c 0x44) 8 2 < 3 →
          Becomes (.markMissed c port false e) s (t.setFld (rgA c 0x44) 8 2 (t.fld (rgA c 0x44) 8 2 + 1))) ∧
        (3 ≤ t.fld (rgA c 0x44) 8 2 → Becomes (.markMissed c port false e) s
          (((ringTo c 7 t).setRg c { (ringTo c 7 t).rg c with cands := 0, bkWait := false }).emit .markLoss
            (.unit (ringUn c)) [])))) ∧
    ((s.ringSt c = 3 ∨ s.ringSt c = 4) → (s.rg c).stop = 2 → Becomes (.ringStopped c) s
      ((ringStopped c s).emit .ringStopped (.unit (ringUn c)) [{ val := .un (ringUn c) }])) ∧
    (s.ringSt c ≠ 4 → s.asleep = false → Becomes (.lageRoundTick c) s (ageAll c 1 s)) ∧
    (∀ slot, s.ringSt c = 4 → s.isOwn c slot = true →
      Becomes (.slotAssembly c slot) s (assemble c slot s) ∧
      ∀ f, (sget {} (s.rg c).slots slot).ready = some f →
        let x := sget {} (s.rg c).slots slot
        ((s.rg c).mute = true ∨ s.flag (rgA c 0x2C) 0 = true →
          Becomes (.slotLaunch c slot) s (setReady c slot { x with ready := none } s)) ∧
        ((s.rg c).mute = false → s.flag (rgA c 0x2C) 0 = false →
          let q := (x.seq + 1) % 256
          let t := ringSend c { f with seq := q } (s.setRg c { s.rg c with
            slots := sset {} (s.rg c).slots slot { x with seq := q, ready := none, owed := false }
            queue := if f.kind = 4 then (s.rg c).queue.tail else (s.rg c).queue })
          (f.kind ≠ 4 ∨ (s.rg c).queue.head?.map (·.reset) ≠ some true → Becomes (.slotLaunch c slot) s t) ∧
          (f.kind = 4 → (s.rg c).queue.head?.map (·.reset) = some true → Becomes (.slotLaunch c slot) s (takeReset 4 t)))) ∧
    (∀ origin p, p ∈ (s.rg c).parts → p.frag.origin = origin → Becomes (.mailFragmentTimeout c origin) s
      (mailDiscard c 1 (s.setRg c { s.rg c with parts := (s.rg c).parts.filter fun p => decide (p.frag.origin ≠ origin) }))) ∧
    (∀ port slot line, s.portRuns c port = true →
      (rxFrame port slot line = none → Becomes (.frameReceive c ⟨port, slot, line⟩) s s) ∧
      ∀ f, rxFrame port slot line = some f →
        ((s.ringSt c ≠ 3 ∧ s.ringSt c ≠ 4 ∨ s.replaying = true) → Becomes (.frameReceive c ⟨port, slot, line⟩) s (passOn c f s)) ∧
        ((s.ringSt c = 3 ∨ s.ringSt c = 4) → s.replaying = false →
          let u := checkFrame c f (passOn c f s)
          (u.frameValid c f = false ∨ (u.rg c).mute = true → Becomes (.frameReceive c ⟨port, slot, line⟩) s u) ∧
          (u.frameValid c f = true → (u.rg c).mute = false →
            (f.slot = 0 → u.follows c = true → Becomes (.frameReceive c ⟨port, slot, line⟩) s (takeRound c f u)) ∧
            (f.slot ≠ 0 → u.ringDelivers c = true → Becomes (.frameReceive c ⟨port, slot, line⟩) s (deliver c f.slot f u))))) ∧
    (∀ f : Frame, s.portRuns c f.port = true → s.replaying = false → s.ringDelivers c = true → (s.rg c).mute = false →
      s.frameValid c f = true → f.kind = 4 → let m := fragOf f.cells
      (m.dest = none → Becomes (.mailFrameReceive c f) s (bridgeMail c m (mailFrag c m s))) ∧
      ∀ d, m.dest = some d →
        (s.isSelf d = true → Becomes (.mailFrameReceive c f) s (mailFrag c m s)) ∧
        (s.isSelf d = false → Becomes (.mailFrameReceive c f) s (bridgeMail c m s))) ∧
    (∀ slot port, s.ringSt c = 4 → slot < s.nslot c → (s.rg c).mute = false →
      ((s.rxData c).contains slot = true → Becomes (.rxWindowClose c slot port false) s (ageSlot c 1 slot s)) ∧
      ((s.rxData c).contains slot = false → Becomes (.rxWindowClose c slot port false) s s))

/-- What a received frame and a missed one do to their entry (R337, R338): the entry holds the frame's cells, age and sequence with
no local age; a miss adds to the local age, and the total age is the sum, both saturating. -/
def Obligations.ReceivedSlot : Prop :=
  ∀ (c n : Nat) (s : State), Memory.wf s = true → c < 2 → s.rxIdx c n < 256 →
    let r := s.rxIdx c n
    (∀ f : Frame, n < 4096 → f.cells.length ≤ 64 →
      let t := storeEntry c n f s
      (∀ i, i < f.cells.length → t.reg (aRxCell c r i) = f.cells.getD i 0) ∧
      t.fld (aRxStat c r) 24 8 = f.age.toNat ∧ t.fld (aRxStat c r) 16 8 = f.seq.toNat ∧
      t.fld (aRxStat c r + 4) 0 16 = 0 ∧ t.fld (aRxStat c r + 4) 16 16 = f.age.toNat ∧ t.chn = s.chn) ∧
    (∀ k, let t := setLage c r (s.fld (aRxStat c r + 4) 0 16 + k) s
      t.fld (aRxStat c r + 4) 0 16 = min 0xFFFF (s.fld (aRxStat c r + 4) 0 16 + k) ∧
      t.fld (aRxStat c r + 4) 16 16 = min 0xFFFF (t.fld (aRxStat c r + 4) 0 16 + s.fld (aRxStat c r) 24 8) ∧
      ∀ j, j ≠ aRxStat c r + 4 → t.reg j = s.reg j)

/-- The ring lines (R317, R325, R327, R331, R334, R335, R341, R345): a stopped controller takes its line rate, period, slots,
margin, schedule entries, map and hop delays; start and stop act on the controllers named; tx and commit fill an own slot; rx and
get read. Completion: Machine.exec answers the next state that holds its own effect, for ringStart, ringStop, ringLine, ringPeriod,
ringSlots, ringMargin, ringSlot, ringMap, ringHop, ringTx, ringCommit, ringRoundev, chBind, ringRx, ringGet, chBindGet. -/
def Obligations.RingLines : Prop :=
  ∀ (ln : Line) (c : Nat) (s : State), Inv s → c < s.member.rings →
    (Passes ln {} s → s.fenced (ringUn c) = false → s.fenced .shadow = false → let a := accepted ln {} s
      ((s.badSlot c = none ∨ s.ringSt c ≠ 5) → Does (.ringStart ln (some c)) ln .ok s (ringGo c a)) ∧
      (∀ n, s.ringSt c = 5 → s.badSlot c = some n →
        Does (.ringStart ln (some c)) ln (.errAt .range n) s (a.setFlag (rgA c 0x2C) 1 true)) ∧
      Does (.ringStop ln (some c)) ln .ok s (ringStop c a) ∧
      ((s.ringSt c = 0 ∨ s.ringSt c = 5) →
        (∀ long, Does (.ringLine ln c long) ln .ok s (a.setFlag (rgA c 8) 0 long)) ∧
        (∀ q, qBad q .us = false → 20 ≤ qSteps q .us 1 1000 → qSteps q .us 1 1000 ≤ 10000000 →
          Does (.ringPeriod ln c q) ln .ok s (a.setFld (rgA c 0xC) 0 24 (qSteps q .us 1 1000).toNat)) ∧
        (∀ n, n ≤ 4096 → Does (.ringSlots ln c n) ln .ok s (a.setFld (rgA c 0x10) 0 13 n)) ∧
        (∀ n, n < 2 ^ 24 → Does (.ringMargin ln c n) ln .ok s (a.setFld (rgA c 0x14) 0 24 n)) ∧
        (∀ slot k owner len start rx, slot < 4096 → len ≤ 64 → start < 2 ^ 32 →
          Does (.ringSlot ln c slot k owner len start rx) ln .ok s ((a.setReg (aSched c slot) (word start)).setReg (aSched c slot + 4)
            (word (SlotKind.code k + 16 * len + 0x800 * rx.toNat + 0x1000 * nodeBits owner)))) ∧
        (∀ slot cell k, s.mapBad c slot cell k = false →
          (∀ r : ChRef, r.g < s.member.groups → r.c < 16 →
            Does (.ringMap ln c slot cell k (some r)) ln .ok s (writeMap c (s.ordinal c slot) cell k r.n a)) ∧
          Does (.ringMap ln c slot cell k none) ln .ok s
            (writeMap c (s.ordinal c slot) cell k (s.fld (aMap c (s.ordinal c slot) cell) 4 7) a)) ∧
        (∀ i q, 0 < i → i < 256 → qBad q .ns = false → 0 ≤ qSteps q .ns 10 1 → qSteps q .ns 10 1 ≤ 65535 →
          Does (.ringHop ln c i q) ln .ok s (a.setReg (0x40028000 + 0x400 * c + 4 * i) (word (qSteps q .ns 10 1).toNat)))) ∧
      (∀ slot, s.fillOk c slot = true →
        (∀ cell vs, vs ≠ [] → cell + vs.length ≤ 64 → (∀ v ∈ vs, v < 2 ^ 32) → Does (.ringTx ln c slot cell vs) ln .ok s
          (vs.zipIdx.foldl (fun t x => t.setReg (aFill c (t.ordinal c slot) (cell + x.2)) (word x.1)) a)) ∧
        (∀ l, l ≤ (s.slot c slot).len → Does (.ringCommit ln c slot (some l)) ln .ok s (commitSlot c slot l a)) ∧
        ((s.slot c slot).kind = 2 → Does (.ringCommit ln c slot none) ln .ok s (commitSlot c slot (s.slot c slot).len a))) ∧
      Does (.ringRoundev ln c none) ln .ok s (a.setFlag (rgA c 8) 1 false) ∧
      (∀ v, 0 < v → v ≤ 65535 → Does (.ringRoundev ln c (some v)) ln .ok s ((a.setFlag (rgA c 8) 1 true).setFld (rgA c 8) 16 16 v)) ∧
      (∀ (ch : ChRef) slot cell lim, ch.g < s.member.groups → ch.c < 16 → isOut (s.mode ch.n) = true → s.sup.armed = false →
        slot < 4096 → cell < 64 → 0 < lim → lim ≤ 65535 → (s.badSlot c ≠ none ∨ s.bindOk c slot cell = true) →
        Does (.chBind ln ch c slot cell lim) ln .ok s (writeBind ch.n c slot cell lim a))) ∧
    (Passes ln {} s → let a := accepted ln {} s
      ∀ slot i k, (s.rxSlots c).contains slot = true → k ≤ 16 → i + k ≤ 64 →
        let x := aRxStat c (s.rxIdx c slot)
        Does (.ringRx ln c slot (some i) (some k)) ln (.vals
          ([kn "hage" (s.fld x 24 8), kn "lage" (s.fld (x + 4) 0 16), kn "age" (s.fld (x + 4) 16 16), kn "seq" (s.fld x 16 8)] ++
          (List.range k).map fun j => { val := .hex (s.reg (aRxCell c (s.rxIdx c slot) (i + j))) })) s a) ∧
    (Passes ln { locked := false } s → let a := accepted ln { locked := false } s
      (∃ l, Does (.ringGet ln c) ln (.vals l) s a ∧ kw "state" (ringStName (s.ringSt c)) ∈ l ∧
        kn "round" (s.reg (rgA c 0x1C)).toNat ∈ l ∧ kn "slots" (s.nslot c) ∈ l) ∧
      (∀ ch : ChRef, ch.g < s.member.groups → ch.c < 16 → Does (.chBindGet ln ch) ln (.vals
        [fw ("ring" ++ toString (s.bind ch.n).1), kn "slot" (s.bind ch.n).2.1, kn "cell" (s.bind ch.n).2.2,
         kn "limit" (s.ageLimit ch.n), kn "age" (s.bindTotal ch.n)]) s a))

/-- Joining and keeping a Ringlet (R351 to R364, R390): a candidate is tracked and confirmed, a position is probed and a duplicate
stops or resumes the search, a timekeeper listens and meets foreign marks, a backup takes over, a port wraps and unwraps.
Completion: Machine.exec answers the next state that holds its own effect, for huntCandidate, candidateConfirm, joinProbe, dupAddr,
tkListenEnd, foreignMark, tkTakeover, ringWrap, portUp, ringUnwrap. -/
def Obligations.RingJoin : Prop :=
  ∀ (c : Nat) (s : State), s.ringRuns c = true →
    (∀ f : Frame, s.portRuns c f.port = true → f.port = s.inPort c → (s.ringSt c = 1 ∨ s.ringSt c = 2 ∨ s.ringSt c = 7) →
      (s.engineFree c = false → Becomes (.huntCandidate ⟨c, f⟩) s s) ∧
      (s.engineFree c = true → (s.ringSt c = 2 → (s.rg c).cands < 4) →
        let t := checkFrame c f s
        let u := t.setRg c { t.rg c with huntAt := some t.clk.raw }
        (hchkOk f = false → Becomes (.huntCandidate ⟨c, f⟩) s t) ∧
        (hchkOk f = true →
          (s.ringSt c = 1 → t.role c = 1 → Becomes (.huntCandidate ⟨c, f⟩) s (tkConflict c u)) ∧
          (¬(s.ringSt c = 1 ∧ t.role c = 1) →
            (frameOk f = false → Becomes (.huntCandidate ⟨c, f⟩) s u) ∧
            (frameOk f = true → s.ringSt c = 2 →
              Becomes (.huntCandidate ⟨c, f⟩) s (u.setRg c { u.rg c with cands := (u.rg c).cands + 1 })) ∧
            (frameOk f = true → s.ringSt c ≠ 2 → Becomes (.huntCandidate ⟨c, f⟩) s
              ((ringTo c 2 u).setRg c { u.rg c with fromSt := s.ringSt c, cands := 1 })))))) ∧
    (s.ringSt c = 2 → ∀ r : Confirm, s.portRuns c r.frame.port = true →
      let t := checkFrame c r.frame s
      (r.ok = true → r.frame.slot = 0 → t.frameValid c r.frame = true →
        ((t.rg c).wake = none → Becomes (.candidateConfirm c r) s (takeRound c r.frame (enterJoin c t))) ∧
        ∀ no m e, (t.rg c).wake = some (no, m, e) →
          (r.frame.cells.getD 4 0 = no →
            Becomes (.candidateConfirm c r) s (takeRound c r.frame (enterJoin c (wakeOk c m e r.delta t)))) ∧
          (r.frame.cells.getD 4 0 ≠ no → Becomes (.candidateConfirm c r) s (wakeMissed c (t.eExp c m + r.delta) t))) ∧
      ((r.ok = false ∨ r.frame.slot ≠ 0 ∨ t.frameValid c r.frame = false) →
        let u := t.setRg c { t.rg c with cands := (t.rg c).cands - 1 }
        (1 < (t.rg c).cands → Becomes (.candidateConfirm c r) s u) ∧
        ((t.rg c).cands ≤ 1 → Becomes (.candidateConfirm c r) s (ringTo c (t.rg c).fromSt u)))) ∧
    (∀ busy, s.ringSt c = 3 → (s.rg c).fixed = false → s.byHop c = true → s.flag (rgA c 0x2C) 0 = false →
      let x := (s.rg c).probe
      let t := ringSend c (s.probeFrame c x) s
      Becomes (.joinProbe c false busy) s
        (let u := fixPos c x (joinFlag c 2 false t)
         u.setRg c { u.rg c with begun := false }) ∧
      (∀ p, (t.followers c).find? (fun p => decide (x < p) && !busy.contains p) = some p →
        Becomes (.joinProbe c true busy) s (t.setRg c { t.rg c with probe := p })) ∧
      ((t.followers c).find? (fun p => decide (x < p) && !busy.contains p) = none → Becomes (.joinProbe c true busy) s
        (let u := (joinFlag c 2 true t).emit .nopos (.unit (ringUn c)) []
         u.setRg c { u.rg c with probe := (u.followers c).headD 1 }))) ∧
    ((s.ringSt c = 3 ∧ (s.rg c).fixed = true ∨ s.ringSt c = 4) →
      let t := (joinFlag c 1 true s).emit .dupAddr (.unit (ringUn c)) []
      ((s.role c = 1 ∨ s.byHop c = false) → Becomes (.dupAddr c) s (joinFlag c 1 true (ringStopped c t))) ∧
      (s.role c ≠ 1 → s.byHop c = true → Becomes (.dupAddr c) s
        (let u := joinFlag c 4 false (ringTo c 3 t)
         u.setRg c { u.rg c with fixed := false, probe := (s.ringPos c).getD 1, begun := false }))) ∧
    (s.ringSt c = 1 → s.role c = 1 →
      ((s.rg c).wake = none → Becomes (.tkListenEnd c) s (sendMark c (enterRun c s))) ∧
      ∀ no m e, (s.rg c).wake = some (no, m, e) → Becomes (.tkListenEnd c) s
        (sendMark c (enterRun c (s.setRg c { s.rg c with round := no - 1, sleep := none })))) ∧
    (s.ringSt c = 4 → s.sendsMarks c = true → ∀ rank,
      (s.role c = 1 → Becomes (.foreignMark c false rank) s (tkConflict c s) ∧
        Becomes (.foreignMark c true rank) s (s.emit .tkConflict (.unit (ringUn c)) [])) ∧
      (s.role c ≠ 1 →
        (∀ b, (b = false ∨ rank < s.rank c) → Becomes (.foreignMark c b rank) s
          (let t := joinFlag c 4 false (ringTo c 1 s)
           (t.setRg c { t.rg c with fixed := false, begun := false, cands := 0, fromSt := 1, bkWait := false, stop := 0 }).emit
             .tkYield (.unit (ringUn c)) [])) ∧
        (s.rank c < rank → Becomes (.foreignMark c true rank) s (s.emit .tkConflict (.unit (ringUn c)) [])) ∧
        (s.rank c = rank → Becomes (.foreignMark c true rank) s s))) ∧
    (s.role c = 2 → s.rank c ≠ 0 → s.ringPos c = some (s.rank c) → (s.ringSt c = 7 ∨ s.ringSt c = 1 ∧ (s.rg c).bkWait = true) →
      Becomes (.tkTakeover c) s
        (sendMark c ((enterRun c (joinFlag c 4 true (fixPos c (s.rank c) s))).emit .tkTakeover (.unit (ringUn c)) []))) ∧
    (∀ port, port < 2 → s.ringSt c ≠ 0 → s.ringSt c ≠ 6 → s.flag (rgA c 0x44) (wrapBit port) = false →
      Becomes (.ringWrap c port) s ((joinFlag c (wrapBit port) true ((s.setFlag (rpA c port 0) 0 false).setFlag
        (rpA c port 0) 1 true)).emit .ringWrap (.unit (ringUn c)) [fn port])) ∧
    (∀ port, s.portRuns c port = true →
      (s.flag (rgA c 0x44) (wrapBit port) = false → Becomes (.portUp c port) s (s.setFlag (rpA c port 0) 0 true)) ∧
      (s.flag (rgA c 0x44) (wrapBit port) = true → s.ringSt c ≠ 4 →
        Becomes (.portUp c port) s (unwrap c port (s.setFlag (rpA c port 0) 0 true))) ∧
      (s.flag (rpA c port 0) 0 = true → s.flag (rgA c 0x44) (wrapBit port) = true →
        Becomes (.ringUnwrap c port) s (unwrap c port s)))

/-- Cocoon sleep (R373 to R377): the line sets the entry round and the length; at the entry round the links stop and the latches
act; the sleep timer, at its count and no other, advances the timestamp by the time slept, corrected by the sleep trim, and takes
the controller to LISTEN; a mark that is not found sends it to LOST. Completion: Machine.exec answers the next state that holds its
own effect, for cocoonEnter, sleepTimerFire, wakeMiss, ringCocoon. -/
def Obligations.CocoonSleep : Prop :=
  ∀ (c : Nat) (s : State), Memory.wf s = true →
    (∀ no m, s.ringRuns c = true → s.ringSt c = 4 → (s.rg c).sleep = some (no, m) → (s.rg c).round = no → ∃ t,
      Machine.exec (.cocoonEnter c) s = .next t ∧ t.ringSt c = 6 ∧
      (∀ g, g < s.member.groups → s.powered g = true → t.linkUp g = false ∧
        ((s.gr g).vf = true → (s.gr g).acts = false → t.flag (aGstat g) 2 = true))) ∧
    (∀ e r, c < s.member.rings → s.ringSt c = 6 → s.dead = false → e = s.eOpen c (((s.rg c).sleep.map (·.2)).getD 0) →
      ∃ t, Machine.exec (.sleepTimerFire c e r) s = .next t ∧ t.ringSt c = 1 ∧
      t.clk.ts = s.clk.ts + BitVec.ofInt 64 (roundDiv ((e * 400 : Nat) * (100000000 + s.sleepTrim)) 100000000) ∧
      t.fld (rgA c 0x50) 16 16 = (s.fld (rgA c 0x50) 16 16 + 1) % 2 ^ 16) ∧
    (∀ e r, e ≠ s.eOpen c (((s.rg c).sleep.map (·.2)).getD 0) → Becomes (.sleepTimerFire c e r) s s) ∧
    (∀ no m e, s.ringRuns c = true → (s.ringSt c = 1 ∨ s.ringSt c = 2) → s.role c ≠ 1 → (s.rg c).wake = some (no, m, e) →
      Becomes (.wakeMiss c) s (wakeMissed c (s.eExp c m + s.guard c m) s)) ∧
    (∀ ln q no, Inv s → c < s.member.rings → Passes ln {} s → qBad q .s = false → s.sup.armed = false → s.ringSt c = 4 →
      (s.ringSt (1 - c) = 0 ∨ s.ringSt (1 - c) = 5) → no < 2 ^ 32 →
      1 ≤ (word no - (s.rg c).round).toNat → (word no - (s.rg c).round).toNat ≤ 65535 →
      s.sleepRounds c q * s.period c ≤ 604800000000 →
      s.guard c (s.sleepRounds c q) + s.lead c < s.sleepRounds c q * s.period c →
      Does (.ringCocoon ln c q (some no)) ln .ok s
        ((accepted ln {} s).setRg c { s.rg c with sleep := some (word no, s.sleepRounds c q) }))

/-- The ring lines of chapter 13 (R12, R358, R360, R367, R368, R370, R375, R380, R381, R384): role, segment, position mode and
table, bridge, bridge entries and reach of stopped controllers; the drift and the port counters of any. Completion: Machine.exec
answers the next state that holds its own effect, for ringRho, ringPortClear, ringRole, ringSeg, ringPosm, ringPostab, ringBridge,
ringBridgeEntry, ringReachDown, ringSleepGet, ringPortGet. -/
def Obligations.RingSetup : Prop :=
  ∀ (ln : Line) (c : Nat) (s : State), Inv s → c < s.member.rings →
    (Passes ln {} s → let a := accepted ln {} s
      (∀ q, qBad q .ppm = false → 2 ≤ qSteps q .ppm 1 1 → qSteps q .ppm 1 1 ≤ 100 →
        Does (.ringRho ln c q) ln .ok s (a.setFld (rgA c 0x48) 0 7 (qSteps q .ppm 1 1).toNat)) ∧
      (∀ port, port < 2 → Does (.ringPortClear ln c port) ln .ok s
        (((a.setReg (rpA c port 4) 0).setReg (rpA c port 8) 0).setReg (rpA c port 0xC) 0)) ∧
      (s.fenced .shadow = false → s.fenced (ringUn c) = false → (s.ringSt c = 0 ∨ s.ringSt c = 5) →
        Does (.ringRole ln c .tk) ln .ok s (a.setFld (rgA c 0x40) 0 4 1) ∧
        Does (.ringRole ln c .follower) ln .ok s (a.setFld (rgA c 0x40) 0 4 0) ∧
        (∀ k, 0 < k → k ≤ 3 → Does (.ringRole ln c (.backup k)) ln .ok s (a.setFld (rgA c 0x40) 0 4 (2 + 4 * k))) ∧
        (∀ n, n ≤ 255 → Does (.ringSeg ln c n) ln .ok s (a.setFld (rgA c 0x40) 8 8 n)) ∧
        (∀ p : Posm, Does (.ringPosm ln c p) ln .ok s
          (a.setFld (rgA c 0x40) 4 2 (match p with | .hop => 0 | .table => 1 | .either => 2))) ∧
        (∀ e, e ≤ 255 → Does (.ringPostab ln c e none) ln .ok s (writePostab c e 0 0 a) ∧
          ∀ u p, 0 < p → p ≤ 255 → Does (.ringPostab ln c e (some (u, p))) ln .ok s (writePostab c e u (0x100 + p) a))) ∧
      (s.fenced .shadow = false → (s.ringSt 0 = 0 ∨ s.ringSt 0 = 5) → (s.ringSt 1 = 0 ∨ s.ringSt 1 = 5) →
        (∀ on b, s.member.rings = 2 → Does (.ringBridge ln on (some b)) ln .ok s
          ((a.setFlag (rgA 1 0x40) 6 on).setFlag (rgA 1 0x40) 7 b)) ∧
        (∀ on b, s.member.rings < 2 → Does (.ringBridge ln on b) ln .ok s a) ∧
        (∀ e src slot cell n j d, src < 2 → s.member.rings < 2 →
          Does (.ringBridgeEntry ln e src slot cell n j d) ln (.err .absent) s a) ∧
        (∀ e src slot cell n j d, src < 2 → s.member.rings = 2 → e ≤ 255 → slot ≤ 4095 → cell ≤ 63 → 0 < n → n ≤ 64 → j ≤ 63 → d ≤ 63 →
          Does (.ringBridgeEntry ln e src slot cell n j d) ln .ok s ((a.setReg (0x4002A000 + 8 * e)
            (word (slot + 0x1000 * src + 0x2000 * cell + 0x80000 * n))).setReg (0x4002A004 + 8 * e) (word (j + 0x40 * d)))) ∧
        (∀ down seg on, seg ≤ 255 → Does (.ringReachDown ln down seg on) ln .ok s
          (a.setFlag ((if down then 0x4002A820 else 0x4002A800) + 4 * (seg / 32)) (seg % 32) on)))) ∧
    (Passes ln { locked := false } s → let a := accepted ln { locked := false } s
      Does (.ringSleepGet ln c) ln (.vals
        [ks "trim" s.sleepTrim 2 "ppm", ky "learned" (s.flag (rgA c 0x44) 7),
         { key := "rho", val := .n (s.fld (rgA c 0x48) 0 7), unit := "ppm" },
         { key := "ofs", val := .n (s.reg (rgA c 0x4C)).toInt, unit := "us" }, kn "wakes" (s.fld (rgA c 0x50) 16 16)]) s a ∧
      ∀ port, port < 2 → ∃ l, Does (.ringPortGet ln c port) ln (.vals l) s a ∧ ky "up" (s.flag (rpA c port 0) 0) ∈ l ∧
        ky "wrap" (s.flag (rpA c port 0) 1) ∈ l ∧ kn "crc" (s.fld (rpA c port 8) 0 16) ∈ l)

/-- The sequences of the profile flash (R404, R406, R407, R415, R416, Table 15.3): a write into a bank that is not busy moves its
sequencer; program, erase, password, protect and clear-status are such writes at their addresses; the five writes of a program start
a program of the word, or end with its result at once: a word with a 1 where the stored data has a 0 ends with PROG_RISE, and one
equal to the stored data fills a field; a wrong step, and 100 ms out of IDLE, abandon the sequence with SEQERR. Completion:
Machine.exec answers the next state that holds its own effect, for pflashSeqStep, programWord, eraseSector, eraseBank,
enterPassword, setPassword, protectGroup, clearStatus, pflashSeqTimeout. -/
def Obligations.FlashSequences : Prop :=
  (∀ (ln : Line) (s : State), Inv s →
    (∀ (off : BitVec 22) (v : Word), let f : Form := { secret := (taken ln s).pwSecret off.toNat }
      Passes ln f s → aligned off.toNat = true → s.pfBusy (pfBank off.toNat) = false →
      s.pfWho (pfBank off.toNat) = none → s.pwBlocked off.toNat = false →
      Does (.pflashSeqStep ln off v) ln .ok s (pfWrite ln.ep off.toNat v (accepted ln f s)) ∧
      Does (.programWord ln off v) ln .ok s (pfWrite ln.ep off.toNat v (accepted ln f s)) ∧
      Does (.eraseSector ln off) ln .ok s (pfWrite ln.ep off.toNat 0x21 (accepted ln f s))) ∧
    (∀ pb1 : Bool, let b := if pb1 then 1 else 0
      let f : Form := { secret := (taken ln s).pwSecret (pfBase pb1) }
      Passes ln f s → s.pfBusy b = false → s.pfWho b = none → s.pwBlocked (pfBase pb1) = false →
      Does (.eraseBank ln pb1) ln .ok s (pfWrite ln.ep (pfBase pb1) 0x2E (accepted ln f s))) ∧
    (∀ (pb1 : Bool) (v : Word) (k : BitVec 2), let b := if pb1 then 1 else 0
      let off := pfBase pb1 + 0xA48
      let f : Form := { secret := (taken ln s).pwSecret off }
      Passes ln f s → s.pfBusy b = false → s.pfWho b = none → s.pwBlocked off = false →
      Does (.enterPassword ln pb1 v) ln .ok s (pfWrite ln.ep off v (accepted ln f s)) ∧
      Does (.setPassword ln pb1 v) ln .ok s (pfWrite ln.ep off v (accepted ln f s)) ∧
      Does (.protectGroup ln pb1 k) ln .ok s (pfWrite ln.ep off (k.setWidth 32) (accepted ln f s)) ∧
      Does (.clearStatus ln pb1) ln .ok s (pfWrite ln.ep off 0x90 (accepted ln f s))) ∧
    (∀ b, s.flashRuns = true → b < 2 → (s.pfSeq b).step ≠ 0 → Becomes (.pflashSeqTimeout b) s
      ((setPfSeq b {} s).setFld (aPst b) 8 4 5))) ∧
  (∀ (e : Ep) (b : Nat) (s : State), Memory.wf s = true → b < 2 → s.pfSeq b = {} → s.pfOp b = none →
    let base := 0x200000 * b
    let open2 := pfWrite e (base + 0x152C) 0xB0 (pfWrite e (base + 0xA48) 0x4F s)
    (open2.pfSeq b).step = 2 ∧ open2.regs = s.regs ∧
    (∀ (a : Nat) (l h : Word), a % 8 = 0 → base ≤ a → a < base + 0x200000 →
      let t := pfWrite e (a + 4) h (pfWrite e a l (pfWrite e (base + 0xA48) 0x30 open2))
      t.pfSeq b = {} ∧
      (pfFixed a = false → s.guarded a = false → progCode (s.pfWord a) (h ++ l) = 0 →
        t.pfOp b = some (.program a (h ++ l)) ∧ t.regs = s.regs) ∧
      (pfFixed a = true → t.pfOp b = none ∧ t.fld (aPst b) 8 4 = 6 ∧ t.flag (aPst b) 4 = true ∧ t.pf.words = s.pf.words) ∧
      (pfFixed a = false → s.guarded a = true →
        t.pfOp b = none ∧ t.fld (aPst b) 8 4 = 4 ∧ t.flag (aPst b) 4 = true ∧ t.pf.words = s.pf.words) ∧
      (pfFixed a = false → s.guarded a = false → ((s.pfWord a).f1 && (s.pfWord a).f2) = false →
        (∃ i, (h ++ l).getLsbD i = true ∧ (s.pfWord a).data.getLsbD i = false) →
        t.pfOp b = none ∧ t.fld (aPst b) 8 4 = 2 ∧ t.flag (aPst b) 4 = true ∧ t.pf.words = s.pf.words) ∧
      (((s.pfWord a).f1 && (s.pfWord a).f2) = false → (pfProgram a (s.pfWord a).data s).1 = 0 ∧
        ((pfProgram a (s.pfWord a).data s).2.pfWord a).f1 = true ∧
        ((pfProgram a (s.pfWord a).data s).2.pfWord a).f2 = (s.pfWord a).f1)) ∧
    (∀ off v, pfBank off = b → off % 0x200000 ≠ 0xA48 →
      let t := pfWrite e off v open2
      (t.pfSeq b).step = 0 ∧ t.fld (aPst b) 8 4 = 5 ∧ t.pf.words = s.pf.words))

/-- The ends of the operations of a bank (R410, R425, R431): a program writes its word and records its result, an erase clears its
sector, and a snapshot of a tally ends through TALLY_SNAPSHOT_DONE; a brown-out aborts the operation. Completion: Machine.exec
answers the next state that holds its own effect, for pflashOpComplete, tallySnapshotStart, tallySnapshotDone. -/
def Obligations.FlashEnds : Prop :=
  ∀ (b : Nat) (s : State), Inv s → b < 2 → s.flashRuns = true →
    (∀ a v, s.pfOp b = some (.program a v) → progCode (s.pfWord a) v = 0 → s.pfWho b = none →
      ∃ t, Machine.exec (.pflashOpComplete b false) s = .next t ∧ t.pfOp b = none ∧
        t.pfWord a = { data := v, f1 := true, f2 := (s.pfWord a).f1, ecc := .ok } ∧ t.fld (aPst b) 8 4 = 0 ∧
        t.flag (aPst b) 4 = true ∧ ∀ x, x / 8 ≠ a / 8 → t.pfWord x = s.pfWord x) ∧
    (∀ a, s.pfOp b = some (.eraseSector a [] false) → a % 4096 = 0 → s.pfWho b = none →
      ∃ t, Machine.exec (.pflashOpComplete b false) s = .next t ∧ t.pfOp b = none ∧ t.flag (aPst b) 4 = true ∧
        (∀ x, a ≤ x → x < a + 0x1000 → t.pfWord x = {}) ∧ ∀ x, (x < a ∨ a + 0x1000 ≤ x) → t.pfWord x = s.pfWord x) ∧
    (∀ k, s.pfOp b = some k → k.isSnap = false →
      Becomes (.pflashOpComplete b true) s (pfAbort b k s) ∧ Becomes (.pflashOpComplete b false) s (pfComplete b k s)) ∧
    (∀ n v l, s.pf.queue = (n, v) :: l → s.replaying = false → s.tallyNow = none →
      (s.fenced .pflash = true → Becomes .tallySnapshotStart s (tallyFail n { s with pf := { s.pf with queue := l } })) ∧
      (s.fenced .pflash = false → Becomes .tallySnapshotStart s (startSnap n v s))) ∧
    (∀ n v a q bod, s.pfOp b = some (.tally n v a q) → s.pfOp (1 - b) = none → Becomes (.tallySnapshotDone bod) s
      (if bod then pfAbort b (.tally n v a q) s else pfComplete b (.tally n v a q) s))

/-- The prof, tally and cvu lines (R187, R398, R412, R414, R417, R419, R423, R433): reads answer what the flash holds; program,
protect, password and swap wait for their operation with the line kept; the erases answer at once. Completion: Machine.exec answers
the next state that holds its own effect, for profGet, tallyGet, cvuGet, cvuClear, profWord, profCrc, tallySave, profErase,
profEraseSlot, profWipe, profProgram, profProtect, profSwap, profPassword. -/
def Obligations.ProfileLines : Prop :=
  ∀ (ln : Line) (s : State), Inv s →
    (Passes ln { locked := false } s → let a := accepted ln { locked := false } s
      (s.pfBusy 0 = false → s.pfBusy 1 = false → ∃ l, Does (.profGet ln) ln (.vals l) s (readSlot 1 (readSlot 0 a)) ∧
        kw "pw" (if s.pwSet then "set" else "unset") ∈ l ∧ kw "session" (if s.session then "open" else "closed") ∈ l) ∧
      (∀ ch : ChRef, ch.g < s.member.groups → ch.c < 16 → ∃ l, Does (.tallyGet ln ch) ln (.vals l) s a ∧
        kn "sector" (s.ladder ch.n).sector ∈ l ∧ kw "state" (if (s.ladder ch.n).failed then "fail" else "ok") ∈ l) ∧
      (∀ u i, cvuNum u = some i → s.hasUnit u = true → Does (.cvuGet ln u) ln (.vals
        [kw "state" (if s.fenced u then "fenced" else "ok"), kn "lastkat" (s.katAge i),
         kn "checked" (a.reg (aCvu i 4)).toNat, kn "errors" (a.reg (aCvu i 8)).toNat]) s a)) ∧
    (Passes ln {} s → let a := accepted ln {} s
      (∀ u i, cvuNum u = some i → s.hasUnit u = true →
        Does (.cvuClear ln u) ln .ok s ((a.setReg (aCvu i 4) 0).setReg (aCvu i 8) 0)) ∧
      (∀ x, x < 0x400000 → x % 4 = 0 → s.pfBusy (pfBank x) = false → ∃ l, Does (.profWord ln (0x80000000 + x)) ln (.vals l) s
        (pfRead (x / 8 * 8) a).2 ∧ { val := .hex ((pfRead (x / 8 * 8) s).1.extractLsb' 0 32) } ∈ l ∧
        { val := .hex ((pfRead (x / 8 * 8) s).1.extractLsb' 32 32) } ∈ l) ∧
      (∀ b : Bool, s.pfBusy b.toNat = false → Does (.profCrc ln b) ln (.vals [fw (hex4 (s.slotCrc b.toNat).toNat)]) s
        (readSlot b.toNat a)) ∧
      (s.fenced .pflash = false →
        Does (.tallySave ln none) ln .ok s (forAll s.chans persist a) ∧
        (∀ ch : ChRef, ch.g < s.member.groups → ch.c < 16 → Does (.tallySave ln (some ch)) ln .ok s (persist ch.n a)) ∧
        (∀ x, x < 0x400000 → pfFixed (x / 4096 * 4096) = false → s.guarded (x / 4096 * 4096) = false → s.pfBusy (pfBank x) = false →
          (s.pfSeq (pfBank x)).step = 0 → Does (.profErase ln (0x80000000 + x)) ln .ok s
            (setPfOp (pfBank x) (some (.eraseSector (x / 4096 * 4096) [] true)) a)) ∧
        (∀ b : Bool, s.bestSlot ≠ some b.toNat → s.guarded (slotA b.toNat) = false → s.pfBusy b.toNat = false →
          (s.pfSeq b.toNat).step = 0 → Does (.profEraseSlot ln b) ln .ok s (setPfOp b.toNat (some (.eraseSector (slotA b.toNat)
            ((List.range 63).map fun i => slotA b.toNat + 0x1000 * (i + 1)) true)) a)) ∧
        (∀ b, b < 2 → s.pfBusy b = false → (s.pfSeq b).step = 0 →
          Does (.profWipe ln b) ln .ok s (setPfOp b (some (.eraseBank true)) a)) ∧
        (∀ x v, x < 0x400000 → x % 8 = 0 → pfFixed x = false → s.guarded x = false → s.pfBusy (pfBank x) = false →
          (s.pfSeq (pfBank x)).step = 0 → progCode (s.pfWord x) v = 0 →
          ∃ t, Machine.exec (.profProgram ln (0x80000000 + x) v) s = .next t ∧ Stays (some ln.ep) noReg
            (setPfOp (pfBank x) (some (.program x v)) (setPfWho (pfBank x) (some ln) s)) t) ∧
        (∀ k, k < 8 → s.pfBusy (k / 4) = false → (s.pfSeq (k / 4)).step = 0 → s.pwSet = true → progCode (s.pfWord (protWord k)) 0 = 0 →
          ∃ t, Machine.exec (.profProtect ln k) s = .next t ∧ Stays (some ln.ep) noReg
            (setPfOp (k / 4) (some (.protect k)) (setPfWho (k / 4) (some ln) s)) t) ∧
        (∀ (b : Bool) crc, s.sealed b.toNat = false → s.newGen ≤ 0xFFFFFFFE → crc ≤ 0xFFFF → s.guarded (sealA 0) = false →
          s.guarded (sealA 1) = false → s.pfBusy 0 = false → s.pfBusy 1 = false → (s.pfSeq b.toNat).step = 0 →
          ∃ t, Machine.exec (.profSwap ln b crc) s = .next t ∧ Stays (some ln.ep) noReg
            (let k := PfKind.swap 1 b.toNat (BitVec.ofNat 16 crc) s.newGen
             setPfOp 1 (some k) (setPfOp 0 (some k) (setPfWho b.toNat (some ln) s))) t))) ∧
    (Passes ln { secret := true } s → s.fenced .pflash = false → s.pfBusy 0 = false → s.pfBusy 1 = false → (s.pfSeq 0).step = 0 →
      s.pwSet = false → ∀ pw, pw ≠ 0xFFFFFFFFFFFFFFFF → ∃ t, Machine.exec (.profPassword ln (some pw)) s = .next t ∧
        Stays (some ln.ep) noReg (setPfOp 0 (some (.setPw pw)) (setPfOp 1 (some (.setPw pw)) (setPfWho 0 (some ln) s))) t)

/-- The ends of the operations of the record flash (R439, R441, R444, R448 to R451, R455, R459): a host's operation ends with its
page or block, its result and RFLASH_DONE, and one of the table writer or of Chrysalis goes on; a table write that is due starts;
the scrubber counts what it meets. Completion: Machine.exec answers the next state that holds its own effect, for rflashOpComplete,
tableWrite, trailScrub. -/
def Obligations.RecordFlashEnds : Prop :=
  ∀ (s : State), s.flashRuns = true →
    (∀ b o fail, s.rfOp b = some o →
      let code := if !fail then 0 else if o.erase then 2 else 1
      let t := rfEnd b code s
      (o.owner = .host → o.erase = true →
        Becomes (.rflashOpComplete b fail) s (copyOn (rfDone b o code (eraseEnds b o.block fail t)))) ∧
      (o.owner = .host → o.erase = false →
        Becomes (.rflashOpComplete b fail) s (copyOn (rfDone b o code (programEnds b o.block o.page o.img fail t)))) ∧
      (o.owner = .table → Becomes (.rflashOpComplete b fail) s (copyOn (tableOpEnds b o fail t))) ∧
      (o.owner = .chrys → o.erase = true →
        Becomes (.rflashOpComplete b fail) s (copyOn (eraseEnds b o.block fail (capOpDone b o fail t)))) ∧
      (o.owner = .chrys → o.erase = false → Becomes (.rflashOpComplete b fail) s
        (copyOn (programEnds b o.block o.page o.img fail (capOpDone b o fail t))))) ∧
    (s.tableReady = true → s.replaying = false → Becomes .tableWrite s (writeTable s)) ∧
    (∀ w, s.fenced .trail = false → 8 * w < (s.reg 0x70F08).toNat → 8 * w < s.member.trailSize →
      Becomes (.trailScrub w .ok) s s ∧ Becomes (.trailScrub w .corrected) s (s.count 0x70F0C) ∧
      Becomes (.trailScrub w .bad) s (trailEcc w s))

/-- The cells of the record flash (R439, R444, R450, R451): a program in page order stores its data area, one against the order
leaves every page of its block undefined; an erase makes its block read ones and is counted; a failed operation makes the block bad.
-/
def Obligations.PageRules : Prop :=
  ∀ (b blk p : Nat) (img : Page) (s : State), Memory.wf s = true → blk < 64 → p < 256 → 2 ≤ blk →
    (sget 0 s.rf.nextPg (rfBlock b blk) ≤ p →
      let t := rfPrograms b blk p img s
      (t.rfPage b blk p).prog = true ∧ (∀ i, i < 4096 → (t.rfPage b blk p).get i = img.get i) ∧ t.regs = s.regs ∧
      sget 0 t.rf.nextPg (rfBlock b blk) = p + 1 ∧
      ∀ c k q, k < 64 → q < 256 → (c, k, q) ≠ (b, blk, p) → t.rfPage c k q = s.rfPage c k q) ∧
    (p < sget 0 s.rf.nextPg (rfBlock b blk) →
      let t := rfPrograms b blk p img s
      ∀ q, q < 256 → (t.rfPage b blk q).fill = .undef (s.freeIdx + q) ∧ (t.rfPage b blk q).prog = true) ∧
    (let t := rfErased b blk s
     (∀ q, q < 256 → t.rfPage b blk q = {}) ∧ sget 0 t.rf.nextPg (rfBlock b blk) = 0 ∧
     ∀ c k q, k < 64 → q < 256 → rfBlock c k ≠ rfBlock b blk → t.rfPage c k q = s.rfPage c k q) ∧
    (rfBlock b blk < 512 → s.rfBad (rfBlock b blk) = false →
      let t := markBad (rfBlock b blk) "host" s
      t.rfBad (rfBlock b blk) = true ∧ t.rf.due = true ∧ ∀ n, n ≠ rfBlock b blk → t.rfBad n = s.rfBad n)

/-- The rflash lines (R442, R445 to R447, R449, R451 to R453, R458): program and erase start an operation in a bank that is idle,
unclaimed and good; read fills HBUF and answers; bad, retry and sync write; get, block get and hex read. Completion: Machine.exec
answers the next state that holds its own effect, for rflashGet, rflashBlockGet, rflashHex, rflashRetry, rflashSync, rflashBad,
rflashRead, rflashProgram, rflashErase. -/
def Obligations.RecordFlashLines : Prop :=
  ∀ (ln : Line) (s : State), Inv s →
    (Passes ln { locked := false } s → let a := accepted ln { locked := false } s
      (∃ l, Does (.rflashGet ln) ln (.vals l) s a ∧ kn "banks" s.member.banks ∈ l ∧ kn "bad" s.badBlocks ∈ l ∧
        kn "table" (s.reg 0x80108).toNat ∈ l) ∧
      (∀ b blk, b < s.member.banks → blk < 64 → Does (.rflashBlockGet ln b blk) ln (.vals
        [kn "erases" (s.rfCount (rfBlock b blk)),
         kw "bad" (if s.rf.fact.getLsbD (rfBlock b blk) then "factory" else if s.rf.bad.getLsbD (rfBlock b blk) then "runtime" else "no"),
         ky "worn" (decide (3000 ≤ s.rfCount (rfBlock b blk)))]) s a)) ∧
    (Passes ln {} s → s.fenced .rflash = false → let a := accepted ln {} s
      (∀ off, off % 32 = 0 → off < 18432 → let l := (List.range 8).map fun i => s.rf.hbuf.get (off / 4 + i)
        Does (.rflashHex ln off) ln (.vals [{ val := .bytes (wordsBytes l) }]) s
          (a.record 0x08 1 0 (word (0x88000 + off) :: l))) ∧
      Does (.rflashRetry ln none) ln .ok s (a.setFlag 0x80100 0 false) ∧
      (∀ r : BitVec 3, Does (.rflashRetry ln (some r)) ln .ok s ((a.setFlag 0x80100 0 true).setFld 0x80100 1 3 r.toNat)) ∧
      Does (.rflashSync ln) ln .ok s (tableDue a) ∧
      (∀ b blk, b < s.member.banks → blk < 64 →
        Does (.rflashBad ln b blk) ln .ok s (markBad (rfBlock b blk) "host" a) ∧
        (s.rfBusy b = false → ∀ p, p < 256 →
          (∀ r, ∃ l, Does (.rflashRead ln b blk p r) ln (.vals l) s (readPage b blk p r a).2 ∧
            kn "rt" (readPage b blk p r s).1.rt ∈ l) ∧
          (s.rfBad (rfBlock b blk) = false → s.flag 0x80104 b = false → (b ≠ 0 ∨ 2 ≤ blk) → s.sup.holdupLow = false →
            Does (.rflashProgram ln b blk p) ln .ok s (setRfOp b
              (some { erase := false, block := blk, page := p, owner := .host, img := s.rf.hbuf }) a) ∧
            Does (.rflashErase ln b blk) ln .ok s (setRfOp b (some { erase := true, block := blk, owner := .host }) a)))))

/-- What Chrysalis does on its own (R469, R471, R473, R474, R484, R486 to R489): keyframes, output sums, the end of a window, the
pending capsule, the end of staging, a record injected into the replayed pipeline at its recorded offset, with fast as soon as the
one before it, and the end of a replay. Completion: Machine.exec answers the next state that holds its own effect, for keyframe,
keyframeComplete, osum, postWindowEnd, pendingCapsuleStart, replayStagingDone, recordInject, replayEnd. -/
def Obligations.ChrysalisEvents : Prop :=
  ∀ (s : State), s.dead = false →
    (s.asleep = false →
      Becomes .keyframe s (copyOn (takeKeyframe s)) ∧ Becomes .keyframeComplete s (copyOn (endKeyframe s)) ∧
      (s.chrys.run = true → Becomes .osum s (copyOn (s.recordFree 0x24 0 0 6))) ∧
      Becomes .postWindowEnd s (copyOn (closeCap false s)) ∧
      (∀ p, s.chrys.pend = some p → s.chrys.cap = none →
        let t := (clearPend s).startCapsule p
        Becomes .pendingCapsuleStart s (copyOn (if t.chrys.run then t else closeCap false t)))) ∧
    (∀ r, s.chrys.replay = some r → s.fld aRecStat 0 3 = 1 →
      (r.id = none → ∀ d, ∃ t, Machine.exec (.replayStagingDone d) s = .next t ∧
        (Memory.wf s = true → t.fld aRecStat 0 3 = 2)) ∧
      (∀ id, r.id = some id → ∃ t, Machine.exec (.replayStagingDone none) s = .next t ∧
        (Memory.wf s = true → t.fld aRecStat 0 3 = 2)) ∧
      (∀ id p, r.id = some id → ∃ t, Machine.exec (.replayStagingDone (some p)) s = .next t ∧
        (Memory.wf s = true → t.fld aRecStat 0 3 = 4 ∧ t.fld aDivKind 0 4 = 5 ∧ t.reg 0x7003C = word p))) ∧
    (∀ r x, s.chrys.replay = some r → s.fld aRecStat 0 3 = 2 →
      (s.injects r = false → Becomes (.recordInject x) s s) ∧
      (s.injects r = true →
        let u := { s with chrys := { s.chrys with replay := some (s.injected r) } }
        let last := x.last || s.atLast r
        (x.divs = [] → s.atGap r = true → Becomes (.recordInject x) s (endReplay 4 u)) ∧
        (x.divs = [] → s.atGap r = false → last = true →
          Becomes (.recordInject x) s (endReplay (if s.fld aDivKind 16 16 = 0 then 1 else 2) u)) ∧
        (x.divs = [] → s.atGap r = false → last = false → Becomes (.recordInject x) s u) ∧
        (∀ d l, x.divs = d :: l → r.nostop = false → Becomes (.recordInject x) s (endReplay 2 (diverge d u))) ∧
        (r.nostop = true → x.divs ≠ [] → s.atGap r = false → last = false →
          Becomes (.recordInject x) s (x.divs.foldl (fun v d => diverge d v) u)))) ∧
    (∀ r, (s.due r ≤ r.cycle s.clk.raw → s.injects r = true) ∧ (r.fast = true → s.injects r = true) ∧
      (s.injected r).at_ = s.due r ∧ s.due r ≤ (s.injected r).cycle s.clk.raw ∧
      ((s.recAt (r.next / 8)).isInput = true →
        (s.injected r).pipe.inputs = (s.due r, s.recAt (r.next / 8)) :: r.pipe.inputs)) ∧
    (∀ r counts, s.chrys.replay = some r → s.fld aRecStat 0 3 = 4 → ∃ t, Machine.exec (.replayEnd counts) s = .next t ∧
      t.chrys.replay = none ∧ t.wdog.reload = s.clk.raw - r.wdRun ∧ t.member = s.member)

/-- The rec lines (R462, R469, R471 to R473, R476, R480, R481, R483, R484, R488, R491): settings write their registers, freeze and
free act on the trail, replay is entered, paused, continued and stopped, and get, list, cap get and result read. Completion:
Machine.exec answers the next state that holds its own effect, for recOnOff, recOverwrite, recTriggerCfg, recKeyframe, recOsum,
recWindow, recClaim, recFreeze, recFreeTrail, recCapErase, recReplay, recReplayPause, recReplayContinue, recReplayStop, recGet,
recList, recCapGet, recResult. -/
def Obligations.RecLines : Prop :=
  ∀ (ln : Line) (s : State), Inv s →
    (Passes ln {} s → let a := accepted ln {} s
      (∀ on, Does (.recOnOff ln on) ln .ok s (regWrite 0x70000 (setBit (s.reg 0x70000) 0 on) a) ∧
        Does (.recOverwrite ln on) ln .ok s (a.setFlag 0x70000 1 on) ∧
        ∀ x : TrigName, Does (.recTriggerCfg ln x on) ln .ok s (a.setFlag 0x70008 x.ctorIdx on)) ∧
      (∀ q, qBad q .ms = false → 100 ≤ qSteps q .ms 1 1000000 → qSteps q .ms 1 1000000 ≤ 10000 →
        Does (.recKeyframe ln q) ln .ok s (a.setReg 0x70010 (wordI (qSteps q .ms 1 1000000)))) ∧
      (∀ q, qBad q .us = false → 100 ≤ qSteps q .us 1 1000 → qSteps q .us 1 1000 ≤ 10000 →
        Does (.recOsum ln q) ln .ok s (a.setReg 0x70014 (wordI (qSteps q .us 1 1000)))) ∧
      (∀ p q, qBad p .s = false → qBad q .s = false → 1 ≤ qSteps p .s 1 1000000000 → qSteps p .s 1 1000000000 ≤ 3600 →
        0 ≤ qSteps q .s 1 1000000000 → qSteps q .s 1 1000000000 ≤ 600 → Does (.recWindow ln p q) ln .ok s
          (a.setReg 0x7000C (wordI (qSteps p .s 1 1000000000 + 0x10000 * qSteps q .s 1 1000000000)))) ∧
      (∀ bs, (∀ b ∈ bs, b < s.member.banks) → Does (.recClaim ln bs) ln .ok s (a.setReg 0x70018 (bitsOf (dedup bs)))) ∧
      (s.fenced .chrys = false → s.fenced .trail = false → Does (.recFreeze ln) ln .ok s (copyOn (a.trigger 0x1F 0xFFFF))) ∧
      Does (.recFreeTrail ln) ln .ok s (copyOn ({ a with chrys := { a.chrys with trailCap := none } }.setFlag aRecStat 6 false)) ∧
      (∀ d, d ∈ s.chrys.dir → s.fenced .rflash = false → a.chrys.cap = none →
        Does (.recCapErase ln d.id) ln .ok s (copyOn (eraseCap d.id a))) ∧
      (∀ c from_ step groups kfs fast nostop, s.sup.armed = false → s.ringLive = false → a.chrys.cap = none →
        s.replayable c = some (step, groups, kfs) → step = s.member.sysId.extractLsb' 0 8 → groups ≤ s.member.groups →
        (∀ k, from_ = some k → k < kfs) → s.fenced .chrys = false → s.fenced .trail = false → s.fenced .rflash = false →
        s.fenced .cvuF = false → Does (.recReplay ln c from_ fast nostop) ln .ok s (enterReplay c from_ fast nostop a))) ∧
    (Passes ln { replay := false } s → let a := accepted ln { replay := false } s
      (s.fld aRecStat 0 3 = 2 → Does (.recReplayPause ln) ln .ok s (pauseReplay a)) ∧
      (s.fld aRecStat 0 3 = 3 → Does (.recReplayContinue ln) ln .ok s (continueReplay a) ∧
        Does (.recReplayStop ln) ln .ok s (endReplay 3 a))) ∧
    (Passes ln { locked := false, replay := false } s → let a := accepted ln { locked := false, replay := false } s
      (∃ l, Does (.recGet ln) ln (.vals l) s a ∧ kb "rec" (s.flag 0x70000 0) ∈ l ∧ kn "epoch" (s.fld 0x70020 0 8) ∈ l) ∧
      (∃ l, Does (.recList ln) ln (.vals l) s a ∧ kn "count" s.chrys.dir.length ∈ l) ∧
      (∀ c l, s.capFlds c = some l → Does (.recCapGet ln c) ln (.vals l) s a) ∧
      (∃ l, Does (.recResult ln) ln (.vals l) s { a with chrys := { a.chrys with unread := false } } ∧
        kw "result" (resultText (s.fld aDivKind 0 4)) ∈ l ∧ kn "count" (s.fld aDivKind 16 16) ∈ l))

/-- A step with a command at the front of the queue is that command on the state with the queue's rest. -/
def Obligations.StepRunsFront : Prop := ∀ (c : Instr) (l : List Instr) (s : State), s.pending = c :: l → step s = Machine.exec c { s with pending := l }

/-- A step on an empty queue passes one cycle of the recording clock, the model's choice (assumption 1), by the timestamp rule of
chapter 3 (R79, R82): a stopped or sleeping part does not count, before PLL lock a root edge counts 16, after it the fraction takes
the trim and its carry goes into the timestamp. -/
def Obligations.IdleCycle : Prop :=
  ∀ s : State, s.pending = [] → ∃ t, step s = .next t ∧ t.pending = [] ∧ t.member = s.member ∧ t.sup = s.sup ∧
    ((s.dead = true ∨ s.asleep = true) → t.clk = s.clk) ∧
    (s.dead = false → s.asleep = false → s.sup.pllLock = false →
      t.clk = { s.clk with raw := s.clk.raw + 16, ts := s.clk.ts + 16 }) ∧
    (s.dead = false → s.asleep = false → s.sup.pllLock = true → s.clk.slewing = false →
      let h : Int := if s.clk.disc then s.clk.ringT else (s.reg 0x10010).toInt
      h < 2 ^ 32 → -(2 ^ 32) < h →
      t.clk.raw = s.clk.raw + 1 ∧ t.clk.frac = BitVec.ofInt 32 (s.clk.frac.toNat + h) ∧
      t.clk.ts = s.clk.ts + BitVec.ofInt 64 (1 + (s.clk.frac.toNat + h).fdiv (2 ^ 32)))

/-- The part right after power is applied (R33, R70, Tables 19.3 to 19.11): held in power-on reset in S0 with the power-on bit alone
set, STARTUP held and present, disarmed, nothing queued, every register at the reset value of its table. The contents of the flashes
and of the trail that no rule states are the model's choice (assumption 3). -/
def Obligations.ResetState : Prop :=
  State.reset.pending = [] ∧ State.reset.sup.inReset = true ∧ State.reset.sup.porHeld = true ∧ State.reset.sup.stage = 0 ∧
  State.reset.sup.armed = false ∧ State.reset.sup.crawl = false ∧ State.reset.evq = [] ∧ State.reset.pwFails = 0 ∧
  State.reset.session = false ∧ State.reset.clk.ts = 0 ∧ State.reset.reg 0x28 = 1 ∧ State.reset.reg 0x30004 = 0x00010001 ∧
  State.reset.reg 0x20000 = 0x03E80000 ∧ State.reset.reg 0x20010 = 0x03E80030 ∧ State.reset.reg 0x70000 = 3 ∧
  State.reset.reg 0x70008 = 0x13F ∧ State.reset.reg 0x7000C = 0x0005001E ∧
  (∀ n, n < 128 → State.reset.reg (chA n 0) = 0 ∧ State.reset.reg (chA n 8) = 0x64 ∧ State.reset.reg (aStat n) = 2 ∧
    State.reset.reg (chA n 0x40) = 0x0A000000 ∧ State.reset.reg (chA n 0x140) = 0x1414000A ∧
    State.reset.reg (chA n 0x340) = 0x0064000A) ∧
  (∀ g, g < 8 → State.reset.reg (grA g 0x44) = 0x100A ∧ State.reset.reg (grA g 0x54) = 0x00640510) ∧
  (∀ k, k ≠ 0x28 → State.reset.reg k = resetWord k)

/-- The invariant holds in the state after power is applied. -/
def Obligations.ResetInv : Prop := Inv State.reset

/-- Every step keeps the invariant: the stores of the part keep their canonical form, the event queue its 256 entries (R129), a tag
cache its 64 (R118, R124), the failed attempts their three (R136) and the stages their end at S8. -/
def Obligations.StepKeepsInv : Prop := ∀ s t : State, Inv s → step s = .next t → Inv t

/-- Every command completes, in every state, and what it raises is in the event queue when it ends (R312): no step ends in a fault
or a refusal. No command changes the member, the identity, or the commands that wait. -/
def Obligations.EveryCommandCompletes : Prop := ∀ (c : Instr) (s : State), ∃ t, Machine.exec c s = .next t ∧ t.evNew = [] ∧ t.pending = s.pending ∧ t.member = s.member ∧ t.uid = s.uid
end

