-- ==== Sys2Proof/Laws/Sparse.lean ====
section
/-!
SUPPORT. The sparse stores: reading after writing, and the canonical form that every operation keeps.
-/
namespace Sys2Proof.Machine

variable {α : Type}

/-- Every key of a store lies above k. -/
def above (k : Nat) (m : Sparse α) : Prop := ∀ p ∈ m, k < p.1

theorem sget_above (d : α) (m : Sparse α) (k : Nat) (h : above k m) : sget d m k = d := by
  induction m with
  | nil => rfl
  | cons p m ih =>
    obtain ⟨i, v⟩ := p
    have hi : k < i := h (i, v) (by simp)
    have : above k m := fun q hq => h q (by simp [hq])
    simp [sget, ih this, Nat.ne_of_gt hi]

/-- The canonical form, cell by cell. -/
theorem swf_cons [DecidableEq α] (d : Nat → α) (k : Nat) (v : α) (m : Sparse α) :
    swf d ((k, v) :: m) = true ↔ v ≠ d k ∧ above k m ∧ swf d m = true := by
  induction m generalizing k v with
  | nil => simp [swf, above]
  | cons p m ih =>
    obtain ⟨i, x⟩ := p
    have h := ih i x
    simp only [swf, Bool.and_eq_true, decide_eq_true_eq, h]
    constructor
    · rintro ⟨⟨h1, h2⟩, h3, h4, h5⟩
      refine ⟨h1, ?_, h3, h4, h5⟩
      intro q hq
      rcases List.mem_cons.1 hq with rfl | hq
      · exact h2
      · exact Nat.lt_trans h2 (h4 q hq)
    · rintro ⟨h1, h2, h3, h4, h5⟩
      exact ⟨⟨h1, h2 (i, x) (by simp)⟩, h3, h4, h5⟩

theorem above_sput (j : Nat) (m : Sparse α) (k : Nat) (v : α) (hj : j < k) (h : above j m) : above j (sput m k v) := by
  induction m with
  | nil => intro p hp; simp only [sput, List.mem_singleton] at hp; simpa [hp] using hj
  | cons p m ih =>
    obtain ⟨i, x⟩ := p
    have hm : above j m := fun q hq => h q (by simp [hq])
    have hi : j < i := h (i, x) (by simp)
    intro q hq
    simp only [sput] at hq
    split at hq
    · rcases List.mem_cons.1 hq with rfl | hq
      · exact hj
      · exact h q hq
    · split at hq
      · rcases List.mem_cons.1 hq with rfl | hq
        · exact hj
        · exact hm q hq
      · rcases List.mem_cons.1 hq with rfl | hq
        · exact hi
        · exact ih hm q hq

theorem above_sdel (j : Nat) (m : Sparse α) (k : Nat) (h : above j m) : above j (sdel m k) := by
  induction m with
  | nil => exact h
  | cons p m ih =>
    obtain ⟨i, x⟩ := p
    have hm : above j m := fun q hq => h q (by simp [hq])
    intro q hq
    simp only [sdel] at hq
    split at hq
    · exact hm q hq
    · rcases List.mem_cons.1 hq with rfl | hq
      · exact h _ (by simp)
      · exact ih hm q hq

theorem swf_sput [DecidableEq α] (d : Nat → α) (m : Sparse α) (k : Nat) (v : α) (hv : v ≠ d k) (h : swf d m = true) :
    swf d (sput m k v) = true := by
  induction m with
  | nil => simpa [sput, swf] using hv
  | cons p m ih =>
    obtain ⟨i, x⟩ := p
    have hc := (swf_cons d i x m).1 h
    simp only [sput]
    split
    · rename_i hk
      refine (swf_cons d k v _).2 ⟨hv, ?_, h⟩
      intro q hq
      rcases List.mem_cons.1 hq with rfl | hq
      · exact hk
      · exact Nat.lt_trans hk (hc.2.1 q hq)
    · split
      · rename_i hk
        subst hk
        exact (swf_cons d i v m).2 ⟨hv, hc.2⟩
      · rename_i h1 h2
        exact (swf_cons d i x _).2 ⟨hc.1, above_sput i m k v (by omega) hc.2.1, ih hc.2.2⟩

theorem swf_sdel [DecidableEq α] (d : Nat → α) (m : Sparse α) (k : Nat) (h : swf d m = true) : swf d (sdel m k) = true := by
  induction m with
  | nil => exact h
  | cons p m ih =>
    obtain ⟨i, x⟩ := p
    have hc := (swf_cons d i x m).1 h
    simp only [sdel]
    split
    · exact hc.2.2
    · exact (swf_cons d i x _).2 ⟨hc.1, above_sdel i m k hc.2.1, ih hc.2.2⟩

/-- A write keeps the canonical form. -/
theorem swf_sset [DecidableEq α] (d : Nat → α) (m : Sparse α) (k : Nat) (v : α) (h : swf d m = true) :
    swf d (sset (d k) m k v) = true := by
  unfold sset
  split
  · exact swf_sdel d m k h
  · rename_i hv; exact swf_sput d m k v hv h

/-- Dropping cells keeps the canonical form. -/
theorem swf_filter [DecidableEq α] (d : Nat → α) (m : Sparse α) (f : Nat × α → Bool) (h : swf d m = true) :
    swf d (m.filter f) = true := by
  induction m with
  | nil => exact h
  | cons p m ih =>
    obtain ⟨i, x⟩ := p
    have hc := (swf_cons d i x m).1 h
    simp only [List.filter_cons]
    split
    · exact (swf_cons d i x _).2 ⟨hc.1, fun q hq => hc.2.1 q (List.mem_filter.1 hq).1, ih hc.2.2⟩
    · exact ih hc.2.2

/-- Changing the values of a store and dropping the cells at the default keeps the canonical form. -/
theorem swf_map_filter [DecidableEq α] (d : α) (m : Sparse α) (f : α → α) (h : swf (fun _ => d) m = true) :
    swf (fun _ => d) ((m.map fun c => (c.1, f c.2)).filter fun c => decide (c.2 ≠ d)) = true := by
  induction m with
  | nil => rfl
  | cons p m ih =>
    obtain ⟨i, x⟩ := p
    have hc := (swf_cons _ i x m).1 h
    simp only [List.map_cons, List.filter_cons]
    split
    · rename_i hx
      refine (swf_cons _ _ _ _).2 ⟨by simpa using hx, ?_, ih hc.2.2⟩
      intro q hq
      have hq := (List.mem_filter.1 hq).1
      obtain ⟨p, hp, rfl⟩ := List.mem_map.1 hq
      exact hc.2.1 p hp
    · exact ih hc.2.2

theorem sget_sput_same (d : α) (m : Sparse α) (k : Nat) (v : α) : sget d (sput m k v) k = v := by
  induction m with
  | nil => simp [sput, sget]
  | cons p m ih =>
    obtain ⟨i, x⟩ := p
    simp only [sput]
    split
    · simp [sget]
    · split
      · simp [sget]
      · rename_i h1 h2; simp [sget, h2, ih]

theorem sget_sput_other (d : α) (m : Sparse α) (k j : Nat) (v : α) (h : j ≠ k) : sget d (sput m k v) j = sget d m j := by
  induction m with
  | nil => simp [sput, sget, Ne.symm h]
  | cons p m ih =>
    obtain ⟨i, x⟩ := p
    simp only [sput]
    split
    · simp [sget, Ne.symm h]
    · split
      · rename_i h1 h2; subst h2; simp [sget, Ne.symm h]
      · simp only [sget, ih]

theorem sget_sdel_other (d : α) (m : Sparse α) (k j : Nat) (h : j ≠ k) : sget d (sdel m k) j = sget d m j := by
  induction m with
  | nil => rfl
  | cons p m ih =>
    obtain ⟨i, x⟩ := p
    simp only [sdel]
    split
    · rename_i h1; subst h1; simp [sget, Ne.symm h]
    · simp only [sget, ih]

theorem sget_sdel_same [DecidableEq α] (d : Nat → α) (m : Sparse α) (k : Nat) (h : swf d m = true) :
    sget (d k) (sdel m k) k = d k := by
  induction m with
  | nil => rfl
  | cons p m ih =>
    obtain ⟨i, x⟩ := p
    have hc := (swf_cons d i x m).1 h
    simp only [sdel]
    split
    · rename_i h1; subst h1; exact sget_above _ _ _ hc.2.1
    · rename_i h1; simp [sget, h1, ih hc.2.2]

/-- A read of another key sees the store as it was. -/
theorem sget_sset_other [DecidableEq α] (d d' : α) (m : Sparse α) (k j : Nat) (v : α) (h : j ≠ k) :
    sget d' (sset d m k v) j = sget d' m j := by
  unfold sset
  split
  · exact sget_sdel_other d' m k j h
  · exact sget_sput_other d' m k j v h

/-- A read after a write of the same key gives the value written, in a canonical store. -/
theorem sget_sset_same [DecidableEq α] (d : Nat → α) (m : Sparse α) (k : Nat) (v : α) (h : swf d m = true) :
    sget (d k) (sset (d k) m k v) k = v := by
  unfold sset
  split
  · rename_i hv; rw [hv]; exact sget_sdel_same d m k h
  · exact sget_sput_same _ m k v

/-- Equal canonical stores: two that read the same at every key are the same list. -/
theorem swf_ext [DecidableEq α] (d : Nat → α) : ∀ (m m' : Sparse α), swf d m = true → swf d m' = true →
    (∀ k, sget (d k) m k = sget (d k) m' k) → m = m' := by
  intro m
  induction m with
  | nil =>
    intro m' _ h' he
    cases m' with
    | nil => rfl
    | cons p m' =>
      obtain ⟨i, x⟩ := p
      have hc := (swf_cons d i x m').1 h'
      have := he i
      simp [sget] at this
      exact absurd this.symm hc.1
  | cons p m ih =>
    obtain ⟨i, x⟩ := p
    intro m' h h' he
    have hc := (swf_cons d i x m).1 h
    cases m' with
    | nil =>
      have := he i
      simp [sget] at this
      exact absurd this hc.1
    | cons p' m' =>
      obtain ⟨j, y⟩ := p'
      have hc' := (swf_cons d j y m').1 h'
      have hij : i = j := by
        rcases Nat.lt_trichotomy i j with hl | hl | hl
        · have := he i
          simp only [sget, if_true] at this
          rw [if_neg (by omega), sget_above _ _ _ (fun q hq => Nat.lt_trans hl (hc'.2.1 q hq))] at this
          exact absurd this hc.1
        · exact hl
        · have := he j
          simp only [sget, if_true] at this
          rw [if_neg (by omega), sget_above _ _ _ (fun q hq => Nat.lt_trans hl (hc.2.1 q hq))] at this
          exact absurd this.symm hc'.1
      subst hij
      have hxy : x = y := by simpa [sget] using he i
      subst hxy
      congr 1
      refine ih m' hc.2.2 hc'.2.2 fun k => ?_
      by_cases hk : i = k
      · subst hk; rw [sget_above _ _ _ hc.2.1, sget_above _ _ _ hc'.2.1]
      · have := he k
        simpa [sget, hk] using this

end Sys2Proof.Machine
end

