-- ==== Sys2Proof/Laws/State.lean ====
section
/-!
SUPPORT. What each accessor that writes leaves of every field, and reads after writes of registers.
-/
namespace Sys2Proof.Machine

@[simp] theorem State.setReg_pending (s : State) (k : Nat) (v : Word) : (s.setReg k v).pending = s.pending := rfl
@[simp] theorem State.setReg_member (s : State) (k : Nat) (v : Word) : (s.setReg k v).member = s.member := rfl
@[simp] theorem State.setReg_uid (s : State) (k : Nat) (v : Word) : (s.setReg k v).uid = s.uid := rfl
@[simp] theorem State.setReg_freeIdx (s : State) (k : Nat) (v : Word) : (s.setReg k v).freeIdx = s.freeIdx := rfl
@[simp] theorem State.setReg_sup (s : State) (k : Nat) (v : Word) : (s.setReg k v).sup = s.sup := rfl
@[simp] theorem State.setReg_clk (s : State) (k : Nat) (v : Word) : (s.setReg k v).clk = s.clk := rfl
@[simp] theorem State.setReg_cp0 (s : State) (k : Nat) (v : Word) : (s.setReg k v).cp0 = s.cp0 := rfl
@[simp] theorem State.setReg_cp1 (s : State) (k : Nat) (v : Word) : (s.setReg k v).cp1 = s.cp1 := rfl
@[simp] theorem State.setReg_mail (s : State) (k : Nat) (v : Word) : (s.setReg k v).mail = s.mail := rfl
@[simp] theorem State.setReg_evq (s : State) (k : Nat) (v : Word) : (s.setReg k v).evq = s.evq := rfl
@[simp] theorem State.setReg_evNext (s : State) (k : Nat) (v : Word) : (s.setReg k v).evNext = s.evNext := rfl
@[simp] theorem State.setReg_evNew (s : State) (k : Nat) (v : Word) : (s.setReg k v).evNew = s.evNew := rfl
@[simp] theorem State.setReg_wdog (s : State) (k : Nat) (v : Word) : (s.setReg k v).wdog = s.wdog := rfl
@[simp] theorem State.setReg_pwFails (s : State) (k : Nat) (v : Word) : (s.setReg k v).pwFails = s.pwFails := rfl
@[simp] theorem State.setReg_session (s : State) (k : Nat) (v : Word) : (s.setReg k v).session = s.session := rfl
@[simp] theorem State.setReg_chn (s : State) (k : Nat) (v : Word) : (s.setReg k v).chn = s.chn := rfl
@[simp] theorem State.setReg_grp (s : State) (k : Nat) (v : Word) : (s.setReg k v).grp = s.grp := rfl
@[simp] theorem State.setReg_rf (s : State) (k : Nat) (v : Word) : (s.setReg k v).rf = s.rf := rfl
@[simp] theorem State.setReg_pf (s : State) (k : Nat) (v : Word) : (s.setReg k v).pf = s.pf := rfl
@[simp] theorem State.setReg_chrys (s : State) (k : Nat) (v : Word) : (s.setReg k v).chrys = s.chrys := rfl
@[simp] theorem State.setReg_syncs (s : State) (k : Nat) (v : Word) : (s.setReg k v).syncs = s.syncs := rfl
@[simp] theorem State.setReg_ring (s : State) (k : Nat) (v : Word) : (s.setReg k v).ring = s.ring := rfl
@[simp] theorem State.setReg_kat (s : State) (k : Nat) (v : Word) : (s.setReg k v).kat = s.kat := rfl
@[simp] theorem State.setReg_s5regs (s : State) (k : Nat) (v : Word) : (s.setReg k v).s5regs = s.s5regs := rfl

@[simp] theorem State.setFld_pending (s : State) (k lo w v : Nat) : (s.setFld k lo w v).pending = s.pending := rfl
@[simp] theorem State.setFld_member (s : State) (k lo w v : Nat) : (s.setFld k lo w v).member = s.member := rfl
@[simp] theorem State.setFld_uid (s : State) (k lo w v : Nat) : (s.setFld k lo w v).uid = s.uid := rfl
@[simp] theorem State.setFld_freeIdx (s : State) (k lo w v : Nat) : (s.setFld k lo w v).freeIdx = s.freeIdx := rfl
@[simp] theorem State.setFld_sup (s : State) (k lo w v : Nat) : (s.setFld k lo w v).sup = s.sup := rfl
@[simp] theorem State.setFld_clk (s : State) (k lo w v : Nat) : (s.setFld k lo w v).clk = s.clk := rfl
@[simp] theorem State.setFld_cp0 (s : State) (k lo w v : Nat) : (s.setFld k lo w v).cp0 = s.cp0 := rfl
@[simp] theorem State.setFld_cp1 (s : State) (k lo w v : Nat) : (s.setFld k lo w v).cp1 = s.cp1 := rfl
@[simp] theorem State.setFld_mail (s : State) (k lo w v : Nat) : (s.setFld k lo w v).mail = s.mail := rfl
@[simp] theorem State.setFld_evq (s : State) (k lo w v : Nat) : (s.setFld k lo w v).evq = s.evq := rfl
@[simp] theorem State.setFld_evNext (s : State) (k lo w v : Nat) : (s.setFld k lo w v).evNext = s.evNext := rfl
@[simp] theorem State.setFld_evNew (s : State) (k lo w v : Nat) : (s.setFld k lo w v).evNew = s.evNew := rfl
@[simp] theorem State.setFld_wdog (s : State) (k lo w v : Nat) : (s.setFld k lo w v).wdog = s.wdog := rfl
@[simp] theorem State.setFld_pwFails (s : State) (k lo w v : Nat) : (s.setFld k lo w v).pwFails = s.pwFails := rfl
@[simp] theorem State.setFld_session (s : State) (k lo w v : Nat) : (s.setFld k lo w v).session = s.session := rfl
@[simp] theorem State.setFld_chn (s : State) (k lo w v : Nat) : (s.setFld k lo w v).chn = s.chn := rfl
@[simp] theorem State.setFld_grp (s : State) (k lo w v : Nat) : (s.setFld k lo w v).grp = s.grp := rfl
@[simp] theorem State.setFld_rf (s : State) (k lo w v : Nat) : (s.setFld k lo w v).rf = s.rf := rfl
@[simp] theorem State.setFld_pf (s : State) (k lo w v : Nat) : (s.setFld k lo w v).pf = s.pf := rfl
@[simp] theorem State.setFld_chrys (s : State) (k lo w v : Nat) : (s.setFld k lo w v).chrys = s.chrys := rfl
@[simp] theorem State.setFld_syncs (s : State) (k lo w v : Nat) : (s.setFld k lo w v).syncs = s.syncs := rfl
@[simp] theorem State.setFld_ring (s : State) (k lo w v : Nat) : (s.setFld k lo w v).ring = s.ring := rfl
@[simp] theorem State.setFld_kat (s : State) (k lo w v : Nat) : (s.setFld k lo w v).kat = s.kat := rfl
@[simp] theorem State.setFld_s5regs (s : State) (k lo w v : Nat) : (s.setFld k lo w v).s5regs = s.s5regs := rfl

@[simp] theorem State.setFlag_pending (s : State) (k i : Nat) (b : Bool) : (s.setFlag k i b).pending = s.pending := rfl
@[simp] theorem State.setFlag_member (s : State) (k i : Nat) (b : Bool) : (s.setFlag k i b).member = s.member := rfl
@[simp] theorem State.setFlag_uid (s : State) (k i : Nat) (b : Bool) : (s.setFlag k i b).uid = s.uid := rfl
@[simp] theorem State.setFlag_freeIdx (s : State) (k i : Nat) (b : Bool) : (s.setFlag k i b).freeIdx = s.freeIdx := rfl
@[simp] theorem State.setFlag_sup (s : State) (k i : Nat) (b : Bool) : (s.setFlag k i b).sup = s.sup := rfl
@[simp] theorem State.setFlag_clk (s : State) (k i : Nat) (b : Bool) : (s.setFlag k i b).clk = s.clk := rfl
@[simp] theorem State.setFlag_cp0 (s : State) (k i : Nat) (b : Bool) : (s.setFlag k i b).cp0 = s.cp0 := rfl
@[simp] theorem State.setFlag_cp1 (s : State) (k i : Nat) (b : Bool) : (s.setFlag k i b).cp1 = s.cp1 := rfl
@[simp] theorem State.setFlag_mail (s : State) (k i : Nat) (b : Bool) : (s.setFlag k i b).mail = s.mail := rfl
@[simp] theorem State.setFlag_evq (s : State) (k i : Nat) (b : Bool) : (s.setFlag k i b).evq = s.evq := rfl
@[simp] theorem State.setFlag_evNext (s : State) (k i : Nat) (b : Bool) : (s.setFlag k i b).evNext = s.evNext := rfl
@[simp] theorem State.setFlag_evNew (s : State) (k i : Nat) (b : Bool) : (s.setFlag k i b).evNew = s.evNew := rfl
@[simp] theorem State.setFlag_wdog (s : State) (k i : Nat) (b : Bool) : (s.setFlag k i b).wdog = s.wdog := rfl
@[simp] theorem State.setFlag_pwFails (s : State) (k i : Nat) (b : Bool) : (s.setFlag k i b).pwFails = s.pwFails := rfl
@[simp] theorem State.setFlag_session (s : State) (k i : Nat) (b : Bool) : (s.setFlag k i b).session = s.session := rfl
@[simp] theorem State.setFlag_chn (s : State) (k i : Nat) (b : Bool) : (s.setFlag k i b).chn = s.chn := rfl
@[simp] theorem State.setFlag_grp (s : State) (k i : Nat) (b : Bool) : (s.setFlag k i b).grp = s.grp := rfl
@[simp] theorem State.setFlag_rf (s : State) (k i : Nat) (b : Bool) : (s.setFlag k i b).rf = s.rf := rfl
@[simp] theorem State.setFlag_pf (s : State) (k i : Nat) (b : Bool) : (s.setFlag k i b).pf = s.pf := rfl
@[simp] theorem State.setFlag_chrys (s : State) (k i : Nat) (b : Bool) : (s.setFlag k i b).chrys = s.chrys := rfl
@[simp] theorem State.setFlag_syncs (s : State) (k i : Nat) (b : Bool) : (s.setFlag k i b).syncs = s.syncs := rfl
@[simp] theorem State.setFlag_ring (s : State) (k i : Nat) (b : Bool) : (s.setFlag k i b).ring = s.ring := rfl
@[simp] theorem State.setFlag_kat (s : State) (k i : Nat) (b : Bool) : (s.setFlag k i b).kat = s.kat := rfl
@[simp] theorem State.setFlag_s5regs (s : State) (k i : Nat) (b : Bool) : (s.setFlag k i b).s5regs = s.s5regs := rfl

@[simp] theorem State.count_pending (s : State) (k : Nat) : (s.count k).pending = s.pending := rfl
@[simp] theorem State.count_member (s : State) (k : Nat) : (s.count k).member = s.member := rfl
@[simp] theorem State.count_uid (s : State) (k : Nat) : (s.count k).uid = s.uid := rfl
@[simp] theorem State.count_freeIdx (s : State) (k : Nat) : (s.count k).freeIdx = s.freeIdx := rfl
@[simp] theorem State.count_sup (s : State) (k : Nat) : (s.count k).sup = s.sup := rfl
@[simp] theorem State.count_clk (s : State) (k : Nat) : (s.count k).clk = s.clk := rfl
@[simp] theorem State.count_cp0 (s : State) (k : Nat) : (s.count k).cp0 = s.cp0 := rfl
@[simp] theorem State.count_cp1 (s : State) (k : Nat) : (s.count k).cp1 = s.cp1 := rfl
@[simp] theorem State.count_mail (s : State) (k : Nat) : (s.count k).mail = s.mail := rfl
@[simp] theorem State.count_evq (s : State) (k : Nat) : (s.count k).evq = s.evq := rfl
@[simp] theorem State.count_evNext (s : State) (k : Nat) : (s.count k).evNext = s.evNext := rfl
@[simp] theorem State.count_evNew (s : State) (k : Nat) : (s.count k).evNew = s.evNew := rfl
@[simp] theorem State.count_wdog (s : State) (k : Nat) : (s.count k).wdog = s.wdog := rfl
@[simp] theorem State.count_pwFails (s : State) (k : Nat) : (s.count k).pwFails = s.pwFails := rfl
@[simp] theorem State.count_session (s : State) (k : Nat) : (s.count k).session = s.session := rfl
@[simp] theorem State.count_chn (s : State) (k : Nat) : (s.count k).chn = s.chn := rfl
@[simp] theorem State.count_grp (s : State) (k : Nat) : (s.count k).grp = s.grp := rfl
@[simp] theorem State.count_rf (s : State) (k : Nat) : (s.count k).rf = s.rf := rfl
@[simp] theorem State.count_pf (s : State) (k : Nat) : (s.count k).pf = s.pf := rfl
@[simp] theorem State.count_chrys (s : State) (k : Nat) : (s.count k).chrys = s.chrys := rfl
@[simp] theorem State.count_syncs (s : State) (k : Nat) : (s.count k).syncs = s.syncs := rfl
@[simp] theorem State.count_ring (s : State) (k : Nat) : (s.count k).ring = s.ring := rfl
@[simp] theorem State.count_kat (s : State) (k : Nat) : (s.count k).kat = s.kat := rfl
@[simp] theorem State.count_s5regs (s : State) (k : Nat) : (s.count k).s5regs = s.s5regs := rfl

@[simp] theorem State.setCh_pending (s : State) (n : Nat) (a : ChanAux) : (s.setCh n a).pending = s.pending := rfl
@[simp] theorem State.setCh_member (s : State) (n : Nat) (a : ChanAux) : (s.setCh n a).member = s.member := rfl
@[simp] theorem State.setCh_uid (s : State) (n : Nat) (a : ChanAux) : (s.setCh n a).uid = s.uid := rfl
@[simp] theorem State.setCh_freeIdx (s : State) (n : Nat) (a : ChanAux) : (s.setCh n a).freeIdx = s.freeIdx := rfl
@[simp] theorem State.setCh_regs (s : State) (n : Nat) (a : ChanAux) : (s.setCh n a).regs = s.regs := rfl
@[simp] theorem State.setCh_sup (s : State) (n : Nat) (a : ChanAux) : (s.setCh n a).sup = s.sup := rfl
@[simp] theorem State.setCh_clk (s : State) (n : Nat) (a : ChanAux) : (s.setCh n a).clk = s.clk := rfl
@[simp] theorem State.setCh_cp0 (s : State) (n : Nat) (a : ChanAux) : (s.setCh n a).cp0 = s.cp0 := rfl
@[simp] theorem State.setCh_cp1 (s : State) (n : Nat) (a : ChanAux) : (s.setCh n a).cp1 = s.cp1 := rfl
@[simp] theorem State.setCh_mail (s : State) (n : Nat) (a : ChanAux) : (s.setCh n a).mail = s.mail := rfl
@[simp] theorem State.setCh_evq (s : State) (n : Nat) (a : ChanAux) : (s.setCh n a).evq = s.evq := rfl
@[simp] theorem State.setCh_evNext (s : State) (n : Nat) (a : ChanAux) : (s.setCh n a).evNext = s.evNext := rfl
@[simp] theorem State.setCh_evNew (s : State) (n : Nat) (a : ChanAux) : (s.setCh n a).evNew = s.evNew := rfl
@[simp] theorem State.setCh_wdog (s : State) (n : Nat) (a : ChanAux) : (s.setCh n a).wdog = s.wdog := rfl
@[simp] theorem State.setCh_pwFails (s : State) (n : Nat) (a : ChanAux) : (s.setCh n a).pwFails = s.pwFails := rfl
@[simp] theorem State.setCh_session (s : State) (n : Nat) (a : ChanAux) : (s.setCh n a).session = s.session := rfl
@[simp] theorem State.setCh_grp (s : State) (n : Nat) (a : ChanAux) : (s.setCh n a).grp = s.grp := rfl
@[simp] theorem State.setCh_rf (s : State) (n : Nat) (a : ChanAux) : (s.setCh n a).rf = s.rf := rfl
@[simp] theorem State.setCh_pf (s : State) (n : Nat) (a : ChanAux) : (s.setCh n a).pf = s.pf := rfl
@[simp] theorem State.setCh_chrys (s : State) (n : Nat) (a : ChanAux) : (s.setCh n a).chrys = s.chrys := rfl
@[simp] theorem State.setCh_syncs (s : State) (n : Nat) (a : ChanAux) : (s.setCh n a).syncs = s.syncs := rfl
@[simp] theorem State.setCh_ring (s : State) (n : Nat) (a : ChanAux) : (s.setCh n a).ring = s.ring := rfl
@[simp] theorem State.setCh_kat (s : State) (n : Nat) (a : ChanAux) : (s.setCh n a).kat = s.kat := rfl
@[simp] theorem State.setCh_s5regs (s : State) (n : Nat) (a : ChanAux) : (s.setCh n a).s5regs = s.s5regs := rfl

@[simp] theorem State.setGr_pending (s : State) (g : Nat) (a : GrpAux) : (s.setGr g a).pending = s.pending := rfl
@[simp] theorem State.setGr_member (s : State) (g : Nat) (a : GrpAux) : (s.setGr g a).member = s.member := rfl
@[simp] theorem State.setGr_uid (s : State) (g : Nat) (a : GrpAux) : (s.setGr g a).uid = s.uid := rfl
@[simp] theorem State.setGr_freeIdx (s : State) (g : Nat) (a : GrpAux) : (s.setGr g a).freeIdx = s.freeIdx := rfl
@[simp] theorem State.setGr_regs (s : State) (g : Nat) (a : GrpAux) : (s.setGr g a).regs = s.regs := rfl
@[simp] theorem State.setGr_sup (s : State) (g : Nat) (a : GrpAux) : (s.setGr g a).sup = s.sup := rfl
@[simp] theorem State.setGr_clk (s : State) (g : Nat) (a : GrpAux) : (s.setGr g a).clk = s.clk := rfl
@[simp] theorem State.setGr_cp0 (s : State) (g : Nat) (a : GrpAux) : (s.setGr g a).cp0 = s.cp0 := rfl
@[simp] theorem State.setGr_cp1 (s : State) (g : Nat) (a : GrpAux) : (s.setGr g a).cp1 = s.cp1 := rfl
@[simp] theorem State.setGr_mail (s : State) (g : Nat) (a : GrpAux) : (s.setGr g a).mail = s.mail := rfl
@[simp] theorem State.setGr_evq (s : State) (g : Nat) (a : GrpAux) : (s.setGr g a).evq = s.evq := rfl
@[simp] theorem State.setGr_evNext (s : State) (g : Nat) (a : GrpAux) : (s.setGr g a).evNext = s.evNext := rfl
@[simp] theorem State.setGr_evNew (s : State) (g : Nat) (a : GrpAux) : (s.setGr g a).evNew = s.evNew := rfl
@[simp] theorem State.setGr_wdog (s : State) (g : Nat) (a : GrpAux) : (s.setGr g a).wdog = s.wdog := rfl
@[simp] theorem State.setGr_pwFails (s : State) (g : Nat) (a : GrpAux) : (s.setGr g a).pwFails = s.pwFails := rfl
@[simp] theorem State.setGr_session (s : State) (g : Nat) (a : GrpAux) : (s.setGr g a).session = s.session := rfl
@[simp] theorem State.setGr_chn (s : State) (g : Nat) (a : GrpAux) : (s.setGr g a).chn = s.chn := rfl
@[simp] theorem State.setGr_rf (s : State) (g : Nat) (a : GrpAux) : (s.setGr g a).rf = s.rf := rfl
@[simp] theorem State.setGr_pf (s : State) (g : Nat) (a : GrpAux) : (s.setGr g a).pf = s.pf := rfl
@[simp] theorem State.setGr_chrys (s : State) (g : Nat) (a : GrpAux) : (s.setGr g a).chrys = s.chrys := rfl
@[simp] theorem State.setGr_syncs (s : State) (g : Nat) (a : GrpAux) : (s.setGr g a).syncs = s.syncs := rfl
@[simp] theorem State.setGr_ring (s : State) (g : Nat) (a : GrpAux) : (s.setGr g a).ring = s.ring := rfl
@[simp] theorem State.setGr_kat (s : State) (g : Nat) (a : GrpAux) : (s.setGr g a).kat = s.kat := rfl
@[simp] theorem State.setGr_s5regs (s : State) (g : Nat) (a : GrpAux) : (s.setGr g a).s5regs = s.s5regs := rfl

@[simp] theorem State.setRg_pending (s : State) (c : Nat) (a : RingAux) : (s.setRg c a).pending = s.pending := rfl
@[simp] theorem State.setRg_member (s : State) (c : Nat) (a : RingAux) : (s.setRg c a).member = s.member := rfl
@[simp] theorem State.setRg_uid (s : State) (c : Nat) (a : RingAux) : (s.setRg c a).uid = s.uid := rfl
@[simp] theorem State.setRg_freeIdx (s : State) (c : Nat) (a : RingAux) : (s.setRg c a).freeIdx = s.freeIdx := rfl
@[simp] theorem State.setRg_regs (s : State) (c : Nat) (a : RingAux) : (s.setRg c a).regs = s.regs := rfl
@[simp] theorem State.setRg_sup (s : State) (c : Nat) (a : RingAux) : (s.setRg c a).sup = s.sup := rfl
@[simp] theorem State.setRg_clk (s : State) (c : Nat) (a : RingAux) : (s.setRg c a).clk = s.clk := rfl
@[simp] theorem State.setRg_cp0 (s : State) (c : Nat) (a : RingAux) : (s.setRg c a).cp0 = s.cp0 := rfl
@[simp] theorem State.setRg_cp1 (s : State) (c : Nat) (a : RingAux) : (s.setRg c a).cp1 = s.cp1 := rfl
@[simp] theorem State.setRg_mail (s : State) (c : Nat) (a : RingAux) : (s.setRg c a).mail = s.mail := rfl
@[simp] theorem State.setRg_evq (s : State) (c : Nat) (a : RingAux) : (s.setRg c a).evq = s.evq := rfl
@[simp] theorem State.setRg_evNext (s : State) (c : Nat) (a : RingAux) : (s.setRg c a).evNext = s.evNext := rfl
@[simp] theorem State.setRg_evNew (s : State) (c : Nat) (a : RingAux) : (s.setRg c a).evNew = s.evNew := rfl
@[simp] theorem State.setRg_wdog (s : State) (c : Nat) (a : RingAux) : (s.setRg c a).wdog = s.wdog := rfl
@[simp] theorem State.setRg_pwFails (s : State) (c : Nat) (a : RingAux) : (s.setRg c a).pwFails = s.pwFails := rfl
@[simp] theorem State.setRg_session (s : State) (c : Nat) (a : RingAux) : (s.setRg c a).session = s.session := rfl
@[simp] theorem State.setRg_chn (s : State) (c : Nat) (a : RingAux) : (s.setRg c a).chn = s.chn := rfl
@[simp] theorem State.setRg_grp (s : State) (c : Nat) (a : RingAux) : (s.setRg c a).grp = s.grp := rfl
@[simp] theorem State.setRg_rf (s : State) (c : Nat) (a : RingAux) : (s.setRg c a).rf = s.rf := rfl
@[simp] theorem State.setRg_pf (s : State) (c : Nat) (a : RingAux) : (s.setRg c a).pf = s.pf := rfl
@[simp] theorem State.setRg_chrys (s : State) (c : Nat) (a : RingAux) : (s.setRg c a).chrys = s.chrys := rfl
@[simp] theorem State.setRg_syncs (s : State) (c : Nat) (a : RingAux) : (s.setRg c a).syncs = s.syncs := rfl
@[simp] theorem State.setRg_kat (s : State) (c : Nat) (a : RingAux) : (s.setRg c a).kat = s.kat := rfl
@[simp] theorem State.setRg_s5regs (s : State) (c : Nat) (a : RingAux) : (s.setRg c a).s5regs = s.s5regs := rfl

@[simp] theorem State.draw_pending (s : State) : (s.draw).pending = s.pending := rfl
@[simp] theorem State.draw_member (s : State) : (s.draw).member = s.member := rfl
@[simp] theorem State.draw_uid (s : State) : (s.draw).uid = s.uid := rfl
@[simp] theorem State.draw_regs (s : State) : (s.draw).regs = s.regs := rfl
@[simp] theorem State.draw_sup (s : State) : (s.draw).sup = s.sup := rfl
@[simp] theorem State.draw_clk (s : State) : (s.draw).clk = s.clk := rfl
@[simp] theorem State.draw_cp0 (s : State) : (s.draw).cp0 = s.cp0 := rfl
@[simp] theorem State.draw_cp1 (s : State) : (s.draw).cp1 = s.cp1 := rfl
@[simp] theorem State.draw_mail (s : State) : (s.draw).mail = s.mail := rfl
@[simp] theorem State.draw_evq (s : State) : (s.draw).evq = s.evq := rfl
@[simp] theorem State.draw_evNext (s : State) : (s.draw).evNext = s.evNext := rfl
@[simp] theorem State.draw_evNew (s : State) : (s.draw).evNew = s.evNew := rfl
@[simp] theorem State.draw_wdog (s : State) : (s.draw).wdog = s.wdog := rfl
@[simp] theorem State.draw_pwFails (s : State) : (s.draw).pwFails = s.pwFails := rfl
@[simp] theorem State.draw_session (s : State) : (s.draw).session = s.session := rfl
@[simp] theorem State.draw_chn (s : State) : (s.draw).chn = s.chn := rfl
@[simp] theorem State.draw_grp (s : State) : (s.draw).grp = s.grp := rfl
@[simp] theorem State.draw_rf (s : State) : (s.draw).rf = s.rf := rfl
@[simp] theorem State.draw_pf (s : State) : (s.draw).pf = s.pf := rfl
@[simp] theorem State.draw_chrys (s : State) : (s.draw).chrys = s.chrys := rfl
@[simp] theorem State.draw_syncs (s : State) : (s.draw).syncs = s.syncs := rfl
@[simp] theorem State.draw_ring (s : State) : (s.draw).ring = s.ring := rfl
@[simp] theorem State.draw_kat (s : State) : (s.draw).kat = s.kat := rfl
@[simp] theorem State.draw_s5regs (s : State) : (s.draw).s5regs = s.s5regs := rfl

@[simp] theorem State.emit_pending (s : State) (c : Ev) (o : Obj) (d : List Fld) : (s.emit c o d).pending = s.pending := rfl
@[simp] theorem State.emit_member (s : State) (c : Ev) (o : Obj) (d : List Fld) : (s.emit c o d).member = s.member := rfl
@[simp] theorem State.emit_uid (s : State) (c : Ev) (o : Obj) (d : List Fld) : (s.emit c o d).uid = s.uid := rfl
@[simp] theorem State.emit_freeIdx (s : State) (c : Ev) (o : Obj) (d : List Fld) : (s.emit c o d).freeIdx = s.freeIdx := rfl
@[simp] theorem State.emit_regs (s : State) (c : Ev) (o : Obj) (d : List Fld) : (s.emit c o d).regs = s.regs := rfl
@[simp] theorem State.emit_sup (s : State) (c : Ev) (o : Obj) (d : List Fld) : (s.emit c o d).sup = s.sup := rfl
@[simp] theorem State.emit_clk (s : State) (c : Ev) (o : Obj) (d : List Fld) : (s.emit c o d).clk = s.clk := rfl
@[simp] theorem State.emit_cp0 (s : State) (c : Ev) (o : Obj) (d : List Fld) : (s.emit c o d).cp0 = s.cp0 := rfl
@[simp] theorem State.emit_cp1 (s : State) (c : Ev) (o : Obj) (d : List Fld) : (s.emit c o d).cp1 = s.cp1 := rfl
@[simp] theorem State.emit_mail (s : State) (c : Ev) (o : Obj) (d : List Fld) : (s.emit c o d).mail = s.mail := rfl
@[simp] theorem State.emit_evq (s : State) (c : Ev) (o : Obj) (d : List Fld) : (s.emit c o d).evq = s.evq := rfl
@[simp] theorem State.emit_evNext (s : State) (c : Ev) (o : Obj) (d : List Fld) : (s.emit c o d).evNext = s.evNext := rfl
@[simp] theorem State.emit_wdog (s : State) (c : Ev) (o : Obj) (d : List Fld) : (s.emit c o d).wdog = s.wdog := rfl
@[simp] theorem State.emit_pwFails (s : State) (c : Ev) (o : Obj) (d : List Fld) : (s.emit c o d).pwFails = s.pwFails := rfl
@[simp] theorem State.emit_session (s : State) (c : Ev) (o : Obj) (d : List Fld) : (s.emit c o d).session = s.session := rfl
@[simp] theorem State.emit_chn (s : State) (c : Ev) (o : Obj) (d : List Fld) : (s.emit c o d).chn = s.chn := rfl
@[simp] theorem State.emit_grp (s : State) (c : Ev) (o : Obj) (d : List Fld) : (s.emit c o d).grp = s.grp := rfl
@[simp] theorem State.emit_rf (s : State) (c : Ev) (o : Obj) (d : List Fld) : (s.emit c o d).rf = s.rf := rfl
@[simp] theorem State.emit_pf (s : State) (c : Ev) (o : Obj) (d : List Fld) : (s.emit c o d).pf = s.pf := rfl
@[simp] theorem State.emit_chrys (s : State) (c : Ev) (o : Obj) (d : List Fld) : (s.emit c o d).chrys = s.chrys := rfl
@[simp] theorem State.emit_syncs (s : State) (c : Ev) (o : Obj) (d : List Fld) : (s.emit c o d).syncs = s.syncs := rfl
@[simp] theorem State.emit_ring (s : State) (c : Ev) (o : Obj) (d : List Fld) : (s.emit c o d).ring = s.ring := rfl
@[simp] theorem State.emit_kat (s : State) (c : Ev) (o : Obj) (d : List Fld) : (s.emit c o d).kat = s.kat := rfl
@[simp] theorem State.emit_s5regs (s : State) (c : Ev) (o : Obj) (d : List Fld) : (s.emit c o d).s5regs = s.s5regs := rfl

@[simp] theorem State.setPort_pending (s : State) (e : Ep) (p : Port) : (s.setPort e p).pending = s.pending := by cases e <;> rfl
@[simp] theorem State.setPort_member (s : State) (e : Ep) (p : Port) : (s.setPort e p).member = s.member := by cases e <;> rfl
@[simp] theorem State.setPort_uid (s : State) (e : Ep) (p : Port) : (s.setPort e p).uid = s.uid := by cases e <;> rfl
@[simp] theorem State.setPort_freeIdx (s : State) (e : Ep) (p : Port) : (s.setPort e p).freeIdx = s.freeIdx := by cases e <;> rfl
@[simp] theorem State.setPort_regs (s : State) (e : Ep) (p : Port) : (s.setPort e p).regs = s.regs := by cases e <;> rfl
@[simp] theorem State.setPort_sup (s : State) (e : Ep) (p : Port) : (s.setPort e p).sup = s.sup := by cases e <;> rfl
@[simp] theorem State.setPort_clk (s : State) (e : Ep) (p : Port) : (s.setPort e p).clk = s.clk := by cases e <;> rfl
@[simp] theorem State.setPort_evq (s : State) (e : Ep) (p : Port) : (s.setPort e p).evq = s.evq := by cases e <;> rfl
@[simp] theorem State.setPort_evNext (s : State) (e : Ep) (p : Port) : (s.setPort e p).evNext = s.evNext := by cases e <;> rfl
@[simp] theorem State.setPort_evNew (s : State) (e : Ep) (p : Port) : (s.setPort e p).evNew = s.evNew := by cases e <;> rfl
@[simp] theorem State.setPort_wdog (s : State) (e : Ep) (p : Port) : (s.setPort e p).wdog = s.wdog := by cases e <;> rfl
@[simp] theorem State.setPort_pwFails (s : State) (e : Ep) (p : Port) : (s.setPort e p).pwFails = s.pwFails := by cases e <;> rfl
@[simp] theorem State.setPort_session (s : State) (e : Ep) (p : Port) : (s.setPort e p).session = s.session := by cases e <;> rfl
@[simp] theorem State.setPort_chn (s : State) (e : Ep) (p : Port) : (s.setPort e p).chn = s.chn := by cases e <;> rfl
@[simp] theorem State.setPort_grp (s : State) (e : Ep) (p : Port) : (s.setPort e p).grp = s.grp := by cases e <;> rfl
@[simp] theorem State.setPort_rf (s : State) (e : Ep) (p : Port) : (s.setPort e p).rf = s.rf := by cases e <;> rfl
@[simp] theorem State.setPort_pf (s : State) (e : Ep) (p : Port) : (s.setPort e p).pf = s.pf := by cases e <;> rfl
@[simp] theorem State.setPort_chrys (s : State) (e : Ep) (p : Port) : (s.setPort e p).chrys = s.chrys := by cases e <;> rfl
@[simp] theorem State.setPort_syncs (s : State) (e : Ep) (p : Port) : (s.setPort e p).syncs = s.syncs := by cases e <;> rfl
@[simp] theorem State.setPort_ring (s : State) (e : Ep) (p : Port) : (s.setPort e p).ring = s.ring := by cases e <;> rfl
@[simp] theorem State.setPort_kat (s : State) (e : Ep) (p : Port) : (s.setPort e p).kat = s.kat := by cases e <;> rfl
@[simp] theorem State.setPort_s5regs (s : State) (e : Ep) (p : Port) : (s.setPort e p).s5regs = s.s5regs := by cases e <;> rfl

@[simp] theorem State.send_pending (s : State) (e : Ep) (x : TxItem) : (s.send e x).pending = s.pending := by cases e <;> rfl
@[simp] theorem State.send_member (s : State) (e : Ep) (x : TxItem) : (s.send e x).member = s.member := by cases e <;> rfl
@[simp] theorem State.send_uid (s : State) (e : Ep) (x : TxItem) : (s.send e x).uid = s.uid := by cases e <;> rfl
@[simp] theorem State.send_freeIdx (s : State) (e : Ep) (x : TxItem) : (s.send e x).freeIdx = s.freeIdx := by cases e <;> rfl
@[simp] theorem State.send_regs (s : State) (e : Ep) (x : TxItem) : (s.send e x).regs = s.regs := by cases e <;> rfl
@[simp] theorem State.send_sup (s : State) (e : Ep) (x : TxItem) : (s.send e x).sup = s.sup := by cases e <;> rfl
@[simp] theorem State.send_clk (s : State) (e : Ep) (x : TxItem) : (s.send e x).clk = s.clk := by cases e <;> rfl
@[simp] theorem State.send_evq (s : State) (e : Ep) (x : TxItem) : (s.send e x).evq = s.evq := by cases e <;> rfl
@[simp] theorem State.send_evNext (s : State) (e : Ep) (x : TxItem) : (s.send e x).evNext = s.evNext := by cases e <;> rfl
@[simp] theorem State.send_evNew (s : State) (e : Ep) (x : TxItem) : (s.send e x).evNew = s.evNew := by cases e <;> rfl
@[simp] theorem State.send_wdog (s : State) (e : Ep) (x : TxItem) : (s.send e x).wdog = s.wdog := by cases e <;> rfl
@[simp] theorem State.send_pwFails (s : State) (e : Ep) (x : TxItem) : (s.send e x).pwFails = s.pwFails := by cases e <;> rfl
@[simp] theorem State.send_session (s : State) (e : Ep) (x : TxItem) : (s.send e x).session = s.session := by cases e <;> rfl
@[simp] theorem State.send_chn (s : State) (e : Ep) (x : TxItem) : (s.send e x).chn = s.chn := by cases e <;> rfl
@[simp] theorem State.send_grp (s : State) (e : Ep) (x : TxItem) : (s.send e x).grp = s.grp := by cases e <;> rfl
@[simp] theorem State.send_rf (s : State) (e : Ep) (x : TxItem) : (s.send e x).rf = s.rf := by cases e <;> rfl
@[simp] theorem State.send_pf (s : State) (e : Ep) (x : TxItem) : (s.send e x).pf = s.pf := by cases e <;> rfl
@[simp] theorem State.send_chrys (s : State) (e : Ep) (x : TxItem) : (s.send e x).chrys = s.chrys := by cases e <;> rfl
@[simp] theorem State.send_syncs (s : State) (e : Ep) (x : TxItem) : (s.send e x).syncs = s.syncs := by cases e <;> rfl
@[simp] theorem State.send_ring (s : State) (e : Ep) (x : TxItem) : (s.send e x).ring = s.ring := by cases e <;> rfl
@[simp] theorem State.send_kat (s : State) (e : Ep) (x : TxItem) : (s.send e x).kat = s.kat := by cases e <;> rfl
@[simp] theorem State.send_s5regs (s : State) (e : Ep) (x : TxItem) : (s.send e x).s5regs = s.s5regs := by cases e <;> rfl

@[simp] theorem State.port_setPort_same (s : State) (e : Ep) (p : Port) : (s.setPort e p).port e = p := by cases e <;> rfl

theorem State.port_setPort_other (s : State) (e x : Ep) (p : Port) (h : x ≠ e) : (s.setPort e p).port x = s.port x := by
  cases e <;> cases x <;> first | rfl | exact absurd rfl h

/-! ### Reads of registers past writes elsewhere -/

@[simp] theorem State.port_setReg (s : State) (k : Nat) (v : Word) (e : Ep) : (s.setReg k v).port e = s.port e := by cases e <;> rfl
@[simp] theorem State.port_setFld (s : State) (k lo w v : Nat) (e : Ep) : (s.setFld k lo w v).port e = s.port e := by cases e <;> rfl
@[simp] theorem State.port_setFlag (s : State) (k i : Nat) (b : Bool) (e : Ep) : (s.setFlag k i b).port e = s.port e := by cases e <;> rfl
@[simp] theorem State.port_count (s : State) (k : Nat) (e : Ep) : (s.count k).port e = s.port e := by cases e <;> rfl
@[simp] theorem State.reg_setCh (s : State) (n : Nat) (a : ChanAux) (j : Nat) : (s.setCh n a).reg j = s.reg j := rfl
@[simp] theorem State.port_setCh (s : State) (n : Nat) (a : ChanAux) (e : Ep) : (s.setCh n a).port e = s.port e := by cases e <;> rfl
@[simp] theorem State.reg_setGr (s : State) (g : Nat) (a : GrpAux) (j : Nat) : (s.setGr g a).reg j = s.reg j := rfl
@[simp] theorem State.port_setGr (s : State) (g : Nat) (a : GrpAux) (e : Ep) : (s.setGr g a).port e = s.port e := by cases e <;> rfl
@[simp] theorem State.reg_setRg (s : State) (c : Nat) (a : RingAux) (j : Nat) : (s.setRg c a).reg j = s.reg j := rfl
@[simp] theorem State.port_setRg (s : State) (c : Nat) (a : RingAux) (e : Ep) : (s.setRg c a).port e = s.port e := by cases e <;> rfl
@[simp] theorem State.reg_draw (s : State) (j : Nat) : (s.draw).reg j = s.reg j := rfl
@[simp] theorem State.port_draw (s : State) (e : Ep) : (s.draw).port e = s.port e := by cases e <;> rfl
@[simp] theorem State.reg_emit (s : State) (c : Ev) (o : Obj) (d : List Fld) (j : Nat) : (s.emit c o d).reg j = s.reg j := rfl
@[simp] theorem State.port_emit (s : State) (c : Ev) (o : Obj) (d : List Fld) (e : Ep) : (s.emit c o d).port e = s.port e := by cases e <;> rfl
@[simp] theorem State.reg_setPort (s : State) (e : Ep) (p : Port) (j : Nat) : (s.setPort e p).reg j = s.reg j := by
  cases e <;> rfl
@[simp] theorem State.reg_send (s : State) (e : Ep) (x : TxItem) (j : Nat) : (s.send e x).reg j = s.reg j := by
  cases e <;> rfl

/-! ### Registers read after being written -/

theorem State.reg_setReg_other (s : State) (k j : Nat) (v : Word) (h : j ≠ k) : (s.setReg k v).reg j = s.reg j :=
  sget_sset_other _ _ _ _ _ _ h

theorem State.reg_setReg_same (s : State) (k : Nat) (v : Word) (h : swf resetWord s.regs = true) : (s.setReg k v).reg k = v :=
  sget_sset_same resetWord _ _ _ h

theorem State.swf_setReg (s : State) (k : Nat) (v : Word) (h : swf resetWord s.regs = true) :
    swf resetWord (s.setReg k v).regs = true := swf_sset _ _ _ _ h

theorem State.reg_setFld_same (s : State) (k lo w v : Nat) (h : swf resetWord s.regs = true) :
    (s.setFld k lo w v).reg k = setBits (s.reg k) lo w v := s.reg_setReg_same _ _ h

theorem State.reg_setFlag_same (s : State) (k i : Nat) (b : Bool) (h : swf resetWord s.regs = true) :
    (s.setFlag k i b).reg k = setBit (s.reg k) i b := s.reg_setReg_same _ _ h

theorem State.reg_setFld_other (s : State) (k lo w v j : Nat) (h : j ≠ k) : (s.setFld k lo w v).reg j = s.reg j :=
  s.reg_setReg_other _ _ _ h

theorem State.reg_setFlag_other (s : State) (k i j : Nat) (b : Bool) (h : j ≠ k) : (s.setFlag k i b).reg j = s.reg j :=
  s.reg_setReg_other _ _ _ h

theorem State.reg_count_other (s : State) (k j : Nat) (h : j ≠ k) : (s.count k).reg j = s.reg j :=
  s.reg_setReg_other _ _ _ h

/-- The bits of a word after a field of it is replaced. -/
theorem getLsbD_setBits (x : Word) (lo w v i : Nat) :
    (setBits x lo w v).getLsbD i =
      if lo ≤ i ∧ i < lo + w ∧ i < 32 then v.testBit (i - lo) else x.getLsbD i := by
  simp only [setBits, BitVec.getLsbD_or, BitVec.getLsbD_and, BitVec.getLsbD_not, BitVec.getLsbD_ofNat, Nat.testBit_shiftLeft,
    Nat.testBit_two_pow_sub_one, Nat.testBit_mod_two_pow]
  by_cases h32 : i < 32
  · by_cases h1 : lo ≤ i
    · by_cases h2 : i < lo + w
      · have : i - lo < w := by omega
        simp [h32, h1, h2, this]
      · have : ¬ i - lo < w := by omega
        simp [h32, h1, h2, this]
    · have : ¬ i ≥ lo := by omega
      simp [h32, h1]
  · simp [h32, BitVec.getLsbD_of_ge x i (by omega)]

/-- A field as its bits. -/
theorem testBit_bits (x : Word) (lo w i : Nat) : (bits x lo w).testBit i = (decide (i < w) && x.getLsbD (lo + i)) := by
  simp [bits, Nat.testBit_mod_two_pow, Nat.testBit_shiftRight, BitVec.getLsbD]

/-- A field that is written and then read. -/
theorem bits_setBits_same (x : Word) (lo w v : Nat) (h : lo + w ≤ 32) : bits (setBits x lo w v) lo w = v % 2 ^ w := by
  apply Nat.eq_of_testBit_eq
  intro i
  rw [testBit_bits, getLsbD_setBits, Nat.testBit_mod_two_pow]
  by_cases hi : i < w
  · have h1 : lo ≤ lo + i ∧ lo + i < lo + w ∧ lo + i < 32 := ⟨by omega, by omega, by omega⟩
    simp [hi, h1]
  · simp [hi]

/-- A field beside the one that is written. -/
theorem bits_setBits_other (x : Word) (lo w v lo' w' : Nat) (h : lo' + w' ≤ lo ∨ lo + w ≤ lo') :
    bits (setBits x lo w v) lo' w' = bits x lo' w' := by
  apply Nat.eq_of_testBit_eq
  intro i
  rw [testBit_bits, testBit_bits, getLsbD_setBits]
  by_cases hi : i < w'
  · have h1 : ¬ (lo ≤ lo' + i ∧ lo' + i < lo + w ∧ lo' + i < 32) := by omega
    rw [if_neg h1]
  · simp [hi]

/-- A bit that is written and then read. -/
theorem bit_setBit_same (x : Word) (i : Nat) (b : Bool) (h : i < 32) : bit (setBit x i b) i = b := by
  unfold bit setBit
  rw [getLsbD_setBits]
  cases b <;> simp [h]

/-- A bit beside the one that is written. -/
theorem bit_setBit_other (x : Word) (i j : Nat) (b : Bool) (h : j ≠ i) : bit (setBit x i b) j = bit x j := by
  unfold bit setBit
  rw [getLsbD_setBits]
  have h1 : ¬ (i ≤ j ∧ j < i + 1 ∧ j < 32) := by omega
  rw [if_neg h1]

/-- A bit outside the field that is written. -/
theorem bit_setBits_other (x : Word) (lo w v j : Nat) (h : j < lo ∨ lo + w ≤ j) : bit (setBits x lo w v) j = bit x j := by
  unfold bit
  rw [getLsbD_setBits]
  have h1 : ¬ (lo ≤ j ∧ j < lo + w ∧ j < 32) := by omega
  rw [if_neg h1]

theorem State.fld_setFld_same (s : State) (k lo w v : Nat) (h : swf resetWord s.regs = true) (hw : lo + w ≤ 32) :
    (s.setFld k lo w v).fld k lo w = v % 2 ^ w := by
  unfold State.setFld State.fld
  rw [s.reg_setReg_same _ _ h, bits_setBits_same _ _ _ _ hw]

theorem State.fld_setFld_beside (s : State) (k lo w v lo' w' : Nat) (h : swf resetWord s.regs = true)
    (hw : lo' + w' ≤ lo ∨ lo + w ≤ lo') : (s.setFld k lo w v).fld k lo' w' = s.fld k lo' w' := by
  unfold State.setFld State.fld
  rw [s.reg_setReg_same _ _ h, bits_setBits_other _ _ _ _ _ _ hw]

theorem State.flag_setFlag_same (s : State) (k i : Nat) (b : Bool) (h : swf resetWord s.regs = true) (hi : i < 32) :
    (s.setFlag k i b).flag k i = b := by
  unfold State.setFlag State.setFld State.flag
  rw [s.reg_setReg_same _ _ h]
  exact bit_setBit_same _ _ _ hi

theorem State.flag_setFlag_beside (s : State) (k i j : Nat) (b : Bool) (h : swf resetWord s.regs = true) (hi : j ≠ i) :
    (s.setFlag k i b).flag k j = s.flag k j := by
  unfold State.setFlag State.setFld State.flag
  rw [s.reg_setReg_same _ _ h]
  exact bit_setBit_other _ _ _ _ hi

theorem State.fld_of_reg {s t : State} {k : Nat} (h : t.reg k = s.reg k) (lo w : Nat) : t.fld k lo w = s.fld k lo w := by
  rw [State.fld, State.fld, h]

theorem State.flag_of_reg {s t : State} {k : Nat} (h : t.reg k = s.reg k) (i : Nat) : t.flag k i = s.flag k i := by
  rw [State.flag, State.flag, h]

/-! ### Channels, groups and controllers read after being written -/

theorem State.ch_setCh_same (s : State) (n : Nat) (a : ChanAux) (h : swf (fun _ => ({} : ChanAux)) s.chn = true) :
    (s.setCh n a).ch n = a := sget_sset_same _ _ _ _ h
theorem State.ch_setCh_other (s : State) (n m : Nat) (a : ChanAux) (h : m ≠ n) : (s.setCh n a).ch m = s.ch m :=
  sget_sset_other _ _ _ _ _ _ h
theorem State.gr_setGr_same (s : State) (g : Nat) (a : GrpAux) (h : swf (fun _ => ({} : GrpAux)) s.grp = true) :
    (s.setGr g a).gr g = a := sget_sset_same _ _ _ _ h
theorem State.gr_setGr_other (s : State) (g m : Nat) (a : GrpAux) (h : m ≠ g) : (s.setGr g a).gr m = s.gr m :=
  sget_sset_other _ _ _ _ _ _ h
theorem State.rg_setRg_same (s : State) (c : Nat) (a : RingAux) (h : swf (fun _ => ({} : RingAux)) s.ring = true) :
    (s.setRg c a).rg c = a := sget_sset_same _ _ _ _ h
theorem State.rg_setRg_other (s : State) (c m : Nat) (a : RingAux) (h : m ≠ c) : (s.setRg c a).rg m = s.rg m :=
  sget_sset_other _ _ _ _ _ _ h

end Sys2Proof.Machine
end

