-- ==== Sys2Proof/Laws/Stays.lean ====
section
/-!
SUPPORT. What the record in the trail, the event queue and the carrying of a line leave: the terms of Safety, once for each
operation.
-/
namespace Sys2Proof.Machine

/-! ### The relation -/

theorem Stays.refl (e : Option Ep) (w : Nat → Prop) (s : State) : Stays e w s s where
  pending := rfl
  member := rfl
  uid := rfl
  freeIdx := rfl
  reg := fun _ _ _ => rfl
  canon := id
  replay := fun _ _ => rfl
  sup := rfl
  clk := rfl
  port := fun _ _ => rfl
  own := fun _ _ => ⟨rfl, rfl, rfl, rfl, rfl, rfl, rfl, rfl⟩
  events := fun h => ⟨h, rfl, rfl⟩
  wdog := rfl
  pwFails := rfl
  session := rfl
  chn := rfl
  grp := rfl
  rf := rfl
  pf := rfl
  dir := ⟨rfl, rfl, rfl, rfl, rfl, rfl⟩
  syncs := rfl
  ring := fun _ => rfl
  kat := rfl
  s5regs := rfl

theorem Stays.trans {e : Option Ep} {w : Nat → Prop} {s t u : State} (h : Stays e w s t) (g : Stays e w t u) :
    Stays e w s u where
  pending := g.pending.trans h.pending
  member := g.member.trans h.member
  uid := g.uid.trans h.uid
  freeIdx := g.freeIdx.trans h.freeIdx
  reg := fun k a b => (g.reg k a b).trans (h.reg k a b)
  canon := fun a => g.canon (h.canon a)
  replay := fun a b => (g.replay a (h.canon b)).trans (h.replay a b)
  sup := g.sup.trans h.sup
  clk := g.clk.trans h.clk
  port := fun x a => (g.port x a).trans (h.port x a)
  own := fun x a => by
    have h' := h.own x a
    have g' := g.own x a
    simp only [h', g', and_self]
  events := fun a => by
    have h' := h.events a
    have g' := g.events h'.1
    exact ⟨g'.1, g'.2.1.trans h'.2.1, g'.2.2.trans h'.2.2⟩
  wdog := g.wdog.trans h.wdog
  pwFails := g.pwFails.trans h.pwFails
  session := g.session.trans h.session
  chn := g.chn.trans h.chn
  grp := g.grp.trans h.grp
  rf := g.rf.trans h.rf
  pf := g.pf.trans h.pf
  dir := by
    have h' := h.dir
    have g' := g.dir
    simp only [h', g', and_self]
  syncs := g.syncs.trans h.syncs
  ring := fun a => (g.ring a).trans (h.ring a)
  kat := g.kat.trans h.kat
  s5regs := g.s5regs.trans h.s5regs

/-- What an event leaves, a line leaves. -/
theorem Stays.line {w : Nat → Prop} {s t : State} (e : Option Ep) (h : Stays none w s t) : Stays e w s t :=
  { h with
    reg := fun k a b => h.reg k a (fun c => b (by
      rcases c with c | c | c | c | c | c | c
      · exact .inl c
      · exact .inr (.inl c)
      · exact .inr (.inr (.inl c))
      · exact .inr (.inr (.inr (.inl c)))
      · exact absurd c.1 (by simp)
      · exact absurd c.1 (by simp)
      · exact absurd c.1 (by simp)))
    port := fun x _ => h.port x (by simp)
    own := fun x _ => by simp [h.port x (by simp)]
    ring := fun _ => h.ring (by simp) }

/-- A wider set of registers. -/
theorem Stays.mono {e : Option Ep} {w v : Nat → Prop} {s t : State} (h : Stays e w s t) (hv : ∀ k, w k → v k) : Stays e v s t :=
  { h with
    reg := fun k a b => h.reg k (fun c => a (hv k c)) b
    replay := fun a b => h.replay (fun c => a (hv _ c)) b }

theorem Stays.ite {e : Option Ep} {w : Nat → Prop} {s a b : State} {c : Prop} [Decidable c] (ha : Stays e w s a)
    (hb : Stays e w s b) : Stays e w s (if c then a else b) := by
  split <;> assumption

theorem Stays.foldl {e : Option Ep} {w : Nat → Prop} {β : Type _} {s t : State} {f : State → β → State} (l : List β)
    (h : Stays e w s t) (hf : ∀ u x, Stays e w s u → Stays e w s (f u x)) : Stays e w s (l.foldl f t) := by
  induction l generalizing t with
  | nil => exact h
  | cons x l ih => exact ih (hf t x h)

theorem Memory.wf_setReg {s : State} (k : Nat) (v : Word) (h : Memory.wf s = true) : Memory.wf (s.setReg k v) = true := by
  simp only [Memory.wf, Bool.and_eq_true] at h ⊢
  exact ⟨⟨⟨⟨⟨⟨⟨⟨s.swf_setReg k v h.1.1.1.1.1.1.1.1, h.1.1.1.1.1.1.1.2⟩, h.1.1.1.1.1.1.2⟩, h.1.1.1.1.1.2⟩, h.1.1.1.1.2⟩, h.1.1.1.2⟩,
    h.1.1.2⟩, h.1.2⟩, h.2⟩

theorem Memory.wf_regs {s : State} (h : Memory.wf s = true) : swf resetWord s.regs = true := by
  simp only [Memory.wf, Bool.and_eq_true] at h
  exact h.1.1.1.1.1.1.1.1

theorem Memory.wf_chn {s : State} (h : Memory.wf s = true) : swf (fun _ => ({} : ChanAux)) s.chn = true := by
  simp only [Memory.wf, Bool.and_eq_true] at h
  exact h.1.1.1.1.1.1.1.2

theorem Memory.wf_grp {s : State} (h : Memory.wf s = true) : swf (fun _ => ({} : GrpAux)) s.grp = true := by
  simp only [Memory.wf, Bool.and_eq_true] at h
  exact h.1.1.1.1.1.1.2

theorem Memory.wf_ring {s : State} (h : Memory.wf s = true) : swf (fun _ => ({} : RingAux)) s.ring = true := by
  simp only [Memory.wf, Bool.and_eq_true] at h
  exact h.1.1.1.1.1.2

/-- A register of w, or one of those that carry commands. -/
theorem Stays.setReg {e : Option Ep} {w : Nat → Prop} {s t : State} (k : Nat) (v : Word) (h : Stays e w s t)
    (hk : w k ∨ ioKey e k) (hr : k ≠ aRecStat ∨ w aRecStat) : Stays e w s (t.setReg k v) :=
  { h with
    reg := fun j a b => by
      have hj : j ≠ k := by rintro rfl; exact hk.elim a b
      rw [State.reg_setReg_other _ _ _ _ hj]
      exact h.reg j a b
    canon := fun a => State.swf_setReg _ _ _ (h.canon a)
    replay := fun a b => by
      have hj : aRecStat ≠ k := by
        rintro rfl
        exact hr.elim (fun c => c rfl) a
      rw [State.fld, State.reg_setReg_other _ _ _ _ hj]
      exact h.replay a b
    port := fun x a => by rw [State.port_setReg]; exact h.port x a
    own := fun x a => by rw [State.port_setReg]; exact h.own x a }

theorem Stays.setFld {e : Option Ep} {w : Nat → Prop} {s t : State} (k lo n v : Nat) (h : Stays e w s t)
    (hk : w k ∨ ioKey e k) (hr : (k ≠ aRecStat ∨ w aRecStat) ∨ 3 ≤ lo) : Stays e w s (t.setFld k lo n v) := by
  rcases hr with hr | hr
  · exact h.setReg k _ hk hr
  · by_cases hq : k = aRecStat
    · subst hq
      exact { h with
        reg := fun j a b => by
          have hj : j ≠ aRecStat := by rintro rfl; exact hk.elim a b
          rw [State.reg_setFld_other _ _ _ _ _ _ hj]
          exact h.reg j a b
        canon := fun a => State.swf_setReg _ _ _ (h.canon a)
        replay := fun a b => (State.fld_setFld_beside _ _ _ _ _ _ _ (h.canon b) (.inl hr)).trans (h.replay a b)
        port := fun x a => by rw [State.port_setFld]; exact h.port x a
        own := fun x a => by rw [State.port_setFld]; exact h.own x a }
    · exact h.setReg k _ hk (.inl hq)

theorem Stays.setFlag {e : Option Ep} {w : Nat → Prop} {s t : State} (k i : Nat) (b : Bool) (h : Stays e w s t)
    (hk : w k ∨ ioKey e k) (hr : (k ≠ aRecStat ∨ w aRecStat) ∨ 3 ≤ i) : Stays e w s (t.setFlag k i b) :=
  h.setFld k i 1 _ hk hr

theorem Stays.count {e : Option Ep} {w : Nat → Prop} {s t : State} (k : Nat) (h : Stays e w s t)
    (hk : w k ∨ ioKey e k) (hr : k ≠ aRecStat ∨ w aRecStat) : Stays e w s (t.count k) := h.setReg k _ hk hr

/-- A change of Chrysalis that keeps the directory, the replay and the epoch. -/
theorem Stays.chrys {e : Option Ep} {w : Nat → Prop} {s t : State} (c : Chrys) (h : Stays e w s t)
    (hd : c.dir = t.chrys.dir ∧ c.replay = t.chrys.replay ∧ c.trailCap = t.chrys.trailCap ∧ c.run = t.chrys.run ∧
      c.prof = t.chrys.prof ∧ c.epoch = t.chrys.epoch) : Stays e w s { t with chrys := c } :=
  { h with
    canon := h.canon
    replay := h.replay
    port := fun x a => (h.port x a)
    own := fun x a => (h.own x a)
    dir := by have := h.dir; simp only [hd, this, and_self] }

theorem Stays.setPort {w : Nat → Prop} {s t : State} (e : Ep) (p : Port) (h : Stays (some e) w s t)
    (hp : p.unlocked = (t.port e).unlocked ∧ p.crSeen = (t.port e).crSeen ∧ p.dropping = (t.port e).dropping ∧
      p.typed = (t.port e).typed ∧ p.remote = (t.port e).remote ∧ p.nextId = (t.port e).nextId ∧
      p.rdShadow = (t.port e).rdShadow ∧ p.wrShadow = (t.port e).wrShadow) : Stays (some e) w s (t.setPort e p) where
  pending := by rw [State.setPort_pending]; exact h.pending
  member := by rw [State.setPort_member]; exact h.member
  uid := by rw [State.setPort_uid]; exact h.uid
  freeIdx := by rw [State.setPort_freeIdx]; exact h.freeIdx
  reg := fun k a b => by rw [State.reg_setPort]; exact h.reg k a b
  canon := by rw [State.setPort_regs]; exact h.canon
  replay := fun a b => by rw [State.fld, State.reg_setPort]; exact h.replay a b
  sup := by rw [State.setPort_sup]; exact h.sup
  clk := by rw [State.setPort_clk]; exact h.clk
  port := fun x a => by
    have hx : x ≠ e := by rintro rfl; exact a rfl
    rw [State.port_setPort_other _ _ _ _ hx]; exact h.port x a
  own := fun x a => by
    obtain rfl : e = x := by simpa using a
    have h' := h.own e rfl
    rw [State.port_setPort_same]
    simp only [hp, h', and_self]
  events := by rw [State.setPort_evNew, State.setPort_evNext, State.setPort_evq]; exact h.events
  wdog := by rw [State.setPort_wdog]; exact h.wdog
  pwFails := by rw [State.setPort_pwFails]; exact h.pwFails
  session := by rw [State.setPort_session]; exact h.session
  chn := by rw [State.setPort_chn]; exact h.chn
  grp := by rw [State.setPort_grp]; exact h.grp
  rf := by rw [State.setPort_rf]; exact h.rf
  pf := by rw [State.setPort_pf]; exact h.pf
  dir := by rw [State.setPort_chrys]; exact h.dir
  syncs := by rw [State.setPort_syncs]; exact h.syncs
  ring := by rw [State.setPort_ring]; exact h.ring
  kat := by rw [State.setPort_kat]; exact h.kat
  s5regs := by rw [State.setPort_s5regs]; exact h.s5regs

theorem Stays.send {w : Nat → Prop} {s t : State} (e : Ep) (x : TxItem) (h : Stays (some e) w s t) :
    Stays (some e) w s (t.send e x) := h.setPort e _ ⟨rfl, rfl, rfl, rfl, rfl, rfl, rfl, rfl⟩

/-- The same change of the time, the watchdog, the supervisor, the event queue, the implied state of channels, groups or
controllers on both sides. -/
theorem Stays.withClk {e : Option Ep} {w : Nat → Prop} {s t : State} (c : Clk) (h : Stays e w s t) :
    Stays e w { s with clk := c } { t with clk := c } := { h with clk := rfl }
theorem Stays.withWdog {e : Option Ep} {w : Nat → Prop} {s t : State} (c : Wdog) (h : Stays e w s t) :
    Stays e w { s with wdog := c } { t with wdog := c } := { h with wdog := rfl }
theorem Stays.withSup {e : Option Ep} {w : Nat → Prop} {s t : State} (c : Sup) (h : Stays e w s t) :
    Stays e w { s with sup := c } { t with sup := c } := { h with sup := rfl }
theorem Stays.withEvq {e : Option Ep} {w : Nat → Prop} {s t : State} (q : List EvEntry) (h : Stays e w s t) :
    Stays e w { s with evq := q } { t with evq := q } :=
  { h with events := fun a => ⟨(h.events a).1, (h.events a).2.1, rfl⟩ }
theorem Stays.withChn {e : Option Ep} {w : Nat → Prop} {s t : State} (c : Sparse ChanAux) (h : Stays e w s t) :
    Stays e w { s with chn := c } { t with chn := c } := { h with chn := rfl }
theorem Stays.withGrp {e : Option Ep} {w : Nat → Prop} {s t : State} (c : Sparse GrpAux) (h : Stays e w s t) :
    Stays e w { s with grp := c } { t with grp := c } := { h with grp := rfl }
theorem Stays.withRing {e : Option Ep} {w : Nat → Prop} {s t : State} (c : Sparse RingAux) (h : Stays e w s t) :
    Stays e w { s with ring := c } { t with ring := c } := { h with ring := fun _ => rfl }
theorem Stays.withKat {e : Option Ep} {w : Nat → Prop} {s t : State} (c : Sparse Nat) (h : Stays e w s t) :
    Stays e w { s with kat := c } { t with kat := c } := { h with kat := rfl }
theorem Stays.withRf {e : Option Ep} {w : Nat → Prop} {s t : State} (c : RFlash) (h : Stays e w s t) :
    Stays e w { s with rf := c } { t with rf := c } := { h with rf := rfl }
theorem Stays.withPf {e : Option Ep} {w : Nat → Prop} {s t : State} (c : PFlash) (h : Stays e w s t) :
    Stays e w { s with pf := c } { t with pf := c } := { h with pf := rfl }
theorem Stays.withSyncs {e : Option Ep} {w : Nat → Prop} {s t : State} (c : List (Nat × Nat)) (h : Stays e w s t) :
    Stays e w { s with syncs := c } { t with syncs := c } := { h with syncs := rfl }
theorem Stays.withPwFails {e : Option Ep} {w : Nat → Prop} {s t : State} (c : Nat) (h : Stays e w s t) :
    Stays e w { s with pwFails := c } { t with pwFails := c } := { h with pwFails := rfl }

/-! ### Records -/

theorem ioKey_recStat (e : Option Ep) : ioKey e aRecStat := .inr (.inl rfl)
theorem ioKey_capsule (e : Option Ep) : ioKey e 0x70024 := .inr (.inr (.inl rfl))
theorem ioKey_fill (e : Option Ep) : ioKey e 0x70F08 := .inr (.inr (.inr (.inl rfl)))
theorem ioKey_evstat (e : Option Ep) : ioKey e 0x20020 := .inl rfl

theorem Stays.trailPut {e : Option Ep} {w : Nat → Prop} {s t : State} (i : Nat) (v : BitVec 64) (h : Stays e w s t) :
    Stays e w s (t.trailPut i v) := by
  unfold State.trailPut
  have h' : Stays e w s { t with chrys := { t.chrys with trail := sset 0 t.chrys.trail i v } } :=
    h.chrys _ ⟨rfl, rfl, rfl, rfl, rfl, rfl⟩
  dsimp only
  split
  · exact h'.setReg _ _ (.inr (ioKey_fill e)) (.inl (by decide))
  · exact h'

theorem Stays.beginLine {e : Option Ep} {w : Nat → Prop} {s t : State} (h : Stays e w s t) : Stays e w s t.beginLine := by
  unfold State.beginLine
  split
  · exact (h.setFlag aRecStat 7 true (.inr (ioKey_recStat e)) (.inr (by decide))).chrys _ ⟨rfl, rfl, rfl, rfl, rfl, rfl⟩
  · exact (h.trailPut _ _).chrys _ ⟨rfl, rfl, rfl, rfl, rfl, rfl⟩

theorem Stays.putStream {e : Option Ep} {w : Nat → Prop} {s t : State} (head : Bool) (v : BitVec 64) (h : Stays e w s t) :
    Stays e w s (t.putStream head v) := by
  unfold State.putStream
  have h1 : Stays e w s (if t.chrys.word = 0 then t.beginLine else t) := Stays.ite h.beginLine h
  generalize (if t.chrys.word = 0 then t.beginLine else t) = s1 at h1
  have key : ∀ t', Stays e w s t' → Stays e w s (
      let t := { t' with chrys := { t'.chrys with secBytes := t'.chrys.secBytes + 8 } }
      if s1.chrys.word < 7 then { t with chrys := { t.chrys with word := s1.chrys.word + 1 } }
      else if s1.chrys.line + 1 < t.trailLines then
        { t with chrys := { t.chrys with word := 0, line := s1.chrys.line + 1, lseq := s1.chrys.lseq + 1 } }
      else
        let t := t.setReg 0x70F08 (word t.member.trailSize)
        { t with chrys := { t.chrys with word := 0, line := 0, lseq := s1.chrys.lseq + 1 } }) := by
    intro t' h'
    have h2 : Stays e w s { t' with chrys := { t'.chrys with secBytes := t'.chrys.secBytes + 8 } } :=
      h'.chrys _ ⟨rfl, rfl, rfl, rfl, rfl, rfl⟩
    exact Stays.ite (h2.chrys _ ⟨rfl, rfl, rfl, rfl, rfl, rfl⟩) (Stays.ite (h2.chrys _ ⟨rfl, rfl, rfl, rfl, rfl, rfl⟩)
      ((h2.setReg _ _ (.inr (ioKey_fill e)) (.inl (by decide))).chrys _ ⟨rfl, rfl, rfl, rfl, rfl, rfl⟩))
  dsimp only
  split
  · exact h1
  · exact key _ ((Stays.ite (h1.trailPut _ _) h1).trailPut _ _)

theorem Stays.rateTick {e : Option Ep} {w : Nat → Prop} {s t : State} (h : Stays e w s t) : Stays e w s t.rateTick := by
  unfold State.rateTick
  dsimp only
  split
  · exact h
  · exact h.chrys _ ⟨rfl, rfl, rfl, rfl, rfl, rfl⟩

/-- A record leaves everything but the trail. -/
theorem Stays.record {e : Option Ep} {w : Nat → Prop} {s t : State} (kind src flag : Nat) (p : List Word) (h : Stays e w s t) :
    Stays e w s (t.record kind src flag p) := by
  unfold State.record
  split
  · refine Stays.foldl _ (Stays.putStream _ _ ?_) (fun u x hu => hu.putStream _ _)
    exact Stays.ite h.rateTick (h.rateTick.chrys _ ⟨rfl, rfl, rfl, rfl, rfl, rfl⟩)
  · exact h

/-! ### The events of a step -/

/-- An event is added to those of the step. -/
theorem Stays.emit {e : Option Ep} {w : Nat → Prop} {s t : State} (c : Ev) (o : Obj) (d : List Fld) (h : Stays e w s t)
    (hs : s.evNew ≠ []) : Stays e w s (t.emit c o d) :=
  { h with events := fun a => absurd a hs }

theorem Stays.emit_both {e : Option Ep} {w : Nat → Prop} {s t : State} (c : Ev) (o : Obj) (d : List Fld) (h : Stays e w s t) :
    Stays e w (s.emit c o d) (t.emit c o d) :=
  { h with events := fun a => absurd a (by simp [State.emit]) }

theorem Stays.startCapsule {e : Option Ep} {w : Nat → Prop} {s t : State} (tr : Trg) (h : Stays e w s t) (hs : s.evNew ≠ []) :
    Stays e w s (State.startCapsule tr t) := by
  unfold State.startCapsule
  dsimp only
  split
  · exact h
  · exact Stays.emit _ _ _ (((h.setReg _ _ (.inr (ioKey_capsule e)) (.inl (by decide))).setFld _ _ _ _ (.inr (ioKey_recStat e))
      (.inr (by decide))).chrys _ ⟨rfl, rfl, rfl, rfl, rfl, rfl⟩) hs

theorem Stays.trigLost {e : Option Ep} {w : Nat → Prop} {s t : State} (k : Nat) (h : Stays e w s t) (hs : s.evNew ≠ []) :
    Stays e w s (State.trigLost k t) :=
  Stays.emit _ _ _ (h.setFld _ _ _ _ (.inr (ioKey_recStat e)) (.inr (by decide))) hs

theorem Stays.trigger {e : Option Ep} {w : Nat → Prop} {s t : State} (k : Nat) (o : BitVec 16) (h : Stays e w s t)
    (hs : s.evNew ≠ []) : Stays e w s (State.trigger k o t) := by
  unfold State.trigger
  dsimp only
  have hr := h.record 0x2D 0 0 [word k, o.setWidth 32]
  split
  · exact h
  · split
    · exact hr.trigLost _ hs
    · split
      · exact hr.startCapsule _ hs
      · split
        · exact hr.chrys _ ⟨rfl, rfl, rfl, rfl, rfl, rfl⟩
        · split
          · exact hr.trigLost _ hs
          · exact (hr.setFlag _ 5 _ (.inr (ioKey_recStat e)) (.inr (by decide))).chrys _ ⟨rfl, rfl, rfl, rfl, rfl, rfl⟩

theorem Stays.pushEvent {e : Option Ep} {w : Nat → Prop} {s t : State} (x : Event) (h : Stays e w s t) (hs : s.evNew ≠ []) :
    Stays e w s (t.pushEvent x) := by
  unfold State.pushEvent
  dsimp only
  split
  · exact { h with events := fun a => absurd a hs }
  · exact { h.setFlag 0x20020 9 true (.inr (ioKey_evstat e)) (.inr (by decide)) with events := fun a => absurd a hs }

/-- The end of a step changes only the event queue, and by a trigger Chrysalis. -/
theorem Stays.flush {e : Option Ep} {w : Nat → Prop} {s t : State} (h : Stays e w s t) : Stays e w s t.flush := by
  by_cases ht : t.evNew = []
  · unfold State.flush; rw [ht]; exact h
  · refine h.trans ?_
    unfold State.flush
    split
    · exact Stays.refl ..
    · refine Stays.foldl _ ?_ (fun u x hu => hu.pushEvent _ ht)
      have h1 : Stays e w t (match t.pickTrig t.evNew with
        | some (b, o) => t.trigger b o
        | none => t) := by
        split
        · exact (Stays.refl ..).trigger _ _ ht
        · exact Stays.refl ..
      exact { h1 with events := fun a => absurd a ht }

end Sys2Proof.Machine
end

