-- ==== Sys2Proof/Laws/Line.lean ====
section
/-!
SUPPORT. A line from its FIFO to its answer: what taking it, answering it and ending the step leave, and that a line which
passes its checks runs its effect.
-/
namespace Sys2Proof.Machine

/-! ### Taking a line -/

theorem Stays.taken (w : Nat → Prop) (ln : Line) (s : State) : Stays (some ln.ep) w s (taken ln s) := by
  unfold Machine.taken takeLine
  split
  · exact (Stays.refl ..).setPort _ _ ⟨rfl, rfl, rfl, rfl, rfl, rfl, rfl, rfl⟩
  · exact Stays.refl ..

theorem taken_reg (ln : Line) (s : State) (k : Nat) : (taken ln s).reg k = s.reg k := by
  unfold taken takeLine
  split <;> simp

theorem taken_tags (ln : Line) (s : State) (e : Ep) : ((taken ln s).port e).tags = (s.port e).tags ∧
    ((taken ln s).port e).tx = (s.port e).tx := by
  unfold taken takeLine
  split
  · by_cases h : e = ln.ep
    · subst h; simp
    · simp [State.port_setPort_other _ _ _ _ h]
  · simp

theorem Stays.countSuffix {w : Nat → Prop} {s t : State} (ln : Line) (h : Stays (some ln.ep) w s t) :
    Stays (some ln.ep) w s (countSuffix ln t) := by
  unfold Machine.countSuffix
  split
  · rename_i hc
    refine h.count _ (.inr ?_) (.inl ?_)
    · unfold ioKey
      cases he : ln.ep <;> simp_all
    · split <;> decide
  · exact h

theorem Stays.recLine {w : Nat → Prop} {e : Option Ep} {s t : State} (x : Ep) (b : Bool) (l : List Byte) (v : Nat)
    (h : Stays e w s t) : Stays e w s (recLine x b l v t) := by
  unfold Machine.recLine
  split
  · exact h
  · exact h.record ..

/-- Taking an accepted line leaves everything but its FIFO, its counter and the record. -/
theorem Stays.accepted (w : Nat → Prop) (ln : Line) (f : Form) (s : State) : Stays (some ln.ep) w s (accepted ln f s) :=
  (Stays.countSuffix ln (Stays.taken w ln s)).recLine ..

theorem State.record_port (s : State) (kind src flag : Nat) (p : List Word) (e : Ep) :
    (s.record kind src flag p).port e = s.port e :=
  ((Stays.refl none noReg s).record kind src flag p).port e (by simp)

theorem accepted_tags (ln : Line) (f : Form) (s : State) (e : Ep) : ((accepted ln f s).port e).tags = (s.port e).tags ∧
    ((accepted ln f s).port e).tx = (s.port e).tx := by
  have h1 : ∀ t : State, (recLine ln.ep f.secret (takenBytes ln s) 0 t).port e = t.port e := by
    intro t
    unfold recLine
    split
    · rfl
    · rw [State.record_port]
  have h2 : ∀ t : State, (countSuffix ln t).port e = t.port e := by
    intro t
    unfold countSuffix
    split
    · simp
    · rfl
  unfold accepted
  rw [h1, h2]
  exact taken_tags ln s e

/-! ### Checks -/

theorem pick_eq_none (l : List (Code × Bool)) : pick l = none ↔ ∀ p ∈ l, p.2 = false := by
  induction l with
  | nil => simp [pick]
  | cons p l ih =>
    obtain ⟨c, b⟩ := p
    cases b
    · simpa [pick] using ih
    · simp only [pick]
      constructor
      · intro h
        split at h <;> simp_all
        split at h <;> simp_all
      · intro h
        exact absurd (h _ (List.mem_cons_self ..)) (by simp)

theorem fenced_congr {s t : State} (u : Un) (hs : t.sup = s.sup)
    (hr : ∀ k, 0x30 ≤ k → k < 0x20000 → t.reg k = s.reg k) (hg : ∀ g k, u = .grp g k → g < 0x4000) : t.fenced u = s.fenced u := by
  unfold State.fenced
  cases u with
  | cp0 => simp only; rw [hs]
  | grp g k =>
    have := hg g k rfl
    simp only [Un.fenceBit]
    exact State.flag_of_reg (hr _ (by omega) (by omega)) _
  | sup => rfl
  | xo => rfl
  | _ =>
    simp only [Un.fenceBit]
    exact State.flag_of_reg (hr _ (by omega) (by omega)) _

/-- The units that do not belong to a group. -/
theorem Stays.fenced {e : Option Ep} {w : Nat → Prop} {s t : State} (h : Stays e w s t) (u : Un)
    (hw : ∀ k, 0x30 ≤ k → k < 0x20000 → ¬ w k) (hg : ∀ g k, u = .grp g k → g < 0x4000) : t.fenced u = s.fenced u :=
  fenced_congr u h.sup (fun k a b => h.reg k (hw k a b) (by unfold ioKey; omega)) hg

theorem suffixErr_congr {s t : State} (ln : Line) (c : Bool) (hr : ∀ k, k < 0x20004 ∨ k = 0x20010 → t.reg k = s.reg k)
    (hs : t.sup = s.sup) : suffixErr ln c t = suffixErr ln c s := by
  have hf : ∀ u, (∀ g k, u ≠ .grp g k) → t.fenced u = s.fenced u := fun u hu =>
    fenced_congr u hs (fun k _ b => hr k (.inl (by omega))) (fun g k a => absurd a (hu g k))
  have hc : ∀ e, t.fenced (cvuOf e) = s.fenced (cvuOf e) := fun e => hf _ (by
    intro g k; unfold cvuOf; split <;> simp)
  have hg : ∀ e, t.generated e = s.generated e := fun e => State.flag_of_reg (hr _ (by
    unfold aCfg; split <;> simp)) _
  have h24 : t.flag 0x24 14 = s.flag 0x24 14 := State.flag_of_reg (hr _ (.inl (by decide))) _
  unfold suffixErr
  simp only [hc, hg, h24]

theorem findTag_congr {s t : State} (ln : Line) (h : (t.port ln.ep).tags = (s.port ln.ep).tags) :
    findTag ln t = findTag ln s := by
  unfold findTag
  split
  · rfl
  · rw [h]

/-- What the base checks read, a line that is taken leaves. -/
theorem Passes.base {ln : Line} {f : Form} {s : State} (h : Passes ln f s) (hw : Memory.wf s = true) :
    ∀ p ∈ baseChecks ln f (accepted ln f s), p.2 = false := by
  have ha := Stays.accepted noReg ln f s
  have hl : ∀ e, ((accepted ln f s).port e).unlocked = (s.port e).unlocked := by
    intro e
    by_cases he : e = ln.ep
    · exact (ha.own e (by rw [he])).1
    · rw [ha.port e (by simpa using fun c => he c.symm)]
  have hlk : (accepted ln f s).locked ln.ep = s.locked ln.ep := by
    unfold State.locked State.pwSet
    rw [ha.pf, hl]
  have hrp : (accepted ln f s).replaying = s.replaying := by
    unfold State.replaying
    rw [ha.replay (by simp) (Memory.wf_regs hw)]
  intro p hp
  simp only [baseChecks, List.mem_cons, List.not_mem_nil, or_false] at hp
  rw [ha.sup, hlk, hrp] at hp
  rcases hp with rfl | rfl | rfl | rfl | rfl | rfl | rfl
  · rcases h.stage with hs | hs <;> simp [hs]
  · rcases h.stage with hs | hs <;> simp [hs]
  · simp [h.object]
  · cases hf : f.locked
    · rfl
    · simpa [hf] using h.opened hf
  · simp [h.args]
  · cases hf : f.replay
    · rfl
    · simpa [hf] using h.live hf
  · simp [h.ints]

/-! ### The run of a line -/

/-- A line that passes runs as its form says. -/
theorem gateLine_passes {ln : Line} {f : Form} {s : State} (hp : Passes ln f s) (refusal : State → Option Code)
    (go : State → State) (hr : refusal (accepted ln f s) = none) : gateLine ln f refusal go s = go (accepted ln f s) := by
  unfold gateLine
  rw [if_neg (by simp [hp.serves, hp.free])]
  dsimp only
  have h1 : suffixErr ln f.core (taken ln s) = none := by
    rw [suffixErr_congr ln f.core (fun k _ => taken_reg ln s k) (Stays.taken noReg ln s).sup]
    exact hp.suffix
  rw [h1]
  have h2 : findTag ln (accepted ln f s) = none := by
    rw [findTag_congr ln (accepted_tags ln f s ln.ep).1]
    exact hp.fresh
  have h2' : findTag ln (recLine ln.ep f.secret (takenBytes ln s) 0 (countSuffix ln (taken ln s))) = none := h2
  have hr' : refusal (recLine ln.ep f.secret (takenBytes ln s) 0 (countSuffix ln (taken ln s))) = none := hr
  dsimp only
  rw [h2']
  dsimp only
  rw [hr']
  rfl

/-- The line that passes its own checks too runs its effect, is answered, and does what follows its response. -/
theorem runLine_passes {ln : Line} {f : Form} {s : State} (hp : Passes ln f s) (hw : Memory.wf s = true)
    (checks : State → List (Code × Bool)) (eff : State → State × Resp) (post : State → State)
    (hc : ∀ p ∈ checks (accepted ln f s), p.2 = false) :
    runLine ln f checks eff s post = post (answer ln (eff (accepted ln f s)).2 (eff (accepted ln f s)).1) := by
  unfold runLine execLine
  refine gateLine_passes hp _ _ ((pick_eq_none _).2 ?_)
  intro p hm
  rcases List.mem_append.1 hm with h | h
  · exact hp.base hw p h
  · exact hc p h

theorem execLine_passes {ln : Line} {f : Form} {s : State} (hp : Passes ln f s) (refusal : State → Option Code)
    (eff : State → State × Resp) (post : State → State) (hr : refusal (accepted ln f s) = none) :
    execLine ln f refusal eff s post = post (answer ln (eff (accepted ln f s)).2 (eff (accepted ln f s)).1) :=
  gateLine_passes hp _ _ hr

/-! ### The answer -/

theorem Stays.addTag {w : Nat → Prop} {s t : State} (ln : Line) (a : Option Answer) (h : Stays (some ln.ep) w s t) :
    Stays (some ln.ep) w s (addTag ln a t) := by
  unfold Machine.addTag
  split
  · exact h
  · dsimp only
    refine Stays.setPort _ _ ?_ ⟨rfl, rfl, rfl, rfl, rfl, rfl, rfl, rfl⟩
    split
    · rename_i hc
      refine h.setFlag _ 3 _ (.inr ?_) (.inr (by decide))
      unfold ioKey aPstat
      cases he : ln.ep <;> simp_all
    · exact h

theorem Stays.mailRespond {w : Nat → Prop} {s t : State} (o : Origin) (g : Option (BitVec 16)) (d : Bool) (x : List Byte)
    (h : Stays (some .mail) w s t) : Stays (some .mail) w s (mailRespond o g d x t) := by
  unfold Machine.mailRespond
  split
  · exact h
  · rename_i c hc
    have hc2 : c < 2 := by
      unfold State.route at hc
      split at hc
      · rename_i c' h'
        have := List.mem_of_find?_eq_some h'
        simp at hc this; omega
      · split at hc
        · simp at hc
        · split at hc
          · dsimp only at hc
            split at hc <;> simp at hc <;> omega
          · have := List.mem_of_find?_eq_some hc
            simpa using this
    dsimp only
    split
    · unfold mailPut State.setRg
      exact { h with
        port := fun x a => h.port x a
        own := fun x a => h.own x a
        ring := fun a => absurd rfl a }
    · unfold mailDiscard
      refine h.setFld _ _ _ _ (.inr ?_) (.inl (.inl ?_))
      · unfold ioKey rgA
        have : c = 0 ∨ c = 1 := by omega
        rcases this with rfl | rfl <;> simp
      · unfold rgA aRecStat; omega

theorem Stays.sendEvents {w : Nat → Prop} {s t : State} (e : Ep) (h : Stays (some e) w s t) :
    Stays (some e) w s (sendEvents e t) := by
  unfold Machine.sendEvents
  split
  · dsimp only
    refine Stays.foldl _ ?_ (fun u x hu => hu.send _ _)
    exact { h with
      port := fun x a => h.port x a
      own := fun x a => h.own x a
      events := fun a => by
        have h' := h.events a
        refine ⟨h'.1, h'.2.1, ?_⟩
        rw [← h'.2.2, List.map_map]
        apply List.map_congr_left
        intro x _
        simp only [Function.comp, EvEntry.mark]
        split <;> rfl }
  · exact h

theorem Stays.respond {w : Nat → Prop} {s t : State} (ln : Line) (a : Answer) (d : Bool) (h : Stays (some ln.ep) w s t) :
    Stays (some ln.ep) w s (respond ln a d t) := by
  unfold Machine.respond
  split
  · exact h
  · dsimp only
    split
    · rename_i he _
      rw [he] at h ⊢
      exact (h.send _ _).mailRespond ..
    · exact h.send _ _
    · split
      · exact h.send _ _
      · exact ((h.send _ _).sendEvents _).send _ _

theorem Stays.answer {w : Nat → Prop} {s t : State} (ln : Line) (r : Resp) (h : Stays (some ln.ep) w s t) :
    Stays (some ln.ep) w s (answer ln r t) := (h.addTag ln _).respond ..

theorem addTag_tx (ln : Line) (a : Option Answer) (s : State) (e : Ep) : ((addTag ln a s).port e).tx = (s.port e).tx := by
  unfold addTag
  split
  · rfl
  · dsimp only
    by_cases h : e = ln.ep
    · subst h; rw [State.port_setPort_same]; dsimp only; split <;> simp
    · rw [State.port_setPort_other _ _ _ _ h]; split <;> simp

theorem addTag_mem (ln : Line) (r : Answer) (s : State) (g : BitVec 16) (hg : ln.tag = some g) :
    ∃ x ∈ ((addTag ln (some r) s).port ln.ep).tags, x.tag = g ∧ x.origin = ln.origin ∧ x.fp = ln.fp ∧ x.resp = some r := by
  unfold addTag
  rw [hg]
  dsimp only
  rw [State.port_setPort_same]
  exact ⟨_, List.mem_append.2 (.inr (List.mem_singleton.2 rfl)), rfl, rfl, rfl, rfl⟩

theorem sendEvents_tx (e : Ep) (s : State) : ∃ l, ((sendEvents e s).port e).tx = l ++ (s.port e).tx ∧
    (∀ x ∈ l, ∃ y a b, x = TxItem.event y a b) ∧ ((sendEvents e s).port e).tags = (s.port e).tags := by
  unfold sendEvents
  split
  · dsimp only
    have key : ∀ (out : List EvEntry) (t : State), ∃ l,
        ((out.foldl (fun u x => u.send e (.event x (s.flag (aCfg e) 3) (s.lineCrc e))) t).port e).tx = l ++ (t.port e).tx ∧
        (∀ x ∈ l, ∃ y a b, x = TxItem.event y a b) ∧
        ((out.foldl (fun u x => u.send e (.event x (s.flag (aCfg e) 3) (s.lineCrc e))) t).port e).tags = (t.port e).tags := by
      intro out
      induction out with
      | nil => intro t; exact ⟨[], rfl, by simp, rfl⟩
      | cons y out ih =>
        intro t
        obtain ⟨l, h1, h2, h3⟩ := ih (t.send e (.event y (s.flag (aCfg e) 3) (s.lineCrc e)))
        refine ⟨l ++ [.event y (s.flag (aCfg e) 3) (s.lineCrc e)], ?_, ?_, ?_⟩
        · rw [List.foldl_cons, h1]; simp [State.send]
        · intro x hx
          rcases List.mem_append.1 hx with h | h
          · exact h2 x h
          · exact ⟨_, _, _, List.mem_singleton.1 h⟩
        · rw [List.foldl_cons, h3]; simp [State.send]
    obtain ⟨l, h1, h2, h3⟩ := key (s.evq.filter fun x => !x.sent e) { s with evq := s.evq.map (·.mark e) }
    refine ⟨l, ?_, h2, ?_⟩
    · have hp : (State.port { s with evq := s.evq.map (·.mark e) } e).tx = (s.port e).tx := by cases e <;> rfl
      rw [← hp]
      exact h1
    · have hp : (State.port { s with evq := s.evq.map (·.mark e) } e).tags = (s.port e).tags := by cases e <;> rfl
      rw [← hp]
      exact h3
  · exact ⟨[], rfl, by simp, rfl⟩

theorem mailRespond_port (o : Origin) (g : Option (BitVec 16)) (d : Bool) (x : List Byte) (s : State) (e : Ep) :
    (mailRespond o g d x s).port e = s.port e := by
  unfold mailRespond
  split
  · rfl
  · dsimp only
    split
    · unfold mailPut; simp
    · unfold mailDiscard; simp

/-- What was answered stands in the sent lines and in the tag cache. -/
theorem answered_answer (ln : Line) (r : Resp) (s : State) : Answered ln r s (answer ln r s) := by
  unfold answer respond
  generalize hu : addTag ln (some (.loc r)) s = u
  have htx : (u.port ln.ep).tx = (s.port ln.ep).tx := by rw [← hu]; exact addTag_tx ..
  have htg : ∀ g, ln.tag = some g → ∃ x ∈ (u.port ln.ep).tags, x.tag = g ∧ x.origin = ln.origin ∧ x.fp = ln.fp ∧
      x.resp = some (.loc r) := by
    intro g hg; rw [← hu]; exact addTag_mem ln _ s g hg
  split
  · rename_i hb
    refine ⟨fun h => ?_, htg⟩
    unfold isSilent at h; rw [hb] at h; cases h
  · dsimp only
    have hs : ∀ t : State, t = u.send ln.ep (.resp ln.addr (.loc r) false (u.respCrc ln)) →
        (t.port ln.ep).tx = .resp ln.addr (.loc r) false (u.respCrc ln) :: (s.port ln.ep).tx ∧
        (t.port ln.ep).tags = (u.port ln.ep).tags := by
      rintro t rfl
      simp [State.send, htx]
    obtain ⟨h1, h2⟩ := hs _ rfl
    generalize u.send ln.ep (.resp ln.addr (.loc r) false (u.respCrc ln)) = t at h1 h2 ⊢
    have fin : ∀ v : State, (∃ l, (v.port ln.ep).tx = l ++ (t.port ln.ep).tx ∧
        (∀ x ∈ l, x = .prompt ∨ ∃ e a b, x = .event e a b) ∧ (v.port ln.ep).tags = (t.port ln.ep).tags) → Answered ln r s v := by
      rintro v ⟨l, a, b, c⟩
      refine ⟨fun _ => ⟨l, u.respCrc ln, by rw [a, h1], b⟩, fun g hg => ?_⟩
      rw [c, h2]; exact htg g hg
    split
    · exact fin _ ⟨[], by rw [mailRespond_port]; simp⟩
    · exact fin _ ⟨[], by simp⟩
    · split
      · exact fin _ ⟨[], by simp⟩
      · obtain ⟨l, a, b, c⟩ := sendEvents_tx ln.ep t
        refine fin _ ⟨.prompt :: l, ?_, ?_, ?_⟩
        · simp [State.send, a]
        · intro x hx
          rcases List.mem_cons.1 hx with h | h
          · exact .inl h
          · exact .inr (b x h)
        · simp [State.send, c]

theorem flush_port (s : State) (e : Ep) : s.flush.port e = s.port e := by
  exact (Stays.refl none noReg s).flush.port e (by simp)

theorem Answered.flush {ln : Line} {r : Resp} {s t : State} (h : Answered ln r s t) : Answered ln r s t.flush := by
  unfold Answered
  simp only [flush_port]
  exact h

theorem Answered.congr {ln : Line} {r : Resp} {s s' t : State} (h : Answered ln r s t)
    (hp : (s.port ln.ep).tx = (s'.port ln.ep).tx) : Answered ln r s' t := by
  unfold Answered at h ⊢
  rwa [hp] at h

/-- The whole of a line that passes and has nothing to do after its response. -/
theorem done_passes {ln : Line} {f : Form} {s : State} (hp : Passes ln f s) (hw : Memory.wf s = true)
    (checks : State → List (Code × Bool)) (eff : State → State × Resp) (w : Nat → Prop)
    (hc : ∀ p ∈ checks (accepted ln f s), p.2 = false)
    (ht : ((eff (accepted ln f s)).1.port ln.ep).tx = (s.port ln.ep).tx) :
    ∃ t, done (runLine ln f checks eff s) = .next t ∧ Answered ln (eff (accepted ln f s)).2 s t ∧
      Stays (some ln.ep) w (eff (accepted ln f s)).1 t := by
  refine ⟨_, rfl, ?_, ?_⟩
  · rw [runLine_passes hp hw checks eff noPost hc]
    exact ((answered_answer ..).congr ht).flush
  · rw [runLine_passes hp hw checks eff noPost hc]
    exact ((Stays.refl ..).answer ..).flush

/-- A line that only reads is answered with what it reads of the state after it is taken. -/
theorem value_passes {ln : Line} {f : Form} {s : State} (hp : Passes ln f s) (hw : Memory.wf s = true)
    (checks : State → List (Code × Bool)) (g : State → List Fld) (w : Nat → Prop)
    (hc : ∀ p ∈ checks (accepted ln f s), p.2 = false) :
    ∃ t, done (runLine ln f checks (value g) s) = .next t ∧ Answered ln (.vals (g (accepted ln f s))) s t ∧
      Stays (some ln.ep) w s t := by
  obtain ⟨t, a, b, c⟩ := done_passes hp hw checks (value g) w hc (accepted_tags ln f s ln.ep).2
  exact ⟨t, a, b, (Stays.accepted w ln f s).trans c⟩

/-- A line that acts and answers ok. -/
theorem okay_passes {ln : Line} {f : Form} {s : State} (hp : Passes ln f s) (hw : Memory.wf s = true)
    (checks : State → List (Code × Bool)) (g : State → State) (w : Nat → Prop)
    (hc : ∀ p ∈ checks (accepted ln f s), p.2 = false)
    (hg : ((g (accepted ln f s)).port ln.ep).tx = ((accepted ln f s).port ln.ep).tx) :
    ∃ t, done (runLine ln f checks (okay g) s) = .next t ∧ Answered ln .ok s t ∧
      Stays (some ln.ep) w (g (accepted ln f s)) t :=
  done_passes hp hw checks (okay g) w hc (hg.trans (accepted_tags ln f s ln.ep).2)

theorem ioKey_cfg (e : Option Ep) (x : Ep) : ¬ ioKey e (aCfg x) := by
  unfold ioKey aCfg; split <;> simp

theorem aCfg_ne (x : Ep) : aCfg x ≠ aRecStat := by unfold aCfg aRecStat; split <;> simp

theorem addTag_evNew (ln : Line) (a : Option Answer) (s : State) : (addTag ln a s).evNew = s.evNew := by
  unfold addTag
  split
  · rfl
  · rw [State.setPort_evNew]; split <;> rfl

theorem mailRespond_evNew (o : Origin) (g : Option (BitVec 16)) (d : Bool) (x : List Byte) (s : State) :
    (mailRespond o g d x s).evNew = s.evNew := by
  unfold mailRespond
  split
  · rfl
  · dsimp only; split <;> rfl

theorem sendEvents_evNew (e : Ep) (s : State) : (sendEvents e s).evNew = s.evNew := by
  have key : ∀ (f : EvEntry → TxItem) (out : List EvEntry) (t : State),
      (out.foldl (fun u x => u.send e (f x)) t).evNew = t.evNew := by
    intro f out
    induction out with
    | nil => intro t; rfl
    | cons y out ih => intro t; rw [List.foldl_cons, ih, State.send_evNew]
  unfold sendEvents
  split
  · rw [key]
  · rfl

theorem answer_evNew (ln : Line) (r : Resp) (s : State) : (answer ln r s).evNew = s.evNew := by
  unfold answer respond
  split
  · exact addTag_evNew ..
  · dsimp only
    split
    · rw [mailRespond_evNew, State.send_evNew, addTag_evNew]
    · rw [State.send_evNew, addTag_evNew]
    · split
      · rw [State.send_evNew, addTag_evNew]
      · rw [State.send_evNew, sendEvents_evNew, State.send_evNew, addTag_evNew]

end Sys2Proof.Machine
end

