-- ==== Sys2Proof/Laws/Events.lean ====
section
/-!
SUPPORT. The events of a step reach the queue: what the end of a step queues, in numbers that the queue holds.
-/
namespace Sys2Proof.Machine

theorem mem_evInsert (e x : Event) (l : List Event) : x ∈ evInsert e l ↔ x = e ∨ x ∈ l := by
  induction l with
  | nil => simp [evInsert]
  | cons y l ih =>
    unfold evInsert
    split
    · simp only [List.mem_cons, ih]
      constructor
      · rintro (h | h | h)
        · exact .inr (.inl h)
        · exact .inl h
        · exact .inr (.inr h)
      · rintro (h | h | h)
        · exact .inr (.inl h)
        · exact .inl h
        · exact .inr (.inr h)
    · simp

theorem mem_evSort (x : Event) (l : List Event) : x ∈ evSort l ↔ x ∈ l := by
  induction l with
  | nil => simp [evSort]
  | cons y l ih => simp [evSort, mem_evInsert, ih]

theorem length_evInsert (e : Event) (l : List Event) : (evInsert e l).length = l.length + 1 := by
  induction l with
  | nil => rfl
  | cons y l ih =>
    unfold evInsert
    split
    · simp [ih]
    · rfl

theorem length_evSort (l : List Event) : (evSort l).length = l.length := by
  induction l with
  | nil => rfl
  | cons y l ih => simp [evSort, length_evInsert, ih]

theorem pushEvent_clk (s : State) (e : Event) : (s.pushEvent e).clk = s.clk := by
  unfold State.pushEvent; dsimp only; split <;> rfl

theorem pushEvent_evq (s : State) (e : Event) : ∃ x : EvEntry, x.ev = e ∧ x.ts = e.own.getD s.clk.ts ∧
    (((s.pushEvent e).evq = s.evq ++ [x]) ∨ (256 ≤ s.evq.length ∧ (s.pushEvent e).evq = (s.evq ++ [x]).drop 1)) := by
  refine ⟨{ seq := s.evNext, ts := e.own.getD s.clk.ts, ev := e }, rfl, rfl, ?_⟩
  unfold State.pushEvent
  dsimp only
  split
  · exact .inl rfl
  · rename_i h
    refine .inr ⟨by omega, ?_⟩
    cases hq : s.evq with
    | nil => rw [hq] at h; simp at h
    | cons a l => simp

/-- Pushing up to 256 events keeps every one of them. -/
theorem foldl_pushEvent_evq (l : List Event) (s : State) : ∃ (d : Nat) (m : List EvEntry), m.map (·.ev) = l ∧
    (∀ x ∈ m, x.ts = x.ev.own.getD s.clk.ts) ∧ (l.foldl State.pushEvent s).evq = (s.evq ++ m).drop d ∧
    (d = 0 ∨ 256 ≤ (l.foldl State.pushEvent s).evq.length) := by
  induction l generalizing s with
  | nil => exact ⟨0, [], rfl, by simp, by simp, .inl rfl⟩
  | cons e l ih =>
    obtain ⟨x, hx, hts, hq⟩ := pushEvent_evq s e
    obtain ⟨d, m, hm, hmt, hl, hd⟩ := ih (s.pushEvent e)
    rw [pushEvent_clk] at hmt
    have hmem : ∀ y ∈ x :: m, y.ts = y.ev.own.getD s.clk.ts := by
      intro y hy
      rcases List.mem_cons.1 hy with h | h
      · rw [h, hx]; exact hts
      · exact hmt y h
    rcases hq with hq | ⟨h256, hq⟩
    · refine ⟨d, x :: m, by simp [hx, hm], hmem, ?_, hd⟩
      rw [List.foldl_cons, hl, hq, List.append_assoc]; rfl
    · refine ⟨1 + d, x :: m, by simp [hx, hm], hmem, ?_, ?_⟩
      · rw [List.foldl_cons, hl, hq]
        have hle : 1 ≤ (s.evq ++ [x]).length := by simp
        rw [← List.drop_append_of_le_length hle, List.drop_drop, List.append_assoc]; rfl
      · rcases hd with rfl | hd
        · right
          rw [List.foldl_cons, hl, hq]
          simp; omega
        · exact .inr hd

theorem foldl_pushEvent_mem (l : List Event) (s : State) (hl : l.length ≤ 256) (e : Event) (he : e ∈ l) :
    ∃ x ∈ (l.foldl State.pushEvent s).evq, x.ev = e ∧ x.ts = e.own.getD s.clk.ts := by
  obtain ⟨d, m, hm, hmt, hq, hd⟩ := foldl_pushEvent_evq l s
  rw [← hm] at he
  obtain ⟨x, hx, rfl⟩ := List.mem_map.1 he
  refine ⟨x, ?_, rfl, hmt x hx⟩
  have hlen : m.length = l.length := by rw [← hm]; simp
  have hdle : d ≤ s.evq.length := by
    rcases hd with rfl | hd
    · omega
    · rw [hq] at hd
      simp at hd; omega
  rw [hq, List.drop_append_of_le_length hdle]
  exact List.mem_append.2 (.inr hx)

/-- What a record changes: registers and Chrysalis. -/
def Recorded (s t : State) : Prop := ∃ r c, t = { s with regs := r, chrys := c }

theorem Recorded.refl (s : State) : Recorded s s := ⟨_, _, rfl⟩
theorem Recorded.trans {s t u : State} (h : Recorded s t) (g : Recorded t u) : Recorded s u := by
  obtain ⟨r, c, rfl⟩ := h
  obtain ⟨r', c', rfl⟩ := g
  exact ⟨r', c', rfl⟩
theorem Recorded.ite {s a b : State} {c : Prop} [Decidable c] (ha : Recorded s a) (hb : Recorded s b) :
    Recorded s (if c then a else b) := by
  split <;> assumption

theorem Recorded.trailPut (s : State) (i : Nat) (v : BitVec 64) : Recorded s (s.trailPut i v) := by
  unfold State.trailPut
  exact Recorded.ite ⟨_, _, rfl⟩ ⟨_, _, rfl⟩

theorem Recorded.beginLine (s : State) : Recorded s s.beginLine := by
  unfold State.beginLine
  exact Recorded.ite ⟨_, _, rfl⟩ ((Recorded.trailPut s _ _).trans ⟨_, _, rfl⟩)

theorem Recorded.putStream (h : Bool) (v : BitVec 64) (s : State) : Recorded s (s.putStream h v) := by
  unfold State.putStream
  have h1 : Recorded s (if s.chrys.word = 0 then s.beginLine else s) := Recorded.ite (Recorded.beginLine s) (Recorded.refl s)
  generalize (if s.chrys.word = 0 then s.beginLine else s) = u at h1
  refine Recorded.ite h1 ?_
  have h2 : ∀ (b : Bool) i x j y, Recorded s ((if b then u.trailPut i x else u).trailPut j y) := fun b i x j y =>
    (h1.trans (Recorded.ite (Recorded.trailPut ..) (Recorded.refl u))).trans (Recorded.trailPut ..)
  refine (h2 _ _ _ _ _).trans (Recorded.ite ⟨_, _, rfl⟩ (Recorded.ite ⟨_, _, rfl⟩ ⟨_, _, rfl⟩))

/-- A record changes nothing but registers and Chrysalis. -/
theorem recorded_record (kind src flag : Nat) (p : List Word) (s : State) : Recorded s (s.record kind src flag p) := by
  have fold : ∀ (l : List (BitVec 64)) (t : State), Recorded t (l.foldl (fun t v => t.putStream false v) t) := by
    intro l
    induction l with
    | nil => intro t; exact Recorded.refl t
    | cons v l ih => intro t; exact (Recorded.putStream false v t).trans (ih _)
  have hr : Recorded s s.rateTick := by
    unfold State.rateTick
    exact Recorded.ite ⟨_, _, rfl⟩ ⟨_, _, rfl⟩
  unfold State.record
  refine Recorded.ite ?_ (Recorded.refl s)
  exact ((Recorded.ite hr (hr.trans ⟨_, _, rfl⟩)).trans (Recorded.putStream _ _ _)).trans (fold _ _)

theorem record_evNew (kind src flag : Nat) (p : List Word) (s : State) : (s.record kind src flag p).evNew = s.evNew := by
  obtain ⟨r, c, h⟩ := recorded_record kind src flag p s
  rw [h]

theorem record_evq (kind src flag : Nat) (p : List Word) (s : State) : (s.record kind src flag p).evq = s.evq := by
  obtain ⟨r, c, h⟩ := recorded_record kind src flag p s
  rw [h]

theorem accepted_evq (ln : Line) (f : Form) (s : State) : (accepted ln f s).evq = s.evq := by
  have h1 : ∀ t : State, (recLine ln.ep f.secret (takenBytes ln s) 0 t).evq = t.evq := by
    intro t
    unfold recLine
    split
    · rfl
    · exact record_evq ..
  have h2 : ∀ t : State, (countSuffix ln t).evq = t.evq := by
    intro t; unfold countSuffix; split <;> rfl
  unfold accepted taken takeLine
  rw [h1, h2]
  split <;> simp

theorem trigger_evNew (k : Nat) (o : BitVec 16) (s : State) : ∃ l, (s.trigger k o).evNew = s.evNew ++ l ∧ l.length ≤ 1 := by
  have hr := record_evNew 0x2D 0 0 [word k, o.setWidth 32] s
  generalize hq : s.record 0x2D 0 0 [word k, o.setWidth 32] = q at hr
  unfold State.trigger
  rw [hq]
  dsimp only
  split
  · exact ⟨[], by simp, by simp⟩
  · split
    · exact ⟨[_], by simp only [State.trigLost, State.emit, State.setFld_evNew, hr]; rfl, by simp⟩
    · split
      · unfold State.startCapsule
        dsimp only
        split
        · exact ⟨[], by simp [hr], by simp⟩
        · exact ⟨[_], by simp only [State.emit, State.setFld_evNew, State.setReg_evNew, hr]; rfl, by simp⟩
      · split
        · exact ⟨[], by simp [hr], by simp⟩
        · split
          · exact ⟨[_], by simp only [State.trigLost, State.emit, State.setFld_evNew, hr]; rfl, by simp⟩
          · exact ⟨[], by simp [hr], by simp⟩

/-- The events of a step are in the queue when it ends, with the timestamp of the step (R129). -/
theorem flush_mem (s : State) (e : Event) (he : e ∈ s.evNew) (hl : s.evNew.length ≤ 255) :
    ∃ x ∈ s.flush.evq, x.ev = e ∧ x.ts = e.own.getD s.clk.ts := by
  unfold State.flush
  split
  · rename_i h; rw [h] at he; cases he
  · dsimp only
    have main : ∀ t : State, (∃ l, t.evNew = s.evNew ++ l ∧ l.length ≤ 1) → t.clk = s.clk →
        ∃ x ∈ ((evSort t.evNew).foldl State.pushEvent { t with evNew := [] }).evq, x.ev = e ∧ x.ts = e.own.getD s.clk.ts := by
      rintro t ⟨l, h1, h2⟩ hc
      obtain ⟨x, hx, a, b⟩ := foldl_pushEvent_mem (evSort t.evNew) { t with evNew := [] }
        (by rw [length_evSort, h1, List.length_append]; omega) e
        (by rw [mem_evSort, h1]; exact List.mem_append.2 (.inl he))
      exact ⟨x, hx, a, by rw [b]; exact congrArg (fun c => e.own.getD (Clk.ts c)) hc⟩
    split
    · rename_i k o _
      refine main _ (trigger_evNew k o s) ?_
      by_cases hn : s.evNew = []
      · rw [hn] at he; cases he
      · exact ((Stays.refl none (fun _ => False) s).trigger k o hn).clk
    · exact main s ⟨[], by simp, by simp⟩ rfl

/-! ### Lines and events as a whole -/

/-- A line that passes: what its effect does to the state u that the taking of the line leaves, against a state s' that says what
the effect changes beside registers. -/
theorem line_acts {ln : Line} {f : Form} {s : State} (hp : Passes ln f s) (hi : Inv s)
    (checks : State → List (Code × Bool)) (eff : State → State × Resp) (w : Nat → Prop) (s' : State)
    (hc : ∀ u, Stays (some ln.ep) noReg s u → ∀ p ∈ checks u, p.2 = false)
    (hg : ∀ u, Stays (some ln.ep) noReg s u → swf resetWord u.regs = true →
      Stays (some ln.ep) w s' (eff u).1 ∧ ((eff u).1.port ln.ep).tx = (u.port ln.ep).tx) :
    ∃ u t, u = accepted ln f s ∧ Stays (some ln.ep) noReg s u ∧ swf resetWord u.regs = true ∧
      done (runLine ln f checks eff s) = .next t ∧
      Answered ln (eff u).2 s t ∧ Stays (some ln.ep) w s' t ∧ Stays (some ln.ep) noReg (eff u).1 t ∧
      ∀ e ∈ (eff u).1.evNew, (eff u).1.evNew.length ≤ 255 → ∃ x ∈ t.evq, x.ev = e := by
  have ha := Stays.accepted noReg ln f s
  have hw := ha.canon (Memory.wf_regs hi.1)
  have hg' := hg _ ha hw
  refine ⟨_, _, rfl, ha, hw, rfl, ?_, ?_, ?_, ?_⟩ <;> rw [runLine_passes hp hi.1 checks _ noPost (hc _ ha)]
  · exact ((answered_answer ..).congr (hg'.2.trans (accepted_tags ln f s ln.ep).2)).flush
  · exact (hg'.1.answer ..).flush
  · exact ((Stays.refl ..).answer ..).flush
  · intro e he hl
    have hn := answer_evNew ln (eff (accepted ln f s)).2 (eff (accepted ln f s)).1
    obtain ⟨x, hx, h, _⟩ := flush_mem (answer ln (eff (accepted ln f s)).2 (eff (accepted ln f s)).1) e
      (by rw [hn]; exact he) (by rw [hn]; exact hl)
    exact ⟨x, hx, h⟩

/-- A line that passes, without a word about what its effect leaves. -/
theorem line_runs {ln : Line} {f : Form} {s : State} (hp : Passes ln f s) (hi : Inv s)
    (checks : State → List (Code × Bool)) (eff : State → State × Resp)
    (hc : ∀ u, Stays (some ln.ep) noReg s u → ∀ p ∈ checks u, p.2 = false)
    (ht : ∀ u, ((eff u).1.port ln.ep).tx = (u.port ln.ep).tx) :
    ∃ t, done (runLine ln f checks eff s) = .next t ∧ Answered ln (eff (accepted ln f s)).2 s t ∧
      Stays (some ln.ep) noReg (eff (accepted ln f s)).1 t :=
  done_passes hp hi.1 checks eff noReg (hc _ (Stays.accepted noReg ln f s)) ((ht _).trans (accepted_tags ln f s ln.ep).2)

/-- A line that passes does what its effect does to the state that the taking of the line leaves. -/
theorem does_passes {c : Instr} {ln : Line} {f : Form} {s : State} {checks : State → List (Code × Bool)} {eff : State → State × Resp}
    (he : exec c s = done (runLine ln f checks eff s)) (hp : Passes ln f s) (hi : Inv s)
    (hc : ∀ u, Stays (some ln.ep) noReg s u → ∀ p ∈ checks u, p.2 = false)
    (ht : ((eff (accepted ln f s)).1.port ln.ep).tx = ((accepted ln f s).port ln.ep).tx) :
    Does c ln (eff (accepted ln f s)).2 s (eff (accepted ln f s)).1 := by
  unfold Does
  rw [he]
  have hr := runLine_passes hp hi.1 checks eff noPost (hc _ (Stays.accepted noReg ln f s))
  refine ⟨_, rfl, ?_, ?_, ?_⟩ <;> rw [hr]
  · exact ((answered_answer ..).congr (ht.trans (accepted_tags ln f s ln.ep).2)).flush
  · exact ((Stays.refl ..).answer ..).flush
  · intro hl e hm
    have hn := answer_evNew ln (eff (accepted ln f s)).2 (eff (accepted ln f s)).1
    obtain ⟨x, hx, h, _⟩ := flush_mem (answer ln (eff (accepted ln f s)).2 (eff (accepted ln f s)).1) e
      (by rw [hn]; exact hm) (by rw [hn]; exact hl)
    exact ⟨x, hx, h⟩

/-- An event whose meaning ends in u. -/
theorem becomes_done {c : Instr} {s u : State} (he : exec c s = done u) : Becomes c s u := by
  refine ⟨_, he, (Stays.refl ..).flush, fun hl e hm => ?_⟩
  exact flush_mem u e hm hl

/-- A line that acts with g and answers ok. -/
theorem okay_acts {ln : Line} {f : Form} {s : State} (hp : Passes ln f s) (hi : Inv s)
    (checks : State → List (Code × Bool)) (g : State → State) (w : Nat → Prop) (s' : State)
    (hc : ∀ u, Stays (some ln.ep) noReg s u → ∀ p ∈ checks u, p.2 = false)
    (hg : ∀ u, Stays (some ln.ep) noReg s u → swf resetWord u.regs = true →
      Stays (some ln.ep) w s' (g u) ∧ ((g u).port ln.ep).tx = (u.port ln.ep).tx) :
    ∃ u t, Stays (some ln.ep) noReg s u ∧ swf resetWord u.regs = true ∧ done (runLine ln f checks (okay g) s) = .next t ∧
      Answered ln .ok s t ∧ Stays (some ln.ep) w s' t ∧ Stays (some ln.ep) noReg (g u) t ∧
      ∀ e ∈ (g u).evNew, (g u).evNew.length ≤ 255 → ∃ x ∈ t.evq, x.ev = e := by
  obtain ⟨u, t, _, h⟩ := line_acts hp hi checks (okay g) w s' hc hg
  exact ⟨u, t, h⟩

/-- A line that only reads. -/
theorem value_acts {ln : Line} {f : Form} {s : State} (hp : Passes ln f s) (hi : Inv s)
    (checks : State → List (Code × Bool)) (g : State → List Fld)
    (hc : ∀ u, Stays (some ln.ep) noReg s u → ∀ p ∈ checks u, p.2 = false) :
    ∃ t, done (runLine ln f checks (value g) s) = .next t ∧ Answered ln (.vals (g (accepted ln f s))) s t ∧
      Stays (some ln.ep) noReg s t :=
  value_passes hp hi.1 checks g noReg (hc _ (Stays.accepted noReg ln f s))

/-- A line that writes one register and answers ok. -/
theorem okay_setReg {ln : Line} {f : Form} {s : State} (hp : Passes ln f s) (hi : Inv s)
    (checks : State → List (Code × Bool)) (k : Nat) (v : Word → Word)
    (hk : ¬ ioKey (some ln.ep) k)
    (hc : ∀ u, Stays (some ln.ep) noReg s u → ∀ p ∈ checks u, p.2 = false) :
    ∃ t, done (runLine ln f checks (okay fun t => t.setReg k (v (t.reg k))) s) = .next t ∧ Answered ln .ok s t ∧
      t.reg k = v (s.reg k) ∧ Stays (some ln.ep) (· = k) s t := by
  have ha := Stays.accepted noReg ln f s
  have hr : aRecStat ≠ k := by rintro rfl; exact hk (ioKey_recStat _)
  obtain ⟨t, h1, h2, h3⟩ := okay_passes hp hi.1 checks (fun t => t.setReg k (v (t.reg k))) noReg (hc _ ha) (by simp)
  refine ⟨t, h1, h2, ?_, ?_⟩
  · rw [h3.reg k (by simp) hk, State.reg_setReg_same, ha.reg k (by simp) hk]
    exact ha.canon (Memory.wf_regs hi.1)
  · exact Stays.trans (Stays.setReg (w := (· = k)) k _ (ha.mono (by simp)) (.inl rfl) (.inl hr.symm)) (h3.mono (by simp))

/-- A line that writes one register after its answer. -/
theorem okay_post {ln : Line} {f : Form} {s : State} (hp : Passes ln f s) (hi : Inv s)
    (checks : State → List (Code × Bool)) (k : Nat) (v : Word → Word)
    (hk : ¬ ioKey (some ln.ep) k)
    (hc : ∀ u, Stays (some ln.ep) noReg s u → ∀ p ∈ checks u, p.2 = false) :
    ∃ t, done (runLine ln f checks (okay id) s (fun t => t.setReg k (v (t.reg k)))) = .next t ∧ Answered ln .ok s t ∧
      t.reg k = v (s.reg k) ∧ Stays (some ln.ep) (· = k) s t := by
  have ha := Stays.accepted noReg ln f s
  have hr : aRecStat ≠ k := by rintro rfl; exact hk (ioKey_recStat _)
  refine ⟨_, rfl, ?_, ?_⟩
  · rw [runLine_passes hp hi.1 checks _ _ (hc _ ha)]
    have := (answered_answer ln .ok (accepted ln f s)).congr (accepted_tags ln f s ln.ep).2
    refine Answered.flush ?_
    unfold Answered at this ⊢
    simp only [State.port_setReg]
    exact this
  · rw [runLine_passes hp hi.1 checks _ _ (hc _ ha)]
    have hb := ha.answer ln .ok
    have hc' := hb.flush
    have hs : Stays (some ln.ep) (· = k) s (((answer ln .ok (accepted ln f s)).setReg k (v ((answer ln .ok (accepted ln f s)).reg k))).flush) :=
      (Stays.setReg (w := (· = k)) k _ (hb.mono (by simp)) (.inl rfl) (.inl hr.symm)).flush
    refine ⟨?_, hs⟩
    dsimp only [okay, id]
    have hb' := hb.reg k (by simp) hk
    have hwf := hb.canon (Memory.wf_regs hi.1)
    generalize answer ln .ok (accepted ln f s) = u at hb' hwf ⊢
    have := (Stays.refl (some ln.ep) noReg (u.setReg k (v (u.reg k)))).flush.reg k (by simp) hk
    rw [this, State.reg_setReg_same _ _ _ hwf, hb']


/-- An event that acts: what it leaves, against a state s', and what it queues. -/
theorem done_acts {s' u : State} {w : Nat → Prop} (h : Stays none w s' u) :
    ∃ t, done u = .next t ∧ Stays none w s' t ∧ Stays none noReg u t ∧
      ∀ e ∈ u.evNew, u.evNew.length ≤ 255 → ∃ x ∈ t.evq, x.ev = e := by
  refine ⟨_, rfl, h.flush, (Stays.refl ..).flush, fun e he hl => ?_⟩
  obtain ⟨x, hx, a, _⟩ := flush_mem u e he hl
  exact ⟨x, hx, a⟩

end Sys2Proof.Machine
end

