-- ==== Sys2Proof/Laws/LineCode.lean ====
section
/-!
SUPPORT. The line of a Ringlet port: what scrambling and the order of bits and bytes give back.
-/
namespace Sys2Proof.Machine

/-- A descrambler that holds the bits the scrambler sent before gives back what was scrambled. -/
@[simp] theorem descramble_scramble (h l : List Bool) : descramble h (scramble h l) = l := by
  induction l generalizing h with
  | nil => rfl
  | cons d l ih =>
    simp only [scramble, descramble, ih, List.cons.injEq, and_true]
    cases d <;> cases h.getD 38 false <;> cases h.getD 57 false <;> rfl

@[simp] theorem scramble_length (h l : List Bool) : (scramble h l).length = l.length := by
  induction l generalizing h with
  | nil => rfl
  | cons d l ih => simp [scramble, ih]

/-- What is sent after n bits is scrambled from the last 58 bits before it, newest first. -/
theorem scramble_drop (n : Nat) (h l : List Bool) (hh : h.length = 58) :
    (scramble h l).drop n = scramble (((scramble h (l.take n)).reverse ++ h).take 58) (l.drop n) := by
  induction n generalizing h l with
  | zero => simp [scramble, List.take_of_length_le (Nat.le_of_eq hh)]
  | succ n ih =>
    cases l with
    | nil => simp [scramble]
    | cons d l =>
      simp only [scramble, List.drop_succ_cons, List.take_succ_cons]
      rw [ih]
      · congr 1
        simp only [List.reverse_cons, List.append_assoc, List.singleton_append]
        rw [List.take_append, List.take_append]
        congr 1
        rw [← List.take_succ_cons, List.take_take, Nat.min_eq_left (by omega)]
      · simp [hh]

theorem bitsOfBytes_append (a b : List Byte) : bitsOfBytes (a ++ b) = bitsOfBytes a ++ bitsOfBytes b := by
  simp [bitsOfBytes]

@[simp] theorem bitsOfBytes_length (l : List Byte) : (bitsOfBytes l).length = 8 * l.length := by
  induction l with
  | nil => rfl
  | cons a l ih => simp only [bitsOfBytes, List.flatMap_cons, List.length_append] at *; simp [ih]; omega

/-- A byte is the byte of its bits. -/
theorem byteOfBits_bits (x : Byte) : byteOfBits ((List.range 8).map x.getLsbD) = x := by
  revert x
  decide +kernel

/-- Bytes sent bit by bit are read back, whatever follows them. -/
theorem bytesOfBits_append (l : List Byte) (r : List Bool) : bytesOfBits (bitsOfBytes l ++ r) = l ++ bytesOfBits r := by
  induction l with
  | nil => rfl
  | cons x l ih =>
    have e : bitsOfBytes (x :: l) = [x.getLsbD 0, x.getLsbD 1, x.getLsbD 2, x.getLsbD 3, x.getLsbD 4, x.getLsbD 5, x.getLsbD 6,
      x.getLsbD 7] ++ bitsOfBytes l := rfl
    rw [e, List.append_assoc]
    simp only [List.cons_append, List.nil_append, bytesOfBits, ih, List.cons.injEq, and_true]
    exact byteOfBits_bits x

/-- Words sent most significant byte first are read back. -/
@[simp] theorem msbWords_msbBytes (l : List Word) : msbWords (msbBytes l) = l := by
  induction l with
  | nil => rfl
  | cons x l ih =>
    have e : msbBytes (x :: l) = [x.extractLsb' 24 8, x.extractLsb' 16 8, x.extractLsb' 8 8, x.extractLsb' 0 8] ++ msbBytes l := rfl
    rw [e]
    simp only [List.cons_append, List.nil_append, msbWords, ih, List.cons.injEq, and_true]
    apply BitVec.eq_of_getLsbD_eq
    intro i hi
    simp only [BitVec.getLsbD_append, BitVec.getLsbD_extractLsb']
    interval_cases i <;> simp

@[simp] theorem msbBytes_length (l : List Word) : (msbBytes l).length = 4 * l.length := by
  induction l with
  | nil => rfl
  | cons x l ih => simp only [msbBytes, List.flatMap_cons, List.length_append] at *; rw [ih]; simp [wordBytes]; omega

end Sys2Proof.Machine
end

