-- ==== Sys2Proof/Laws/Reads.lean ====
section
/-!
SUPPORT. What the rules read of a state is the same after the carrying of a command.
-/
namespace Sys2Proof.Machine

theorem ioKey_high (e : Option Ep) (k : Nat) (h : 0x71000 ≤ k) : ¬ ioKey e k := by unfold ioKey; omega
theorem ioKey_safe (e : Option Ep) (k : Nat) (h : 0x30000 ≤ k) (h' : k < 0x40000) : ¬ ioKey e k := by unfold ioKey; omega
theorem ioKey_sys (e : Option Ep) (k : Nat) (h : k < 0x20000) : ¬ ioKey e k := by unfold ioKey; omega
theorem ioKey_skip (e : Option Ep) (k : Nat) (h : 0x50200 ≤ k) (h' : k < 0x70000) : ¬ ioKey e k := by unfold ioKey; omega
theorem ioKey_chA (e : Option Ep) (n o : Nat) : ¬ ioKey e (chA n o) := ioKey_high e _ (by unfold chA; omega)
theorem ioKey_grA (e : Option Ep) (g o : Nat) : ¬ ioKey e (grA g o) := ioKey_high e _ (by unfold grA; omega)
theorem ioKey_ring (e : Option Ep) (c : Nat) (hc : c < 2) : ¬ ioKey e (rgA c 0) := by
  unfold ioKey rgA; omega

variable {e : Option Ep} {s t : State}

theorem Stays.regChA (h : Stays e noReg s t) (n o : Nat) : t.reg (chA n o) = s.reg (chA n o) := h.reg _ id (ioKey_chA e n o)
theorem Stays.regGrA (h : Stays e noReg s t) (g o : Nat) : t.reg (grA g o) = s.reg (grA g o) := h.reg _ id (ioKey_grA e g o)
theorem Stays.mode (h : Stays e noReg s t) (n : Nat) : t.mode n = s.mode n := State.fld_of_reg (h.regChA n 0) ..
theorem Stays.powered (h : Stays e noReg s t) (g : Nat) : t.powered g = s.powered g := State.flag_of_reg (h.regGrA g 0) _
theorem Stays.linkUp (h : Stays e noReg s t) (g : Nat) : t.linkUp g = s.linkUp g := State.flag_of_reg (h.regGrA g 0) _
theorem Stays.ch (h : Stays e noReg s t) (n : Nat) : t.ch n = s.ch n := by unfold State.ch; rw [h.chn]
theorem Stays.gr (h : Stays e noReg s t) (g : Nat) : t.gr g = s.gr g := by unfold State.gr; rw [h.grp]
theorem Stays.ringSt (h : Stays e noReg s t) (c : Nat) (hc : c < 2) : t.ringSt c = s.ringSt c :=
  State.fld_of_reg (h.reg _ id (ioKey_ring e c hc)) ..
theorem Stays.dead (h : Stays e noReg s t) : t.dead = s.dead := by unfold State.dead; rw [h.sup]
theorem Stays.asleep (h : Stays e noReg s t) : t.asleep = s.asleep := by
  unfold State.asleep
  rw [State.fld_of_reg (h.reg 0x50000 id (ioKey_ring e 0 (by decide))) 0 4,
    State.fld_of_reg (h.reg 0x50100 id (ioKey_ring e 1 (by decide))) 0 4]
theorem Stays.running (h : Stays e noReg s t) : t.running = s.running := by unfold State.running; rw [h.dead, h.sup]
theorem Stays.replaying (h : Stays e noReg s t) (hw : swf resetWord s.regs = true) : t.replaying = s.replaying := by
  unfold State.replaying; rw [h.replay id hw]
theorem Stays.unit (h : Stays e noReg s t) (u : Un) (hg : ∀ g k, u = .grp g k → g < 0x4000) : t.fenced u = s.fenced u :=
  h.fenced u (fun _ _ _ => id) hg
theorem Stays.gFenced (h : Stays e noReg s t) (g : Nat) (k : GUn) (hg : g < 0x4000) : t.gFenced g k = s.gFenced g k :=
  h.unit _ (by rintro _ _ ⟨rfl, rfl⟩; exact hg)
theorem Stays.active (h : Stays e noReg s t) (n : Nat) : t.active n = s.active n := by
  unfold State.active; rw [h.ch, h.mode]
theorem Stays.pwSet (h : Stays e noReg s t) : t.pwSet = s.pwSet := by unfold State.pwSet; rw [h.pf]

theorem rings_le (m : Member) : m.rings ≤ 2 := by cases m <;> decide
theorem groups_le (m : Member) : m.groups ≤ 8 := by cases m <;> decide

theorem Stays.ringLive (h : Stays e noReg s t) : t.ringLive = s.ringLive := by
  unfold State.ringLive
  rw [h.member]
  have key : ∀ l : List Nat, (∀ c ∈ l, c < 2) →
      (l.any fun c => decide (t.ringSt c ≠ 0) && decide (t.ringSt c ≠ 5)) =
      (l.any fun c => decide (s.ringSt c ≠ 0) && decide (s.ringSt c ≠ 5)) := by
    intro l
    induction l with
    | nil => intro _; rfl
    | cons c l ih =>
      intro hl
      rw [List.any_cons, List.any_cons, h.ringSt c (hl c (by simp)), ih (fun x hx => hl x (by simp [hx]))]
  exact key _ (fun c hc => by have := rings_le s.member; simp at hc; omega)

end Sys2Proof.Machine
end

