-- ==== Sys2Proof/Laws/Tame.lean ====
section
/-!
SUPPORT. What every operation keeps: the queue, the identity, and the invariant. One lemma per operation, in the form that
chains them.
-/
namespace Sys2Proof.Machine

set_option linter.all false

/-- t follows from s with the queue of commands and the identity as they were, and the invariant kept. -/
structure Tame (s t : State) : Prop where
  pending : t.pending = s.pending
  member  : t.member = s.member
  uid     : t.uid = s.uid
  inv     : Inv s → Inv t

theorem Tame.refl (s : State) : Tame s s := ⟨rfl, rfl, rfl, id⟩

theorem Tame.trans {s t u : State} (h : Tame s t) (h' : Tame t u) : Tame s u :=
  ⟨h'.1.trans h.1, h'.2.trans h.2, h'.3.trans h.3, fun i => h'.4 (h.4 i)⟩

theorem Tame.ite {s a b : State} {c : Prop} [Decidable c] (ha : Tame s a) (hb : Tame s b) : Tame s (if c then a else b) := by
  split <;> assumption

/-- A record update that leaves the queue and the identity: what the invariant reads of the fields it writes. -/
theorem Tame.mk' {s t : State} (freeIdx' : Nat) (regs' : Sparse Word) (sup' : Sup) (clk' : Clk) (cp0' : Port) (cp1' : Port) (mail' : Port)
    (evq' : List EvEntry) (evNext' : BitVec 16) (evNew' : List Event) (wdog' : Wdog) (pwFails' : Nat) (session' :
    Bool) (chn' : Sparse ChanAux) (grp' : Sparse GrpAux) (rf' : RFlash) (pf' : PFlash) (chrys' : Chrys) (syncs' :
    List (Nat × Nat)) (ring' : Sparse RingAux) (kat' : Sparse Nat) (s5regs' : Sparse Word)
    (h : Tame s t)
    (h1 : swf resetWord t.regs = true → swf resetWord regs' = true)
    (h2 : swf (fun _ => ({} : ChanAux)) t.chn = true → swf (fun _ => {}) chn' = true)
    (h3 : swf (fun _ => ({} : GrpAux)) t.grp = true → swf (fun _ => {}) grp' = true)
    (h4 : swf (fun _ => ({} : RingAux)) t.ring = true → swf (fun _ => {}) ring' = true)
    (h5 : swf (fun _ => 0) t.kat = true → swf (fun _ => 0) kat' = true)
    (h6 : swf (fun _ => ({} : PWord)) t.pf.words = true → swf (fun _ => {}) pf'.words = true)
    (h7 : t.pf.tables = true → pf'.tables = true)
    (h8 : swf (fun _ => ({} : Page)) t.rf.pages = true → swf (fun _ => {}) rf'.pages = true)
    (h9 : swf (fun _ => 0) t.chrys.trail = true → swf (fun _ => 0) chrys'.trail = true)
    (h10 : t.evq.length ≤ 256 → evq'.length ≤ 256)
    (h11 : t.cp0.tags.length ≤ 64 → cp0'.tags.length ≤ 64) (h12 : t.cp1.tags.length ≤ 64 → cp1'.tags.length ≤ 64)
    (h13 : t.mail.tags.length ≤ 64 → mail'.tags.length ≤ 64) (h14 : t.pwFails ≤ 3 → pwFails' ≤ 3)
    (h15 : t.sup.stage ≤ 8 → sup'.stage ≤ 8) :
    Tame s (State.mk t.pending t.member t.uid freeIdx' regs' sup' clk' cp0' cp1' mail' evq' evNext' evNew' wdog' pwFails' session'
      chn' grp' rf' pf' chrys' syncs' ring' kat' s5regs') := by
  refine h.trans ⟨rfl, rfl, rfl, fun i => ⟨?_, h10 i.2.1, ⟨h11 i.2.2.1.1, h12 i.2.2.1.2.1, h13 i.2.2.1.2.2⟩, h14 i.2.2.2.1,
    h15 i.2.2.2.2⟩⟩
  have := i.1
  simp only [Memory.wf, Bool.and_eq_true] at this ⊢
  exact ⟨⟨⟨⟨⟨⟨⟨⟨h1 this.1.1.1.1.1.1.1.1, h2 this.1.1.1.1.1.1.1.2⟩, h3 this.1.1.1.1.1.1.2⟩, h4 this.1.1.1.1.1.2⟩,
    h5 this.1.1.1.1.2⟩, h6 this.1.1.1.2⟩, h7 this.1.1.2⟩, h8 this.1.2⟩, h9 this.2⟩

theorem Tame.foldl {β : Type _} {s t : State} {f : State → β → State} (l : List β) (h : Tame s t)
    (hf : ∀ u x, Tame s u → Tame s (f u x)) : Tame s (l.foldl f t) := by
  induction l generalizing t with
  | nil => exact h
  | cons x l ih => exact ih (hf t x h)

theorem Tame.foldr {β : Type _} {s t : State} {f : β → State → State} (l : List β) (h : Tame s t)
    (hf : ∀ x u, Tame s u → Tame s (f x u)) : Tame s (l.foldr f t) := by
  induction l with
  | nil => exact h
  | cons x l ih => exact hf x _ ih

theorem Tame.forAll {s t : State} {f : Nat → State → State} (l : List Nat) (h : Tame s t)
    (hf : ∀ x u, Tame s u → Tame s (f x u)) : Tame s (forAll l f t) :=
  Tame.foldl l h fun u x => hf x u

/-! ### The accessors that write -/

theorem Tame.setReg {s t : State} (k : Nat) (v : Word) (h : Tame s t) : Tame s (t.setReg k v) := by
  refine h.trans ⟨rfl, rfl, rfl, fun i => ⟨?_, i.2⟩⟩
  have := i.1
  simp only [Memory.wf, Bool.and_eq_true, State.setReg] at this ⊢
  exact ⟨⟨⟨⟨⟨⟨⟨⟨swf_sset resetWord _ k v this.1.1.1.1.1.1.1.1, this.1.1.1.1.1.1.1.2⟩, this.1.1.1.1.1.1.2⟩, this.1.1.1.1.1.2⟩,
    this.1.1.1.1.2⟩, this.1.1.1.2⟩, this.1.1.2⟩, this.1.2⟩, this.2⟩

theorem Tame.setFld {s t : State} (k lo w v : Nat) (h : Tame s t) : Tame s (t.setFld k lo w v) := h.setReg ..

theorem Tame.setFlag {s t : State} (k i : Nat) (b : Bool) (h : Tame s t) : Tame s (t.setFlag k i b) := h.setFld ..

theorem Tame.count {s t : State} (k : Nat) (h : Tame s t) : Tame s (t.count k) := h.setReg ..

theorem Tame.setCh {s t : State} (n : Nat) (a : ChanAux) (h : Tame s t) : Tame s (t.setCh n a) := by
  refine h.trans ⟨rfl, rfl, rfl, fun i => ⟨?_, i.2⟩⟩
  have := i.1
  simp only [Memory.wf, Bool.and_eq_true, State.setCh] at this ⊢
  exact ⟨⟨⟨⟨⟨⟨⟨⟨this.1.1.1.1.1.1.1.1, swf_sset (fun _ => {}) _ n a this.1.1.1.1.1.1.1.2⟩, this.1.1.1.1.1.1.2⟩, this.1.1.1.1.1.2⟩,
    this.1.1.1.1.2⟩, this.1.1.1.2⟩, this.1.1.2⟩, this.1.2⟩, this.2⟩

theorem Tame.setGr {s t : State} (g : Nat) (a : GrpAux) (h : Tame s t) : Tame s (t.setGr g a) := by
  refine h.trans ⟨rfl, rfl, rfl, fun i => ⟨?_, i.2⟩⟩
  have := i.1
  simp only [Memory.wf, Bool.and_eq_true, State.setGr] at this ⊢
  exact ⟨⟨⟨⟨⟨⟨⟨⟨this.1.1.1.1.1.1.1.1, this.1.1.1.1.1.1.1.2⟩, swf_sset (fun _ => {}) _ g a this.1.1.1.1.1.1.2⟩, this.1.1.1.1.1.2⟩,
    this.1.1.1.1.2⟩, this.1.1.1.2⟩, this.1.1.2⟩, this.1.2⟩, this.2⟩

theorem Tame.setRg {s t : State} (c : Nat) (a : RingAux) (h : Tame s t) : Tame s (t.setRg c a) := by
  refine h.trans ⟨rfl, rfl, rfl, fun i => ⟨?_, i.2⟩⟩
  have := i.1
  simp only [Memory.wf, Bool.and_eq_true, State.setRg] at this ⊢
  exact ⟨⟨⟨⟨⟨⟨⟨⟨this.1.1.1.1.1.1.1.1, this.1.1.1.1.1.1.1.2⟩, this.1.1.1.1.1.1.2⟩, swf_sset (fun _ => {}) _ c a this.1.1.1.1.1.2⟩,
    this.1.1.1.1.2⟩, this.1.1.1.2⟩, this.1.1.2⟩, this.1.2⟩, this.2⟩

theorem Tame.setPort {s t : State} (e : Ep) (p : Port) (h : Tame s t)
    (hp : (t.port e).tags.length ≤ 64 → p.tags.length ≤ 64) : Tame s (t.setPort e p) := by
  refine h.trans ?_
  cases e
  · exact ⟨rfl, rfl, rfl, fun i => ⟨i.1, i.2.1, ⟨hp i.2.2.1.1, i.2.2.1.2⟩, i.2.2.2⟩⟩
  · exact ⟨rfl, rfl, rfl, fun i => ⟨i.1, i.2.1, ⟨i.2.2.1.1, hp i.2.2.1.2.1, i.2.2.1.2.2⟩, i.2.2.2⟩⟩
  · exact ⟨rfl, rfl, rfl, fun i => ⟨i.1, i.2.1, ⟨i.2.2.1.1, i.2.2.1.2.1, hp i.2.2.1.2.2⟩, i.2.2.2⟩⟩

theorem Tame.send {s t : State} (e : Ep) (x : TxItem) (h : Tame s t) : Tame s (t.send e x) := h.setPort e _ id

theorem Tame.trailPut {s t : State} (i : Nat) (v : BitVec 64) (h : Tame s t) : Tame s (t.trailPut i v) := by
  have : Tame s { t with chrys := { t.chrys with trail := sset 0 t.chrys.trail i v } } := by
    refine h.trans ⟨rfl, rfl, rfl, fun j => ⟨?_, j.2⟩⟩
    have := j.1
    simp only [Memory.wf, Bool.and_eq_true] at this ⊢
    exact ⟨this.1, swf_sset (fun _ => 0) _ i v this.2⟩
  exact Tame.ite (this.setReg ..) this

theorem Tame.setPfWord {s t : State} (a : Nat) (w : PWord) (h : Tame s t) : Tame s (setPfWord a w t) := by
  refine h.trans ⟨rfl, rfl, rfl, fun j => ⟨?_, j.2⟩⟩
  have := j.1
  simp only [Memory.wf, Bool.and_eq_true, Machine.setPfWord] at this ⊢
  exact ⟨⟨⟨⟨this.1.1.1.1, swf_sset (fun _ => {}) _ (a / 8) w this.1.1.1.2⟩, this.1.1.2⟩, this.1.2⟩, this.2⟩

theorem Tame.setLadder {s t : State} (n : Nat) (l : Ladder) (h : Tame s t) : Tame s (setLadder n l t) := by
  refine h.trans ⟨rfl, rfl, rfl, fun j => ⟨?_, j.2⟩⟩
  have := j.1
  simp only [Memory.wf, PFlash.tables, Bool.and_eq_true, Machine.setLadder] at this ⊢
  obtain ⟨⟨⟨a, ⟨⟨⟨b, c⟩, d⟩, e⟩⟩, f⟩, g⟩ := this
  exact ⟨⟨⟨a, ⟨⟨⟨swf_sset (fun _ => {}) _ n l b, c⟩, d⟩, e⟩⟩, f⟩, g⟩

theorem Tame.setPfOp {s t : State} (b : Nat) (k : Option PfKind) (h : Tame s t) : Tame s (Machine.setPfOp b k t) := by
  refine h.trans ⟨rfl, rfl, rfl, fun j => ⟨?_, j.2⟩⟩
  have := j.1
  simp only [Memory.wf, PFlash.tables, Bool.and_eq_true, Machine.setPfOp] at this ⊢
  obtain ⟨⟨⟨a, ⟨⟨⟨x, c⟩, d⟩, e⟩⟩, f⟩, g⟩ := this
  exact ⟨⟨⟨a, ⟨⟨⟨x, swf_sset (fun _ => none) _ b k c⟩, d⟩, e⟩⟩, f⟩, g⟩

theorem Tame.setPfSeq {s t : State} (b : Nat) (q : PfSeq) (h : Tame s t) : Tame s (Machine.setPfSeq b q t) := by
  refine h.trans ⟨rfl, rfl, rfl, fun j => ⟨?_, j.2⟩⟩
  have := j.1
  simp only [Memory.wf, PFlash.tables, Bool.and_eq_true, Machine.setPfSeq] at this ⊢
  obtain ⟨⟨⟨a, ⟨⟨⟨x, c⟩, d⟩, e⟩⟩, f⟩, g⟩ := this
  exact ⟨⟨⟨a, ⟨⟨⟨x, c⟩, swf_sset (fun _ => {}) _ b q d⟩, e⟩⟩, f⟩, g⟩

theorem Tame.setPfWho {s t : State} (b : Nat) (l : Option Line) (h : Tame s t) : Tame s (Machine.setPfWho b l t) := by
  refine h.trans ⟨rfl, rfl, rfl, fun j => ⟨?_, j.2⟩⟩
  have := j.1
  simp only [Memory.wf, PFlash.tables, Bool.and_eq_true, Machine.setPfWho] at this ⊢
  obtain ⟨⟨⟨a, ⟨⟨⟨x, c⟩, d⟩, e⟩⟩, f⟩, g⟩ := this
  exact ⟨⟨⟨a, ⟨⟨⟨x, c⟩, d⟩, swf_sset (fun _ => none) _ b l e⟩⟩, f⟩, g⟩

theorem Tame.setRfPage {s t : State} (k : Nat) (p : Page) (h : Tame s t) : Tame s (setRfPage k p t) := by
  refine h.trans ⟨rfl, rfl, rfl, fun j => ⟨?_, j.2⟩⟩
  have := j.1
  simp only [Memory.wf, Bool.and_eq_true, Machine.setRfPage] at this ⊢
  exact ⟨⟨this.1.1, swf_sset (fun _ => {}) _ k p this.1.2⟩, this.2⟩

theorem Tame.pushEvent {s t : State} (e : Event) (h : Tame s t) : Tame s (t.pushEvent e) := by
  unfold State.pushEvent
  simp only []
  split
  · rename_i hl
    refine h.trans ⟨rfl, rfl, rfl, fun i => ⟨i.1, ?_, i.2.2⟩⟩
    show (t.evq ++ [_]).length ≤ 256
    simp only [List.length_append, List.length_singleton]; omega
  · refine (h.setFlag 0x20020 9 true).trans ⟨rfl, rfl, rfl, fun i => ⟨i.1, ?_, i.2.2⟩⟩
    have := i.2.1
    show (t.evq.tail ++ [_]).length ≤ 256
    have hq : (t.setFlag 0x20020 9 true).evq = t.evq := rfl
    rw [hq] at this
    simp only [List.length_append, List.length_tail, List.length_singleton]; omega

/-! ### The cut-off operations keep the canonical form -/

theorem swf_foldl {α β : Type} [DecidableEq α] {d : Nat → α} {f : Sparse α → β → Sparse α} (l : List β) (m : Sparse α)
    (hf : ∀ m x, swf d m = true → swf d (f m x) = true) (h : swf d m = true) : swf d (l.foldl f m) = true := by
  induction l generalizing m with
  | nil => exact h
  | cons x l ih => exact ih _ (hf m x h)

theorem swf_cut (k : PfKind) (b free : Nat) (m : Sparse PWord) (h : swf (fun _ => {}) m = true) :
    swf (fun _ => {}) (k.cut b free m) = true := by
  have w (m : Sparse PWord) (a : Nat) (v : PWord) (h : swf (fun _ => {}) m = true) : swf (fun _ => {}) (sset {} m a v) = true :=
    swf_sset (fun _ => {}) m a v h
  have e (a : Nat) (m : Sparse PWord) (h : swf (fun _ => {}) m = true) : swf (fun _ => {})
      ((List.range 512).foldl (fun m i => sset {} m (a / 8 + i) (PWord.cutErase (a + 8 * i) (free + a + 8 * i))) m) = true :=
    swf_foldl _ _ (fun m i hm => w m _ _ hm) h
  cases k with
  | program a v => exact w _ _ _ h
  | eraseSector a _ _ => exact e a m h
  | eraseBank _ =>
    refine swf_foldl _ _ (fun m i hm => ?_) h
    show swf _ (if 0x200000 * b + 0x1000 * i < 0x3FC000 then _ else m) = true
    split
    · exact e _ m hm
    · exact hm
  | setPw v => exact w _ _ _ (w _ _ _ h)
  | protect k => exact w _ _ _ h
  | swap st sl _ _ =>
    show swf _ (if st = 2 then _ else if st = 3 then _ else m) = true
    split
    · exact w _ _ _ h
    · split
      · exact w _ _ _ h
      · exact h
  | tally _ _ a _ => exact w _ _ _ (w _ _ _ h)
  | ladderErase _ _ a _ => simpa only [PfKind.cut] using e _ m h

theorem swf_pfCutOff (p : PFlash) (free : Nat) (h : swf (fun _ => {}) p.words = true) :
    swf (fun _ => {}) (p.cutOff free).words = true := by
  have one (m : Sparse PWord) (b : Nat) (h : swf (fun _ => {}) m = true) :
      swf (fun _ => {}) (match sget none p.ops b with | none => m | some k => k.cut b free m) = true := by
    split
    · exact h
    · exact swf_cut _ _ _ _ h
  exact one _ 1 (one _ 0 h)

theorem RFlash.foldl_pages {β : Type} {f : RFlash → β → RFlash} (l : List β) (q : RFlash)
    (hf : ∀ q x, swf (fun _ => {}) q.pages = true → swf (fun _ => {}) (f q x).pages = true)
    (h : swf (fun _ => {}) q.pages = true) : swf (fun _ => {}) (l.foldl f q).pages = true := by
  induction l generalizing q with
  | nil => exact h
  | cons x l ih => exact ih _ (hf q x h)

theorem swf_rfCutOff (r : RFlash) (free : Nat) (h : swf (fun _ => {}) r.pages = true) :
    swf (fun _ => {}) (r.cutOff free).pages = true := by
  refine RFlash.foldl_pages _ _ (fun q b hq => ?_) h
  dsimp only
  split
  · exact hq
  · rename_i o _
    have spoil (x : RFlash) (p : Nat) (hx : swf (fun _ => {}) x.pages = true) :
        swf (fun _ => {}) (sset {} x.pages ((64 * b + o.block) * 256 + p)
          { fill := .undef (free + ((64 * b + o.block) * 256 + p)), prog := true }) = true :=
      swf_sset (fun _ => ({} : Page)) _ _ _ hx
    split
    · refine RFlash.foldl_pages _ _ (fun x p hx => spoil x p hx) ?_
      split
      · exact hq
      · exact hq
    · split
      · exact spoil { q with pages := _ } _ (spoil q _ hq)
      · exact spoil q _ hq

theorem swf_range (v : Nat → BitVec 64) (n k : Nat) :
    swf (fun _ => 0) ((List.range' k n).filterMap fun i => if v i = 0 then none else some (i, v i)) = true ∧
    ∀ j, j < k → above j ((List.range' k n).filterMap fun i => if v i = 0 then none else some (i, v i)) := by
  induction n generalizing k with
  | zero => exact ⟨rfl, fun _ _ p hp => by simp at hp⟩
  | succ n ih =>
    have h := ih (k + 1)
    simp only [List.range'_succ, List.filterMap_cons]
    split
    · exact ⟨h.1, fun j hj => h.2 j (Nat.lt_succ_of_lt hj)⟩
    · rename_i b hb
      split at hb
      · cases hb
      · rename_i hv
        cases hb
        refine ⟨(swf_cons _ _ _ _).2 ⟨hv, h.2 k (Nat.lt_succ_self k), h.1⟩, fun j hj p hp => ?_⟩
        rcases List.mem_cons.1 hp with rfl | hp
        · exact hj
        · exact h.2 j (Nat.lt_succ_of_lt hj) p hp

theorem swf_staged (s : State) (d : DirEnt) : swf (fun _ => 0) (s.staged d) = true := by
  have := (swf_range (fun i => s.streamWord d (768 + d.proflen / 4 + 2 * i + 1) ++ s.streamWord d (768 + d.proflen / 4 + 2 * i))
    (8 * min d.lines s.trailLines) 0).1
  simpa [State.staged, List.range_eq_range'] using this

/-! ### Every other operation -/

theorem Tame.draw {s t : State} (h : Tame s t) : Tame s (Machine.State.draw t) := by
  unfold Machine.State.draw
  repeat'
    first
    | with_reducible
        first
        | assumption | apply Tame.ite
    | ((with_reducible apply Tame.mk'); (all_goals (first | exact fun hh => hh | skip))) | dsimp only

theorem Tame.emit {s t : State} (c : Ev) (o : Obj) (d : List Fld) (h : Tame s t) :
    Tame s (Machine.State.emit c o d t) := by
  unfold Machine.State.emit
  repeat'
    first
    | with_reducible
        first
        | assumption | apply Tame.ite
    | ((with_reducible apply Tame.mk'); (all_goals (first | exact fun hh => hh | skip))) | dsimp only

theorem Tame.beginLine {s t : State} (h : Tame s t) : Tame s (Machine.State.beginLine t) := by
  unfold Machine.State.beginLine
  repeat'
    first
    | with_reducible
        first
        | assumption | apply Tame.setFlag | apply Tame.trailPut | apply Tame.ite
    | split | ((with_reducible apply Tame.mk'); (all_goals (first | exact fun hh => hh | skip))) | dsimp only

theorem Tame.putStream {s t : State} (head : Bool) (v : BitVec 64) (h : Tame s t) :
    Tame s (Machine.State.putStream head v t) := by
  unfold Machine.State.putStream
  repeat'
    first
    | with_reducible
        first
        | assumption | apply Tame.beginLine | apply Tame.trailPut | apply Tame.setReg | apply Tame.ite
    | split
    | ((with_reducible apply Tame.mk'); (all_goals (first | with_reducible exact fun hh => hh | exact fun hh => hh | exact fun hh => swf_sset _ _ _ _ hh | exact fun hh => swf_filter _ _ _ hh | (intro hh; simpa only [List.length_map] using hh) | exact fun hh => Nat.le_trans (List.length_filter_le _ _) hh | exact fun _ => rfl | skip)))
    | dsimp only

theorem Tame.rateTick {s t : State} (h : Tame s t) : Tame s (Machine.State.rateTick t) := by
  unfold Machine.State.rateTick
  repeat'
    first
    | with_reducible
        first
        | assumption | apply Tame.ite
    | split | ((with_reducible apply Tame.mk'); (all_goals (first | exact fun hh => hh | skip))) | dsimp only

theorem Tame.record {s t : State} (kind : Nat) (src : Nat) (flag : Nat) (payload : List Word) (h : Tame s t) :
    Tame s (Machine.State.record kind src flag payload t) := by
  unfold Machine.State.record
  repeat'
    first
    | with_reducible
        first
        | assumption | apply Tame.rateTick | apply Tame.putStream | apply Tame.ite | apply Tame.foldl
    | split | ((with_reducible apply Tame.mk'); (all_goals (first | exact fun hh => hh | skip))) | (intro _ _ _)
    | (intro _ _) | dsimp only

theorem Tame.recordFree {s t : State} (kind : Nat) (src : Nat) (flag : Nat) (n : Nat) (h : Tame s t) :
    Tame s (Machine.State.recordFree kind src flag n t) := by
  unfold Machine.State.recordFree
  repeat'
    first
    | with_reducible
        first
        | assumption | apply Tame.record | apply Tame.ite
    | ((with_reducible apply Tame.mk'); (all_goals (first | exact fun hh => hh | skip))) | (intro _ _ _) | (intro _ _)
    | dsimp only

theorem Tame.startCapsule {s t : State} (tr : Trg) (h : Tame s t) : Tame s (Machine.State.startCapsule tr t) := by
  unfold Machine.State.startCapsule
  repeat'
    first
    | with_reducible
        first
        | assumption | apply Tame.setReg | apply Tame.setFld | apply Tame.emit | apply Tame.ite
    | split | ((with_reducible apply Tame.mk'); (all_goals (first | exact fun hh => hh | skip))) | dsimp only

theorem Tame.trigLost {s t : State} (kind : Nat) (h : Tame s t) : Tame s (Machine.State.trigLost kind t) := by
  unfold Machine.State.trigLost
  repeat'
    first
    | with_reducible
        first
        | assumption | apply Tame.setFld | apply Tame.emit | apply Tame.ite
    | dsimp only

theorem Tame.trigger {s t : State} (kind : Nat) (obj : BitVec 16) (h : Tame s t) :
    Tame s (Machine.State.trigger kind obj t) := by
  unfold Machine.State.trigger
  repeat'
    first
    | with_reducible
        first
        | assumption | apply Tame.record | apply Tame.trigLost | apply Tame.startCapsule | apply Tame.setFlag
        | apply Tame.ite
    | split | ((with_reducible apply Tame.mk'); (all_goals (first | exact fun hh => hh | skip))) | dsimp only

theorem Tame.flush {s t : State} (h : Tame s t) : Tame s (Machine.State.flush t) := by
  unfold Machine.State.flush
  repeat'
    first
    | with_reducible
        first
        | assumption | apply Tame.trigger | apply Tame.pushEvent | apply Tame.ite | apply Tame.foldl
    | split | ((with_reducible apply Tame.mk'); (all_goals (first | exact fun hh => hh | skip))) | (intro _ _ _)
    | (intro _ _) | dsimp only

theorem Tame.clearCause {s t : State} (k : Nat) (b : Nat) (o : Obj) (h : Tame s t) :
    Tame s (Machine.clearCause k b o t) := by
  unfold Machine.clearCause
  repeat'
    first
    | with_reducible
        first
        | assumption | apply Tame.setFlag | apply Tame.emit | apply Tame.ite
    | split | dsimp only

theorem Tame.codeMoved {s t : State} (n : Nat) (h : Tame s t) :
    Tame s (Machine.State.codeMoved t n) := by
  unfold Machine.State.codeMoved
  repeat'
    first
    | with_reducible
        first
        | assumption | apply Tame.setCh | apply Tame.setFlag | apply Tame.ite
    | split
    | ((with_reducible apply Tame.mk'); (all_goals (first | with_reducible exact fun hh => hh | exact fun hh => hh | exact fun hh => swf_sset _ _ _ _ hh | exact fun hh => swf_filter _ _ _ hh | (intro hh; simpa only [List.length_map] using hh) | exact fun hh => Nat.le_trans (List.length_filter_le _ _) hh | exact fun _ => rfl | skip)))
    | (intro _ _ _) | (intro _ _) | dsimp only

theorem Tame.devOff {s t : State} (n : Nat) (h : Tame s t) :
    Tame s (Machine.State.devOff t n) := by
  unfold Machine.State.devOff
  repeat'
    first
    | with_reducible
        first
        | assumption | apply Tame.setFlag | apply Tame.clearCause | apply Tame.ite
    | split
    | (intro _ _ _) | (intro _ _) | dsimp only

theorem Tame.gateMoved {s t : State} (s1 : State) (n : Nat) (h : Tame s t) :
    Tame s (Machine.State.gateMoved s1 t n) := by
  unfold Machine.State.gateMoved
  repeat'
    first
    | with_reducible
        first
        | assumption | apply Tame.codeMoved | apply Tame.devOff | apply Tame.setFlag | apply Tame.ite
    | split
    | (intro _ _ _) | (intro _ _) | dsimp only

theorem Tame.withGates {s t : State} (l : List Nat) (f : State → State) (h : Tame s t) (hf : ∀ u, Tame s u → Tame s (f
    u)) : Tame s (Machine.withGates l f t) := by
  unfold Machine.withGates
  repeat'
    first
    | with_reducible
        first
        | assumption | apply Tame.gateMoved | apply Tame.ite | apply Tame.foldl | apply hf
    | (intro _ _ _) | (intro _ _) | dsimp only

theorem Tame.capture {s t : State} (n : Nat) (v : BitVec 16) (h : Tame s t) : Tame s (Machine.State.capture n v t) := by
  unfold Machine.State.capture
  repeat'
    first
    | with_reducible
        first
        | assumption | apply Tame.setCh | apply Tame.ite
    | ((with_reducible apply Tame.mk'); (all_goals (first | exact fun hh => hh | skip))) | dsimp only

theorem Tame.enterSafe {s t : State} (n : Nat) (h : Tame s t) : Tame s (Machine.enterSafe n t) := by
  unfold Machine.enterSafe
  repeat'
    first
    | with_reducible
        first
        | assumption | apply Tame.capture | apply Tame.setFld | apply Tame.setFlag | apply Tame.ite
    | split | dsimp only

theorem Tame.leaveSafe {s t : State} (n : Nat) (h : Tame s t) : Tame s (Machine.leaveSafe n t) := by
  unfold Machine.leaveSafe
  repeat'
    first
    | with_reducible
        first
        | assumption | apply Tame.setCh | apply Tame.setFld | apply Tame.setFlag | apply Tame.ite
    | split | ((with_reducible apply Tame.mk'); (all_goals (first | exact fun hh => hh | skip))) | dsimp only

theorem Tame.holdCause {s t : State} (k : Nat) (b : Nat) (o : Obj) (l : List Nat) (h : Tame s t) :
    Tame s (Machine.holdCause k b o l t) := by
  unfold Machine.holdCause
  repeat'
    first
    | with_reducible
        first
        | assumption | apply Tame.withGates | apply Tame.enterSafe | apply Tame.setFlag | apply Tame.emit
        | apply Tame.ite | apply Tame.forAll
    | split | (intro _ _ _) | (intro _ _) | dsimp only

theorem Tame.pulseCause {s t : State} (k : Nat) (b : Nat) (o : Obj) (l : List Nat) (h : Tame s t) :
    Tame s (Machine.pulseCause k b o l t) := by
  unfold Machine.pulseCause
  repeat'
    first
    | with_reducible
        first
        | assumption | apply Tame.clearCause | apply Tame.holdCause | apply Tame.ite
    | dsimp only

theorem Tame.dropCause {s t : State} (k : Nat) (b : Nat) (l : List Nat) (h : Tame s t) :
    Tame s (Machine.dropCause k b l t) := by
  unfold Machine.dropCause
  repeat'
    first
    | with_reducible
        first
        | assumption | apply Tame.withGates | apply Tame.leaveSafe | apply Tame.setFlag | apply Tame.ite
        | apply Tame.forAll
    | split | (intro _ _ _) | (intro _ _) | dsimp only

theorem Tame.holdDev {s t : State} (b : Nat) (h : Tame s t) : Tame s (Machine.holdDev b t) := by
  unfold Machine.holdDev
  repeat'
    first
    | with_reducible
        first
        | assumption | apply Tame.holdCause | apply Tame.ite
    | dsimp only

theorem Tame.holdGrp {s t : State} (b : Nat) (g : Nat) (h : Tame s t) : Tame s (Machine.holdGrp b g t) := by
  unfold Machine.holdGrp
  repeat'
    first
    | with_reducible
        first
        | assumption | apply Tame.holdCause | apply Tame.ite
    | dsimp only

theorem Tame.holdCh {s t : State} (b : Nat) (n : Nat) (h : Tame s t) : Tame s (Machine.holdCh b n t) := by
  unfold Machine.holdCh
  repeat'
    first
    | with_reducible
        first
        | assumption | apply Tame.holdCause | apply Tame.ite
    | split | dsimp only

theorem Tame.dropCh {s t : State} (b : Nat) (n : Nat) (h : Tame s t) : Tame s (Machine.dropCh b n t) := by
  unfold Machine.dropCh
  repeat'
    first
    | with_reducible
        first
        | assumption | apply Tame.dropCause | apply Tame.ite
    | dsimp only

theorem Tame.holdFence {s t : State} (l : List Nat) (h : Tame s t) : Tame s (Machine.holdFence l t) := by
  unfold Machine.holdFence
  repeat'
    first
    | with_reducible
        first
        | assumption | apply Tame.holdCh | apply Tame.ite | apply Tame.forAll
    | split | (intro _ _ _) | (intro _ _) | dsimp only

theorem Tame.refreshFault {s t : State} (n : Nat) (h : Tame s t) : Tame s (Machine.refreshFault n t) := by
  unfold Machine.refreshFault
  repeat'
    first
    | with_reducible
        first
        | assumption | apply Tame.holdCh | apply Tame.clearCause | apply Tame.ite
    | split | dsimp only

theorem Tame.endHold {s t : State} (n : Nat) (h : Tame s t) : Tame s (Machine.endHold n t) := by
  unfold Machine.endHold
  repeat'
    first
    | with_reducible
        first
        | assumption | apply Tame.withGates | apply Tame.setCh | apply Tame.ite
    | ((with_reducible apply Tame.mk'); (all_goals (first | exact fun hh => hh | skip))) | (intro _ _ _) | (intro _ _)
    | dsimp only

theorem Tame.endHoldsOf {s t : State} (k : Nat) (h : Tame s t) : Tame s (Machine.endHoldsOf k t) := by
  unfold Machine.endHoldsOf
  repeat'
    first
    | with_reducible
        first
        | assumption | apply Tame.endHold | apply Tame.ite | apply Tame.forAll
    | split | (intro _ _ _) | (intro _ _) | dsimp only

theorem Tame.skipEvent {s t : State} (k : Nat) (a : Word) (ts : BitVec 64) (outcome : String) (h : Tame s t) :
    Tame s (Machine.skipEvent k a ts outcome t) := by
  unfold Machine.skipEvent
  repeat'
    first
    | with_reducible
        first
        | assumption | apply Tame.emit | apply Tame.ite
    | split | dsimp only

theorem Tame.revokeFire {s t : State} (n : Nat) (h : Tame s t) : Tame s (Machine.revokeFire n t) := by
  unfold Machine.revokeFire
  repeat'
    first
    | with_reducible
        first
        | assumption | apply Tame.setCh | apply Tame.count | apply Tame.record | apply Tame.skipEvent
        | apply Tame.endHold | apply Tame.ite | apply Tame.foldl
    | split | ((with_reducible apply Tame.mk'); (all_goals (first | exact fun hh => hh | skip))) | (intro _ _ _)
    | (intro _ _) | dsimp only

theorem Tame.skipLost {s t : State} (g : Nat) (h : Tame s t) : Tame s (Machine.skipLost g t) := by
  unfold Machine.skipLost
  repeat'
    first
    | with_reducible
        first
        | assumption | apply Tame.endHold | apply Tame.revokeFire | apply Tame.ite | apply Tame.forAll
    | (intro _ _ _) | (intro _ _) | dsimp only

theorem Tame.tick {s t : State} (h : Tame s t) : Tame s (Machine.State.tick t) := by
  unfold Machine.State.tick
  repeat'
    first
    | with_reducible
        first
        | assumption | apply Tame.emit | apply Tame.ite
    | split | ((with_reducible apply Tame.mk'); (all_goals (first | exact fun hh => hh | skip))) | dsimp only

theorem Tame.endSlew {s t : State} (h : Tame s t) : Tame s (Machine.State.endSlew t) := by
  unfold Machine.State.endSlew
  repeat'
    first
    | with_reducible
        first
        | assumption | apply Tame.ite
    | ((with_reducible apply Tame.mk'); (all_goals (first | exact fun hh => hh | skip))) | dsimp only

theorem Tame.stepTime {s t : State} (v : BitVec 64) (h : Tame s t) :
    Tame s (Machine.State.stepTime v t) := by
  unfold Machine.State.stepTime
  repeat'
    first
    | with_reducible
        first
        | assumption | apply Tame.record | apply Tame.setFlag | apply Tame.ite
    | split
    | ((with_reducible apply Tame.mk'); (all_goals (first | with_reducible exact fun hh => hh | exact fun hh => hh | exact fun hh => swf_sset _ _ _ _ hh | exact fun hh => swf_filter _ _ _ hh | (intro hh; simpa only [List.length_map] using hh) | exact fun hh => Nat.le_trans (List.length_filter_le _ _) hh | exact fun _ => rfl | skip)))
    | (intro _ _ _) | (intro _ _) | dsimp only

theorem Tame.endDisc {s t : State} (h : Tame s t) : Tame s (Machine.State.endDisc t) := by
  unfold Machine.State.endDisc
  repeat'
    first
    | with_reducible
        first
        | assumption | apply Tame.ite
    | ((with_reducible apply Tame.mk'); (all_goals (first | exact fun hh => hh | skip))) | dsimp only

theorem Tame.setStale {s t : State} (l : List Nat) (h : Tame s t) :
    Tame s (Machine.setStale l t) := by
  unfold Machine.setStale
  repeat'
    first
    | with_reducible
        first
        | assumption | apply Tame.forAll | apply Tame.setFlag | apply Tame.forAll | apply Tame.ite
    | split
    | (intro _ _ _) | (intro _ _) | dsimp only

theorem Tame.ringOff {s t : State} (c : Nat) (h : Tame s t) :
    Tame s (Machine.ringOff c t) := by
  unfold Machine.ringOff
  repeat'
    first
    | with_reducible
        first
        | assumption | apply Tame.setFld | apply Tame.endDisc | apply Tame.ite
    | split
    | (intro _ _ _) | (intro _ _) | dsimp only

theorem Tame.loadLatch {s t : State} (g : Nat) (h : Tame s t) :
    Tame s (Machine.loadLatch g t) := by
  unfold Machine.loadLatch
  repeat'
    first
    | with_reducible
        first
        | assumption | apply Tame.forAll | apply Tame.setCh | apply Tame.forAll | apply Tame.ite
    | split
    | ((with_reducible apply Tame.mk'); (all_goals (first | with_reducible exact fun hh => hh | exact fun hh => hh | exact fun hh => swf_sset _ _ _ _ hh | exact fun hh => swf_filter _ _ _ hh | (intro hh; simpa only [List.length_map] using hh) | exact fun hh => Nat.le_trans (List.length_filter_le _ _) hh | exact fun _ => rfl | skip)))
    | (intro _ _ _) | (intro _ _) | dsimp only

theorem Tame.latchAlone {s t : State} (g : Nat) (h : Tame s t) :
    Tame s (Machine.latchAlone g t) := by
  unfold Machine.latchAlone
  repeat'
    first
    | with_reducible
        first
        | assumption | apply Tame.withGates | apply Tame.forAll | apply Tame.setCh | apply Tame.setGr | apply Tame.setFlag
        | apply Tame.forAll | apply Tame.ite
    | split
    | ((with_reducible apply Tame.mk'); (all_goals (first | with_reducible exact fun hh => hh | exact fun hh => hh | exact fun hh => swf_sset _ _ _ _ hh | exact fun hh => swf_filter _ _ _ hh | (intro hh; simpa only [List.length_map] using hh) | exact fun hh => Nat.le_trans (List.length_filter_le _ _) hh | exact fun _ => rfl | skip)))
    | (intro _ _ _) | (intro _ _) | dsimp only

theorem Tame.stopLinks {s t : State} (h : Tame s t) :
    Tame s (Machine.stopLinks t) := by
  unfold Machine.stopLinks
  repeat'
    first
    | with_reducible
        first
        | assumption | apply Tame.forAll | apply Tame.latchAlone | apply Tame.setFlag | apply Tame.ringOff
        | apply Tame.forAll | apply Tame.ite
    | split
    | (intro _ _ _) | (intro _ _) | dsimp only

theorem Tame.boot {s t : State} (b : Boot) (h : Tame s t) : Tame s (Machine.State.boot b t) := by
  unfold Machine.State.boot
  repeat'
    first
    | with_reducible
        first
        | assumption | apply Tame.send | apply Tame.ite
    | dsimp only

theorem Tame.enterCrawl {s t : State} (u : Un) (h : Tame s t) :
    Tame s (Machine.enterCrawl u t) := by
  unfold Machine.enterCrawl
  repeat'
    first
    | with_reducible
        first
        | assumption | apply Tame.stopLinks | apply Tame.setReg | apply Tame.boot | apply Tame.ite
    | split
    | ((with_reducible apply Tame.mk'); (all_goals (first | with_reducible exact fun hh => hh | exact fun hh => hh | exact fun hh => swf_sset _ _ _ _ hh | exact fun hh => swf_filter _ _ _ hh | (intro hh; simpa only [List.length_map] using hh) | exact fun hh => Nat.le_trans (List.length_filter_le _ _) hh | exact fun _ => rfl | skip)))
    | (intro _ _ _) | (intro _ _) | dsimp only

theorem Tame.enterFloor {s t : State} (h : Tame s t) : Tame s (Machine.enterFloor t) := by
  unfold Machine.enterFloor
  repeat'
    first
    | with_reducible
        first
        | assumption | apply Tame.stopLinks | apply Tame.ite
    | ((with_reducible apply Tame.mk'); (all_goals (first | exact fun hh => hh | skip))) | dsimp only

theorem Tame.fenceStops {s t : State} (u : Un) (h : Tame s t) :
    Tame s (Machine.fenceStops u t) := by
  unfold Machine.fenceStops
  repeat'
    first
    | with_reducible
        first
        | assumption | apply Tame.forAll | apply Tame.record | apply Tame.setCh | apply Tame.endHold | apply Tame.ringOff
        | apply Tame.setReg | apply Tame.setFlag | apply Tame.setStale | apply Tame.skipLost | apply Tame.latchAlone
        | apply Tame.revokeFire | apply Tame.forAll | apply Tame.foldl | apply Tame.ite
    | split
    | ((with_reducible apply Tame.mk'); (all_goals (first | with_reducible exact fun hh => hh | exact fun hh => hh | exact fun hh => swf_sset _ _ _ _ hh | exact fun hh => swf_filter _ _ _ hh | (intro hh; simpa only [List.length_map] using hh) | exact fun hh => Nat.le_trans (List.length_filter_le _ _) hh | exact fun _ => rfl | skip)))
    | (intro _ _ _) | (intro _ _) | dsimp only

theorem Tame.fenceUnit {s t : State} (run : Bool) (u : Un) (h : Tame s t) :
    Tame s (Machine.fenceUnit run u t) := by
  unfold Machine.fenceUnit
  repeat'
    first
    | with_reducible
        first
        | assumption | apply Tame.record | apply Tame.emit | apply Tame.enterFloor | apply Tame.holdFence
        | apply Tame.withGates | apply Tame.setFlag | apply Tame.fenceStops | apply Tame.loadLatch | apply Tame.enterCrawl
        | apply Tame.ite
    | split
    | ((with_reducible apply Tame.mk'); (all_goals (first | with_reducible exact fun hh => hh | exact fun hh => hh | exact fun hh => swf_sset _ _ _ _ hh | exact fun hh => swf_filter _ _ _ hh | (intro hh; simpa only [List.length_map] using hh) | exact fun hh => Nat.le_trans (List.length_filter_le _ _) hh | exact fun _ => rfl | skip)))
    | (intro _ _ _) | (intro _ _) | dsimp only

theorem Tame.takeReset {s t : State} (b : Nat) (h : Tame s t) : Tame s (Machine.takeReset b t) := by
  unfold Machine.takeReset
  dsimp only
  have h0 : Tame s (if b = 3 then t.record 0x05 2 0 [] else t) := Tame.ite (h.record ..) h
  revert h0
  generalize (if b = 3 then t.record 0x05 2 0 [] else t) = t0
  intro h0
  have h1 : Tame s (if b = 3 ∨ b = 4 then t0.record 0x2F 0 0 [word b] else t0) := Tame.ite (h0.record ..) h0
  revert h1
  generalize (if b = 3 ∨ b = 4 then t0.record 0x2F 0 0 [word b] else t0) = t1
  intro h1
  have hu : Tame s (Machine.forAll t1.groups Machine.latchAlone t1) := Tame.forAll _ h1 fun g u hu => hu.latchAlone g
  revert hu
  generalize Machine.forAll t1.groups Machine.latchAlone t1 = u
  intro hu
  refine hu.trans ⟨rfl, rfl, rfl, fun i => ?_⟩
  have w := i.1
  simp only [Memory.wf, Bool.and_eq_true] at w
  refine ⟨?_, Nat.zero_le _, ⟨Nat.zero_le _, Nat.zero_le _, Nat.zero_le _⟩, ?_, Nat.zero_le _⟩
  · simp only [Memory.wf, Bool.and_eq_true]
    refine ⟨⟨⟨⟨⟨⟨⟨⟨swf_sset resetWord _ _ _ rfl, ?_⟩, ?_⟩, ?_⟩, rfl⟩, swf_pfCutOff _ _ w.1.1.1.2⟩, rfl⟩,
      swf_rfCutOff _ _ w.1.2⟩, ?_⟩
    · exact swf_map_filter _ _ _ w.1.1.1.1.1.1.1.2
    · exact swf_map_filter _ _ _ w.1.1.1.1.1.1.2
    · exact swf_map_filter _ _ _ w.1.1.1.1.1.2
    · show swf _ (Chrys.trail (if b = 0 then _ else _)) = true
      split
      · rfl
      · exact w.2
  · show (if b = 0 then 0 else u.pwFails) ≤ 3
    split
    · exact Nat.zero_le _
    · exact i.2.2.2.1

theorem Tame.mailDiscard {s t : State} (c : Nat) (k : Nat) (h : Tame s t) : Tame s (Machine.mailDiscard c k t) := by
  unfold Machine.mailDiscard
  repeat'
    first
    | with_reducible
        first
        | assumption | apply Tame.setFld | apply Tame.ite
    | dsimp only

theorem Tame.mailPut {s t : State} (c : Nat) (l : List MailFrag) (h : Tame s t) : Tame s (Machine.mailPut c l t) := by
  unfold Machine.mailPut
  repeat'
    first
    | with_reducible
        first
        | assumption | apply Tame.setRg | apply Tame.ite
    | ((with_reducible apply Tame.mk'); (all_goals (first | exact fun hh => hh | skip))) | dsimp only

theorem Tame.mailForward {s t : State} (c : Nat) (f : MailFrag) (h : Tame s t) :
    Tame s (Machine.mailForward c f t) := by
  unfold Machine.mailForward
  repeat'
    first
    | with_reducible
        first
        | assumption | apply Tame.mailPut | apply Tame.mailDiscard | apply Tame.ite
    | split | dsimp only

theorem Tame.mailRespond {s t : State} (o : Origin) (tag : Option (BitVec 16)) (dup : Bool) (text : List Byte) (h :
    Tame s t) : Tame s (Machine.mailRespond o tag dup text t) := by
  unfold Machine.mailRespond
  repeat'
    first
    | with_reducible
        first
        | assumption | apply Tame.mailPut | apply Tame.mailDiscard | apply Tame.ite
    | split | dsimp only

theorem Tame.takeLine {s t : State} (e : Ep) (h : Tame s t) : Tame s (Machine.takeLine e t).2 := by
  unfold Machine.takeLine
  repeat'
    first
    | with_reducible
        first
        | assumption | apply Tame.ite
    | (with_reducible apply Tame.setPort); (all_goals (first | with_reducible assumption | skip)); (all_goals (first | with_reducible exact fun hh => hh | exact fun hh => hh | exact fun hh => swf_sset _ _ _ _ hh | exact fun hh => swf_filter _ _ _ hh | (intro hh; simpa only [List.length_map] using hh) | exact fun hh => Nat.le_trans (List.length_filter_le _ _) hh | exact fun _ => rfl | skip))
    | split | ((with_reducible apply Tame.mk'); (all_goals (first | exact fun hh => hh | skip))) | dsimp only

theorem Tame.recLine {s t : State} (e : Ep) (secret : Bool) (l : List Byte) (verdict : Nat) (h : Tame s t) :
    Tame s (Machine.recLine e secret l verdict t) := by
  unfold Machine.recLine
  repeat'
    first
    | with_reducible
        first
        | assumption | apply Tame.record | apply Tame.ite
    | split | dsimp only

theorem Tame.sendEvents {s t : State} (e : Ep) (h : Tame s t) : Tame s (Machine.sendEvents e t) := by
  unfold Machine.sendEvents
  repeat'
    first
    | with_reducible
        first
        | assumption | apply Tame.send | apply Tame.ite | apply Tame.foldl
    | split
    | ((with_reducible apply Tame.mk'); (all_goals (first | with_reducible exact fun hh => hh | exact fun hh => hh | exact fun hh => swf_sset _ _ _ _ hh | exact fun hh => swf_filter _ _ _ hh | (intro hh; simpa only [List.length_map] using hh) | exact fun hh => Nat.le_trans (List.length_filter_le _ _) hh | exact fun _ => rfl | skip)))
    | (intro _ _ _) | (intro _ _) | dsimp only

theorem Tame.respond {s t : State} (ln : Line) (a : Answer) (dup : Bool) (h : Tame s t) :
    Tame s (Machine.respond ln a dup t) := by
  unfold Machine.respond
  repeat'
    first
    | with_reducible
        first
        | assumption | apply Tame.send | apply Tame.mailRespond | apply Tame.sendEvents | apply Tame.ite
    | split
    | (intro _ _ _) | (intro _ _) | dsimp only

theorem Tame.addTag {s t : State} (ln : Line) (a : Option Answer) (h : Tame s t) : Tame s (Machine.addTag ln a t) := by
  unfold Machine.addTag
  split
  · exact h
  · dsimp only
    have hp : ((if (decide (64 ≤ (t.port ln.ep).tags.length) && decide (ln.ep ≠ .mail)) = true then
        t.setFlag (aPstat ln.ep) 3 true else t).port ln.ep).tags = (t.port ln.ep).tags := by
      split <;> rfl
    refine Tame.setPort _ _ (Tame.ite (h.setFlag ..) h) fun hh => ?_
    rw [hp] at hh ⊢
    show ((if decide (64 ≤ (t.port ln.ep).tags.length) = true then (t.port ln.ep).tags.tail else (t.port ln.ep).tags) ++
      [_]).length ≤ 64
    by_cases hl : 64 ≤ (t.port ln.ep).tags.length <;> simp only [hl, decide_true, decide_false, if_true, Bool.false_eq_true, if_false]
    · simp only [List.length_append, List.length_tail, List.length_singleton]; omega
    · simp only [List.length_append, List.length_singleton]; omega

theorem Tame.countSuffix {s t : State} (ln : Line) (h : Tame s t) : Tame s (Machine.countSuffix ln t) := by
  unfold Machine.countSuffix
  repeat'
    first
    | with_reducible
        first
        | assumption | apply Tame.count | apply Tame.ite
    | split | dsimp only

theorem Tame.taken {s t : State} (ln : Line) (h : Tame s t) : Tame s (Machine.taken ln t) := by
  unfold Machine.taken
  repeat'
    first
    | with_reducible
        first
        | assumption | apply Tame.takeLine | apply Tame.ite
    | dsimp only

theorem Tame.answer {s t : State} (ln : Line) (r : Resp) (h : Tame s t) : Tame s (Machine.answer ln r t) := by
  unfold Machine.answer
  repeat'
    first
    | with_reducible
        first
        | assumption | apply Tame.respond | apply Tame.addTag | apply Tame.ite
    | dsimp only

theorem Tame.noPost {s t : State} (h : Tame s t) : Tame s (Machine.noPost t) := by
  unfold Machine.noPost
  repeat'
    first
    | with_reducible
        first
        | assumption | apply Tame.ite
    | dsimp only

theorem Tame.gateLine {s t : State} (ln : Line) (f : Form) (refusal : State → Option Code) (go : State → State) (h :
    Tame s t) (hgo : ∀ u, Tame s u → Tame s (go u)) : Tame s (Machine.gateLine ln f refusal go t) := by
  unfold Machine.gateLine
  repeat'
    first
    | with_reducible
        first
        | assumption | apply Tame.taken | apply Tame.respond | apply Tame.recLine | apply Tame.countSuffix
        | apply Tame.answer | apply Tame.ite | apply hgo
    | split | dsimp only

theorem Tame.execLine {s t : State} (ln : Line) (f : Form) (refusal : State → Option Code) (eff : State → State ×
    Resp) (post : State → State) (h : Tame s t) (heff : ∀ u, Tame s u → Tame s (eff u).1) (hpost : ∀ u, Tame s u →
    Tame s (post u)) : Tame s (Machine.execLine ln f refusal eff t post) := by
  unfold Machine.execLine
  repeat'
    first
    | with_reducible
        first
        | assumption | apply Tame.gateLine | apply Tame.answer | apply Tame.ite | apply heff | apply hpost
    | (intro _ _ _) | (intro _ _) | dsimp only

theorem Tame.startLine {s t : State} (ln : Line) (f : Form) (checks : State → List (Code × Bool)) (go : State → State)
    (h : Tame s t) (hgo : ∀ u, Tame s u → Tame s (go u)) : Tame s (Machine.startLine ln f checks go t) := by
  unfold Machine.startLine
  repeat'
    first
    | with_reducible
        first
        | assumption | apply Tame.gateLine | apply Tame.addTag | apply Tame.ite | apply hgo
    | (intro _ _ _) | (intro _ _) | dsimp only

theorem Tame.finishLine {s t : State} (ln : Line) (r : Resp) (h : Tame s t) : Tame s (Machine.finishLine ln r t) := by
  unfold Machine.finishLine
  repeat'
    first
    | with_reducible
        first
        | assumption | apply Tame.respond | apply Tame.ite
    | (with_reducible apply Tame.setPort); (all_goals (first | with_reducible assumption | skip)); (all_goals (first | with_reducible exact fun hh => hh | exact fun hh => hh | exact fun hh => swf_sset _ _ _ _ hh | exact fun hh => swf_filter _ _ _ hh | (intro hh; simpa only [List.length_map] using hh) | exact fun hh => Nat.le_trans (List.length_filter_le _ _) hh | exact fun _ => rfl | skip))
    | split | ((with_reducible apply Tame.mk'); (all_goals (first | exact fun hh => hh | skip))) | dsimp only

theorem Tame.runLine {s t : State} (ln : Line) (f : Form) (checks : State → List (Code × Bool)) (eff : State → State ×
    Resp) (post : State → State) (h : Tame s t) (heff : ∀ u, Tame s u → Tame s (eff u).1) (hpost : ∀ u, Tame s u →
    Tame s (post u)) : Tame s (Machine.runLine ln f checks eff t post) := by
  unfold Machine.runLine
  repeat'
    first
    | with_reducible
        first
        | assumption | apply Tame.execLine | apply Tame.ite | apply Tame.noPost | apply heff | apply hpost
    | (intro _ _ _) | (intro _ _) | dsimp only

theorem Tame.okay {s t : State} (f : State → State) (h : Tame s t) (hf : ∀ u, Tame s u → Tame s (f u)) :
    Tame s (Machine.okay f t).1 := by
  unfold Machine.okay
  repeat'
    first
    | with_reducible
        first
        | assumption | apply Tame.ite | apply hf
    | dsimp only

theorem Tame.value {s t : State} (f : State → List Fld) (h : Tame s t) : Tame s (Machine.value f t).1 := by
  unfold Machine.value
  repeat'
    first
    | with_reducible
        first
        | assumption | apply Tame.ite
    | dsimp only

theorem Tame.item {s t : State} (g : Nat) (h : Tame s t) :
    Tame s (Machine.State.item t g) := by
  unfold Machine.State.item
  repeat'
    first
    | with_reducible
        first
        | assumption | apply Tame.recordFree | apply Tame.ite
    | split
    | (intro _ _ _) | (intro _ _) | dsimp only

theorem Tame.filterStart {s t : State} (n : Nat) (h : Tame s t) :
    Tame s (Machine.filterStart n t) := by
  unfold Machine.filterStart
  repeat'
    first
    | with_reducible
        first
        | assumption | apply Tame.setStale | apply Tame.setCh | apply Tame.ite
    | split
    | ((with_reducible apply Tame.mk'); (all_goals (first | with_reducible exact fun hh => hh | exact fun hh => hh | exact fun hh => swf_sset _ _ _ _ hh | exact fun hh => swf_filter _ _ _ hh | (intro hh; simpa only [List.length_map] using hh) | exact fun hh => Nat.le_trans (List.length_filter_le _ _) hh | exact fun _ => rfl | skip)))
    | (intro _ _ _) | (intro _ _) | dsimp only

theorem Tame.slotValid {s t : State} (n : Nat) (h : Tame s t) :
    Tame s (Machine.slotValid n t) := by
  unfold Machine.slotValid
  repeat'
    first
    | with_reducible
        first
        | assumption | apply Tame.setCh | apply Tame.setFld | apply Tame.setFlag | apply Tame.ite
    | split
    | ((with_reducible apply Tame.mk'); (all_goals (first | with_reducible exact fun hh => hh | exact fun hh => hh | exact fun hh => swf_sset _ _ _ _ hh | exact fun hh => swf_filter _ _ _ hh | (intro hh; simpa only [List.length_map] using hh) | exact fun hh => Nat.le_trans (List.length_filter_le _ _) hh | exact fun _ => rfl | skip)))
    | (intro _ _ _) | (intro _ _) | dsimp only

theorem Tame.cfgErr {s t : State} (n : Nat) (b : Bool) (h : Tame s t) : Tame s (Machine.cfgErr n b t) := by
  unfold Machine.cfgErr
  repeat'
    first
    | with_reducible
        first
        | assumption | apply Tame.setFlag | apply Tame.ite
    | split | dsimp only

theorem Tame.grpCfgErr {s t : State} (g : Nat) (b : Bool) (h : Tame s t) :
    Tame s (Machine.grpCfgErr g b t) := by
  unfold Machine.grpCfgErr
  repeat'
    first
    | with_reducible
        first
        | assumption | apply Tame.forAll | apply Tame.cfgErr | apply Tame.forAll | apply Tame.ite
    | split
    | (intro _ _ _) | (intro _ _) | dsimp only

theorem Tame.chEvent {s t : State} (c : Ev) (n : Nat) (h : Tame s t) : Tame s (Machine.chEvent c n t) := by
  unfold Machine.chEvent
  repeat'
    first
    | with_reducible
        first
        | assumption | apply Tame.emit | apply Tame.ite
    | dsimp only

theorem Tame.setPair {s t : State} (lo : Nat) (v : BitVec 64) (h : Tame s t) :
    Tame s (Machine.State.setPair t lo v) := by
  unfold Machine.State.setPair
  repeat'
    first
    | with_reducible
        first
        | assumption | apply Tame.setReg | apply Tame.ite
    | dsimp only

theorem Tame.persist {s t : State} (n : Nat) (h : Tame s t) :
    Tame s (Machine.persist n t) := by
  unfold Machine.persist
  repeat'
    first
    | with_reducible
        first
        | assumption | apply Tame.setCh | apply Tame.ite
    | split
    | ((with_reducible apply Tame.mk'); (all_goals (first | with_reducible exact fun hh => hh | exact fun hh => hh | exact fun hh => swf_sset _ _ _ _ hh | exact fun hh => swf_filter _ _ _ hh | (intro hh; simpa only [List.length_map] using hh) | exact fun hh => Nat.le_trans (List.length_filter_le _ _) hh | exact fun _ => rfl | skip)))
    | (intro _ _ _) | (intro _ _) | dsimp only

theorem Tame.restartSnap {s t : State} (n : Nat) (h : Tame s t) : Tame s (Machine.restartSnap n t) := by
  unfold Machine.restartSnap
  repeat'
    first
    | with_reducible
        first
        | assumption | apply Tame.setCh | apply Tame.ite
    | ((with_reducible apply Tame.mk'); (all_goals (first | exact fun hh => hh | skip))) | dsimp only

theorem Tame.setCount {s t : State} (n : Nat) (v : BitVec 64) (h : Tame s t) : Tame s (Machine.setCount n v t) := by
  unfold Machine.setCount
  repeat'
    first
    | with_reducible
        first
        | assumption | apply Tame.persist | apply Tame.setPair | apply Tame.ite
    | dsimp only

theorem Tame.takeLevel {s t : State} (n : Nat) (h : Tame s t) :
    Tame s (Machine.takeLevel n t) := by
  unfold Machine.takeLevel
  repeat'
    first
    | with_reducible
        first
        | assumption | apply Tame.slotValid | apply Tame.setCh | apply Tame.setFlag | apply Tame.ite
    | split
    | ((with_reducible apply Tame.mk'); (all_goals (first | with_reducible exact fun hh => hh | exact fun hh => hh | exact fun hh => swf_sset _ _ _ _ hh | exact fun hh => swf_filter _ _ _ hh | (intro hh; simpa only [List.length_map] using hh) | exact fun hh => Nat.le_trans (List.length_filter_le _ _) hh | exact fun _ => rfl | skip)))
    | (intro _ _ _) | (intro _ _) | dsimp only

theorem Tame.writeDiCfg {s t : State} (n : Nat) (v : Word) (h : Tame s t) :
    Tame s (Machine.writeDiCfg n v t) := by
  unfold Machine.writeDiCfg
  repeat'
    first
    | with_reducible
        first
        | assumption | apply Tame.cfgErr | apply Tame.setReg | apply Tame.setFlag | apply Tame.takeLevel | apply Tame.setCh
        | apply Tame.ite
    | split
    | ((with_reducible apply Tame.mk'); (all_goals (first | with_reducible exact fun hh => hh | exact fun hh => hh | exact fun hh => swf_sset _ _ _ _ hh | exact fun hh => swf_filter _ _ _ hh | (intro hh; simpa only [List.length_map] using hh) | exact fun hh => Nat.le_trans (List.length_filter_le _ _) hh | exact fun _ => rfl | skip)))
    | (intro _ _ _) | (intro _ _) | dsimp only

theorem Tame.writeDebounce {s t : State} (n : Nat) (v : Nat) (h : Tame s t) : Tame s (Machine.writeDebounce n v t) := by
  unfold Machine.writeDebounce
  repeat'
    first
    | with_reducible
        first
        | assumption | apply Tame.cfgErr | apply Tame.setReg | apply Tame.ite
    | dsimp only

theorem Tame.writePersist {s t : State} (n : Nat) (v : Word) (h : Tame s t) :
    Tame s (Machine.writePersist n v t) := by
  unfold Machine.writePersist
  repeat'
    first
    | with_reducible
        first
        | assumption | apply Tame.setReg | apply Tame.restartSnap | apply Tame.ite
    | split
    | (intro _ _ _) | (intro _ _) | dsimp only

theorem Tame.loadCount {s t : State} (n : Nat) (h : Tame s t) :
    Tame s (Machine.loadCount n t) := by
  unfold Machine.loadCount
  repeat'
    first
    | with_reducible
        first
        | assumption | apply Tame.value | apply Tame.setPair | apply Tame.setFlag | apply Tame.restartSnap | apply Tame.setCh
        | apply Tame.ite
    | split
    | ((with_reducible apply Tame.mk'); (all_goals (first | with_reducible exact fun hh => hh | exact fun hh => hh | exact fun hh => swf_sset _ _ _ _ hh | exact fun hh => swf_filter _ _ _ hh | (intro hh; simpa only [List.length_map] using hh) | exact fun hh => Nat.le_trans (List.length_filter_le _ _) hh | exact fun _ => rfl | skip)))
    | (intro _ _ _) | (intro _ _) | dsimp only

theorem Tame.startFilter {s t : State} (n : Nat) (raw : Bool) (h : Tame s t) :
    Tame s (Machine.startFilter n raw t) := by
  unfold Machine.startFilter
  repeat'
    first
    | with_reducible
        first
        | assumption | apply Tame.takeLevel | apply Tame.setCh | apply Tame.ite
    | ((with_reducible apply Tame.mk'); (all_goals (first | exact fun hh => hh | skip))) | dsimp only

theorem Tame.takeCount {s t : State} (n : Nat) (h : Tame s t) :
    Tame s (Machine.takeCount n t) := by
  unfold Machine.takeCount
  repeat'
    first
    | with_reducible
        first
        | assumption | apply Tame.setCh | apply Tame.setPair | apply Tame.slotValid | apply Tame.persist | apply Tame.ite
    | split
    | ((with_reducible apply Tame.mk'); (all_goals (first | with_reducible exact fun hh => hh | exact fun hh => hh | exact fun hh => swf_sset _ _ _ _ hh | exact fun hh => swf_filter _ _ _ hh | (intro hh; simpa only [List.length_map] using hh) | exact fun hh => Nat.le_trans (List.length_filter_le _ _) hh | exact fun _ => rfl | skip)))
    | (intro _ _ _) | (intro _ _) | dsimp only

theorem Tame.confirmEdge {s t : State} (n : Nat) (level : Bool) (tstart : BitVec 64) (h : Tame s t) :
    Tame s (Machine.confirmEdge n level tstart t) := by
  unfold Machine.confirmEdge
  repeat'
    first
    | with_reducible
        first
        | assumption | apply Tame.slotValid | apply Tame.setFlag | apply Tame.setFld | apply Tame.setCh | apply Tame.ite
    | split
    | ((with_reducible apply Tame.mk'); (all_goals (first | with_reducible exact fun hh => hh | exact fun hh => hh | exact fun hh => swf_sset _ _ _ _ hh | exact fun hh => swf_filter _ _ _ hh | (intro hh; simpa only [List.length_map] using hh) | exact fun hh => Nat.le_trans (List.length_filter_le _ _) hh | exact fun _ => rfl | skip)))
    | (intro _ _ _) | (intro _ _) | dsimp only

theorem Tame.confirmFire {s t : State} (n : Nat) (level : Bool) (h : Tame s t) :
    Tame s (Machine.confirmFire n level t) := by
  unfold Machine.confirmFire
  repeat'
    first
    | with_reducible
        first
        | assumption | apply Tame.record | apply Tame.skipEvent | apply Tame.setCh | apply Tame.endHold
        | apply Tame.ite | apply Tame.forAll | apply Tame.foldl
    | split | ((with_reducible apply Tame.mk'); (all_goals (first | exact fun hh => hh | skip))) | (intro _ _ _)
    | (intro _ _) | dsimp only

theorem Tame.dispatch {s t : State} (k src : Nat) (lev : Bool) (ts : BitVec 64) (h : Tame s t) :
    Tame s (Machine.dispatch k src lev ts t).1 := by
  unfold Machine.dispatch
  dsimp only
  split
  · exact h.pulseCause ..
  split
  · exact h
  split
  · exact h
  split
  · exact (h.count _).record ..
  · exact Tame.withGates _ _ h fun u hu => hu.setCh ..

theorem Tame.fireOne {s : State} (n : Nat) (lev : Bool) (ts : BitVec 64) (k : Nat) (r : State × List FireAct) (h : Tame s r.1) :
    Tame s (Machine.fireOne n lev ts k r).1 := by
  unfold Machine.fireOne
  dsimp only
  have hd := Tame.dispatch k n lev ts (h.count (skA k 0x10))
  have ht (c : Bool) (e : Word) (o : List Word) : Tame s (if c = true then State.record 0x25 0 0 o
      (Machine.dispatch k n lev ts (r.1.count (skA k 0x10))).1 else (Machine.dispatch k n lev ts (r.1.count (skA k 0x10))).1) :=
    Tame.ite (hd.record ..) hd
  split
  · split
    · exact (ht _ 0 _).skipEvent ..
    · exact ht _ 0 _
  · exact ht _ 0 _

theorem Tame.fireFold {s : State} (n : Nat) (lev : Bool) (ts : BitVec 64) (l : List Nat) (r : State × List FireAct)
    (h : Tame s r.1) : Tame s (l.foldl (fun r k => Machine.fireOne n lev ts k r) r).1 := by
  induction l generalizing r with
  | nil => exact h
  | cons k l ih => exact ih _ (Tame.fireOne n lev ts k r h)

theorem Tame.fireAll {s t : State} (n : Nat) (level : Bool) (ts : BitVec 64) (h : Tame s t) :
    Tame s (Machine.fireAll n level ts t) := by
  unfold Machine.fireAll
  dsimp only
  split
  · exact h
  · have hr := Tame.fireFold n (level != t.invert n) ts (t.matching n level) (t.recordFree 0x02 (n / 16) 0 1, []) (h.recordFree ..)
    exact Tame.ite hr (hr.setCh ..)

theorem Tame.setEnable {s t : State} (k : Nat) (on : Bool) (h : Tame s t) : Tame s (Machine.setEnable k on t) := by
  unfold Machine.setEnable
  repeat'
    first
    | with_reducible
        first
        | assumption | apply Tame.setFlag | apply Tame.endHoldsOf | apply Tame.ite
    | split | dsimp only

theorem Tame.startModel {s t : State} (n : Nat) (h : Tame s t) : Tame s (Machine.startModel n t) := by
  unfold Machine.startModel
  repeat'
    first
    | with_reducible
        first
        | assumption | apply Tame.setCh | apply Tame.ite
    | ((with_reducible apply Tame.mk'); (all_goals (first | exact fun hh => hh | skip))) | (intro _ _ _) | (intro _ _)
    | dsimp only

theorem Tame.trip {s t : State} (c : Nat) (ev : Ev) (latch : Bool) (n : Nat) (h : Tame s t) :
    Tame s (Machine.trip c ev latch n t) := by
  unfold Machine.trip
  repeat'
    first
    | with_reducible
        first
        | assumption | apply Tame.withGates | apply Tame.setFlag | apply Tame.setFld | apply Tame.setCh
        | apply Tame.count | apply Tame.refreshFault | apply Tame.chEvent | apply Tame.ite
    | ((with_reducible apply Tame.mk'); (all_goals (first | exact fun hh => hh | skip))) | (intro _ _ _) | (intro _ _)
    | dsimp only

theorem Tame.fuseTrip {s t : State} (n : Nat) (h : Tame s t) : Tame s (Machine.fuseTrip n t) := by
  unfold Machine.fuseTrip
  repeat'
    first
    | with_reducible
        first
        | assumption | apply Tame.trip | apply Tame.ite
    | dsimp only

theorem Tame.endTrip {s t : State} (n : Nat) (h : Tame s t) : Tame s (Machine.endTrip n t) := by
  unfold Machine.endTrip
  repeat'
    first
    | with_reducible
        first
        | assumption | apply Tame.withGates | apply Tame.setFlag | apply Tame.refreshFault | apply Tame.setCh
        | apply Tame.ite
    | ((with_reducible apply Tame.mk'); (all_goals (first | exact fun hh => hh | skip))) | (intro _ _ _) | (intro _ _)
    | dsimp only

theorem Tame.tripClear {s t : State} (n : Nat) (h : Tame s t) : Tame s (Machine.tripClear n t) := by
  unfold Machine.tripClear
  repeat'
    first
    | with_reducible
        first
        | assumption | apply Tame.chEvent | apply Tame.endTrip | apply Tame.setCh | apply Tame.ite
    | split | ((with_reducible apply Tame.mk'); (all_goals (first | exact fun hh => hh | skip))) | dsimp only

theorem Tame.fuseStep {s t : State} (n : Nat) (mA : Nat) (h : Tame s t) :
    Tame s (Machine.fuseStep n mA t) := by
  unfold Machine.fuseStep
  repeat'
    first
    | with_reducible
        first
        | assumption | apply Tame.cfgErr | apply Tame.setCh | apply Tame.fuseTrip | apply Tame.ite
    | split
    | ((with_reducible apply Tame.mk'); (all_goals (first | with_reducible exact fun hh => hh | exact fun hh => hh | exact fun hh => swf_sset _ _ _ _ hh | exact fun hh => swf_filter _ _ _ hh | (intro hh; simpa only [List.length_map] using hh) | exact fun hh => Nat.le_trans (List.length_filter_le _ _) hh | exact fun _ => rfl | skip)))
    | (intro _ _ _) | (intro _ _) | dsimp only

theorem Tame.fuseSteps {s t : State} (h : Tame s t) : Tame s (Machine.fuseSteps t) := by
  unfold Machine.fuseSteps
  repeat'
    first
    | with_reducible
        first
        | assumption | apply Tame.fuseStep | apply Tame.ite | apply Tame.forAll
    | split | (intro _ _ _) | (intro _ _) | dsimp only

theorem Tame.expireHold {s t : State} (n : Nat) (h : Tame s t) : Tame s (Machine.expireHold n t) := by
  unfold Machine.expireHold
  repeat'
    first
    | with_reducible
        first
        | assumption | apply Tame.chEvent | apply Tame.withGates | apply Tame.setFld | apply Tame.ite
    | (intro _ _ _) | (intro _ _) | dsimp only

theorem Tame.safeChanged {s t : State} (n : Nat) (old : Nat) (v : BitVec 16) (h : Tame s t) :
    Tame s (Machine.safeChanged n old v t) := by
  unfold Machine.safeChanged
  repeat'
    first
    | with_reducible
        first
        | assumption | apply Tame.loadLatch | apply Tame.expireHold | apply Tame.capture | apply Tame.setCh | apply Tame.ite
    | split
    | ((with_reducible apply Tame.mk'); (all_goals (first | with_reducible exact fun hh => hh | exact fun hh => hh | exact fun hh => swf_sset _ _ _ _ hh | exact fun hh => swf_filter _ _ _ hh | (intro hh; simpa only [List.length_map] using hh) | exact fun hh => Nat.le_trans (List.length_filter_le _ _) hh | exact fun _ => rfl | skip)))
    | (intro _ _ _) | (intro _ _) | dsimp only

theorem Tame.withSafe {s t : State} (n : Nat) (f : State → State) (h : Tame s t) (hf : ∀ u, Tame s u → Tame s (f u)) :
    Tame s (Machine.withSafe n f t) := by
  unfold Machine.withSafe
  repeat'
    first
    | with_reducible
        first
        | assumption | apply Tame.withGates | apply Tame.safeChanged | apply Tame.ite | apply hf
    | (intro _ _ _) | (intro _ _) | dsimp only

theorem Tame.checkKind {s t : State} (n : Nat) (h : Tame s t) : Tame s (Machine.checkKind n t) := by
  unfold Machine.checkKind
  repeat'
    first
    | with_reducible
        first
        | assumption | apply Tame.withSafe | apply Tame.cfgErr | apply Tame.setFld | apply Tame.ite
    | split | (intro _ _ _) | (intro _ _) | dsimp only

theorem Tame.rotMode {s t : State} (n : Nat) (h : Tame s t) : Tame s (Machine.rotMode n t) := by
  unfold Machine.rotMode
  repeat'
    first
    | with_reducible
        first
        | assumption | apply Tame.setFld | apply Tame.ite
    | split | dsimp only

theorem Tame.rotResume {s t : State} (n : Nat) (h : Tame s t) : Tame s (Machine.rotResume n t) := by
  unfold Machine.rotResume
  repeat'
    first
    | with_reducible
        first
        | assumption | apply Tame.setFld | apply Tame.ite
    | split | dsimp only

theorem Tame.rotLost {s t : State} (g : Nat) (h : Tame s t) : Tame s (Machine.rotLost g t) := by
  unfold Machine.rotLost
  repeat'
    first
    | with_reducible
        first
        | assumption | apply Tame.setFld | apply Tame.setGr | apply Tame.ite
    | split | ((with_reducible apply Tame.mk'); (all_goals (first | exact fun hh => hh | skip))) | dsimp only

theorem Tame.rotBringUp {s t : State} (g : Nat) (h : Tame s t) : Tame s (Machine.rotBringUp g t) := by
  unfold Machine.rotBringUp
  repeat'
    first
    | with_reducible
        first
        | assumption | apply Tame.setGr | apply Tame.setFld | apply Tame.ite
    | split | ((with_reducible apply Tame.mk'); (all_goals (first | exact fun hh => hh | skip))) | dsimp only

theorem Tame.refreshTarget {s t : State} (n : Nat) (h : Tame s t) : Tame s (Machine.refreshTarget n t) := by
  unfold Machine.refreshTarget
  repeat'
    first
    | with_reducible
        first
        | assumption | apply Tame.refreshFault | apply Tame.ite
    | split | dsimp only

theorem Tame.judgeFence {s t : State} (n : Nat) (h : Tame s t) : Tame s (Machine.judgeFence n t) := by
  unfold Machine.judgeFence
  repeat'
    first
    | with_reducible
        first
        | assumption | apply Tame.holdCh | apply Tame.dropCh | apply Tame.ite
    | split | dsimp only

theorem Tame.modeOff {s t : State} (n : Nat) (h : Tame s t) :
    Tame s (Machine.modeOff n t) := by
  unfold Machine.modeOff
  repeat'
    first
    | with_reducible
        first
        | assumption | apply Tame.endHold | apply Tame.revokeFire | apply Tame.withGates | apply Tame.setCh
        | apply Tame.setReg | apply Tame.setFlag | apply Tame.refreshTarget | apply Tame.setFld | apply Tame.rotMode
        | apply Tame.dropCh | apply Tame.judgeFence | apply Tame.checkKind | apply Tame.enterSafe | apply Tame.leaveSafe
        | apply Tame.loadLatch | apply Tame.ite
    | split
    | ((with_reducible apply Tame.mk'); (all_goals (first | with_reducible exact fun hh => hh | exact fun hh => hh | exact fun hh => swf_sset _ _ _ _ hh | exact fun hh => swf_filter _ _ _ hh | (intro hh; simpa only [List.length_map] using hh) | exact fun hh => Nat.le_trans (List.length_filter_le _ _) hh | exact fun _ => rfl | skip)))
    | (intro _ _ _) | (intro _ _) | dsimp only

theorem Tame.modeOn {s t : State} (n : Nat) (raw : Bool) (h : Tame s t) :
    Tame s (Machine.modeOn n raw t) := by
  unfold Machine.modeOn
  repeat'
    first
    | with_reducible
        first
        | assumption | apply Tame.startFilter | apply Tame.loadCount | apply Tame.startModel | apply Tame.setCh
        | apply Tame.filterStart | apply Tame.slotValid | apply Tame.withGates | apply Tame.holdFence | apply Tame.ite
    | split
    | ((with_reducible apply Tame.mk'); (all_goals (first | with_reducible exact fun hh => hh | exact fun hh => hh | exact fun hh => swf_sset _ _ _ _ hh | exact fun hh => swf_filter _ _ _ hh | (intro hh; simpa only [List.length_map] using hh) | exact fun hh => Nat.le_trans (List.length_filter_le _ _) hh | exact fun _ => rfl | skip)))
    | (intro _ _ _) | (intro _ _) | dsimp only

theorem Tame.reapply {s t : State} (n : Nat) (raw : Bool) (h : Tame s t) :
    Tame s (Machine.reapply n raw t) := by
  unfold Machine.reapply
  repeat'
    first
    | with_reducible
        first
        | assumption | apply Tame.slotValid | apply Tame.startFilter | apply Tame.setFlag | apply Tame.setCh
        | apply Tame.filterStart | apply Tame.startModel | apply Tame.ite
    | split
    | ((with_reducible apply Tame.mk'); (all_goals (first | with_reducible exact fun hh => hh | exact fun hh => hh | exact fun hh => swf_sset _ _ _ _ hh | exact fun hh => swf_filter _ _ _ hh | (intro hh; simpa only [List.length_map] using hh) | exact fun hh => Nat.le_trans (List.length_filter_le _ _) hh | exact fun _ => rfl | skip)))
    | (intro _ _ _) | (intro _ _) | dsimp only

theorem Tame.modeChanged {s t : State} (n : Nat) (h : Tame s t) :
    Tame s (Machine.modeChanged n t) := by
  unfold Machine.modeChanged
  repeat'
    first
    | with_reducible
        first
        | assumption | apply Tame.modeOff | apply Tame.withGates | apply Tame.setCh | apply Tame.holdFence
        | apply Tame.dropCh | apply Tame.enterSafe | apply Tame.leaveSafe | apply Tame.ite
    | split
    | ((with_reducible apply Tame.mk'); (all_goals (first | with_reducible exact fun hh => hh | exact fun hh => hh | exact fun hh => swf_sset _ _ _ _ hh | exact fun hh => swf_filter _ _ _ hh | (intro hh; simpa only [List.length_map] using hh) | exact fun hh => Nat.le_trans (List.length_filter_le _ _) hh | exact fun _ => rfl | skip)))
    | (intro _ _ _) | (intro _ _) | dsimp only

theorem Tame.storeMode {s t : State} (n : Nat) (m : Nat) (w4 : Bool) (h : Tame s t) :
    Tame s (Machine.storeMode n m w4 t) := by
  unfold Machine.storeMode
  repeat'
    first
    | with_reducible
        first
        | assumption | apply Tame.setFld | apply Tame.setFlag | apply Tame.modeChanged | apply Tame.ite
    | split | dsimp only

theorem Tame.groupLost {s t : State} (g : Nat) (h : Tame s t) : Tame s (Machine.groupLost g t) := by
  unfold Machine.groupLost
  repeat'
    first
    | with_reducible
        first
        | assumption | apply Tame.rotLost | apply Tame.setStale | apply Tame.skipLost | apply Tame.ite
    | dsimp only

theorem Tame.linkLost {s t : State} (g : Nat) (h : Tame s t) :
    Tame s (Machine.linkLost g t) := by
  unfold Machine.linkLost
  repeat'
    first
    | with_reducible
        first
        | assumption | apply Tame.setFlag | apply Tame.emit | apply Tame.groupLost | apply Tame.holdGrp | apply Tame.setGr
        | apply Tame.ite
    | split
    | ((with_reducible apply Tame.mk'); (all_goals (first | with_reducible exact fun hh => hh | exact fun hh => hh | exact fun hh => swf_sset _ _ _ _ hh | exact fun hh => swf_filter _ _ _ hh | (intro hh; simpa only [List.length_map] using hh) | exact fun hh => Nat.le_trans (List.length_filter_le _ _) hh | exact fun _ => rfl | skip)))
    | (intro _ _ _) | (intro _ _) | dsimp only

theorem Tame.supplyLost {s t : State} (g : Nat) (h : Tame s t) :
    Tame s (Machine.supplyLost g t) := by
  unfold Machine.supplyLost
  repeat'
    first
    | with_reducible
        first
        | assumption | apply Tame.withGates | apply Tame.setGr | apply Tame.ite
    | split
    | ((with_reducible apply Tame.mk'); (all_goals (first | with_reducible exact fun hh => hh | exact fun hh => hh | exact fun hh => swf_sset _ _ _ _ hh | exact fun hh => swf_filter _ _ _ hh | (intro hh; simpa only [List.length_map] using hh) | exact fun hh => Nat.le_trans (List.length_filter_le _ _) hh | exact fun _ => rfl | skip)))
    | (intro _ _ _) | (intro _ _) | dsimp only

theorem Tame.groupUnpowered {s t : State} (g : Nat) (h : Tame s t) :
    Tame s (Machine.groupUnpowered g t) := by
  unfold Machine.groupUnpowered
  repeat'
    first
    | with_reducible
        first
        | assumption | apply Tame.supplyLost | apply Tame.setFlag | apply Tame.holdGrp | apply Tame.emit
        | apply Tame.groupLost | apply Tame.setGr | apply Tame.ite
    | split
    | ((with_reducible apply Tame.mk'); (all_goals (first | with_reducible exact fun hh => hh | exact fun hh => hh | exact fun hh => swf_sset _ _ _ _ hh | exact fun hh => swf_filter _ _ _ hh | (intro hh; simpa only [List.length_map] using hh) | exact fun hh => Nat.le_trans (List.length_filter_le _ _) hh | exact fun _ => rfl | skip)))
    | (intro _ _ _) | (intro _ _) | dsimp only

theorem Tame.supplyBack {s t : State} (kept : Bool) (g : Nat) (h : Tame s t) :
    Tame s (Machine.supplyBack kept g t) := by
  unfold Machine.supplyBack
  repeat'
    first
    | with_reducible
        first
        | assumption | apply Tame.withGates | apply Tame.forAll | apply Tame.setCh | apply Tame.setGr | apply Tame.forAll
        | apply Tame.ite
    | split
    | ((with_reducible apply Tame.mk'); (all_goals (first | with_reducible exact fun hh => hh | exact fun hh => hh | exact fun hh => swf_sset _ _ _ _ hh | exact fun hh => swf_filter _ _ _ hh | (intro hh; simpa only [List.length_map] using hh) | exact fun hh => Nat.le_trans (List.length_filter_le _ _) hh | exact fun _ => rfl | skip)))
    | (intro _ _ _) | (intro _ _) | dsimp only

theorem Tame.trainOk {s t : State} (g : Nat) (h : Tame s t) :
    Tame s (Machine.trainOk g t) := by
  unfold Machine.trainOk
  repeat'
    first
    | with_reducible
        first
        | assumption | apply Tame.setFlag | apply Tame.setFld | apply Tame.clearCause | apply Tame.emit | apply Tame.setGr
        | apply Tame.ite
    | split
    | ((with_reducible apply Tame.mk'); (all_goals (first | with_reducible exact fun hh => hh | exact fun hh => hh | exact fun hh => swf_sset _ _ _ _ hh | exact fun hh => swf_filter _ _ _ hh | (intro hh; simpa only [List.length_map] using hh) | exact fun hh => Nat.le_trans (List.length_filter_le _ _) hh | exact fun _ => rfl | skip)))
    | (intro _ _ _) | (intro _ _) | dsimp only

theorem Tame.attempt {s t : State} (g : Nat) (r : Train) (h : Tame s t) : Tame s (Machine.attempt g r t) := by
  unfold Machine.attempt
  repeat'
    first
    | with_reducible
        first
        | assumption | apply Tame.trainOk | apply Tame.setGr | apply Tame.fenceUnit | apply Tame.groupUnpowered
        | apply Tame.ite
    | split | ((with_reducible apply Tame.mk'); (all_goals (first | exact fun hh => hh | skip))) | (intro _ _ _)
    | (intro _ _) | dsimp only

theorem Tame.takeHold {s t : State} (n : Nat) (elapsed : Nat) (h : Tame s t) :
    Tame s (Machine.takeHold n elapsed t) := by
  unfold Machine.takeHold
  repeat'
    first
    | with_reducible
        first
        | assumption | apply Tame.setCh | apply Tame.expireHold | apply Tame.ite
    | split
    | ((with_reducible apply Tame.mk'); (all_goals (first | with_reducible exact fun hh => hh | exact fun hh => hh | exact fun hh => swf_sset _ _ _ _ hh | exact fun hh => swf_filter _ _ _ hh | (intro hh; simpa only [List.length_map] using hh) | exact fun hh => Nat.le_trans (List.length_filter_le _ _) hh | exact fun _ => rfl | skip)))
    | (intro _ _ _) | (intro _ _) | dsimp only

theorem Tame.latchIdle {s t : State} (g : Nat) (h : Tame s t) :
    Tame s (Machine.latchIdle g t) := by
  unfold Machine.latchIdle
  repeat'
    first
    | with_reducible
        first
        | assumption | apply Tame.withGates | apply Tame.setGr | apply Tame.setFlag | apply Tame.ite
    | split
    | ((with_reducible apply Tame.mk'); (all_goals (first | with_reducible exact fun hh => hh | exact fun hh => hh | exact fun hh => swf_sset _ _ _ _ hh | exact fun hh => swf_filter _ _ _ hh | (intro hh; simpa only [List.length_map] using hh) | exact fun hh => Nat.le_trans (List.length_filter_le _ _) hh | exact fun _ => rfl | skip)))
    | (intro _ _ _) | (intro _ _) | dsimp only

theorem Tame.bringUp {s t : State} (kind : Nat) (g : Nat) (r : BringUp) (h : Tame s t) :
    Tame s (Machine.bringUp kind g r t) := by
  unfold Machine.bringUp
  repeat'
    first
    | with_reducible
        first
        | assumption | apply Tame.fenceUnit | apply Tame.setGr | apply Tame.clearCause | apply Tame.setFlag
        | apply Tame.forAll | apply Tame.enterSafe | apply Tame.expireHold | apply Tame.takeHold | apply Tame.latchIdle
        | apply Tame.loadLatch | apply Tame.reapply | apply Tame.modeOn | apply Tame.modeOff | apply Tame.rotBringUp
        | apply Tame.forAll | apply Tame.foldl | apply Tame.ite
    | split
    | ((with_reducible apply Tame.mk'); (all_goals (first | with_reducible exact fun hh => hh | exact fun hh => hh | exact fun hh => swf_sset _ _ _ _ hh | exact fun hh => swf_filter _ _ _ hh | (intro hh; simpa only [List.length_map] using hh) | exact fun hh => Nat.le_trans (List.length_filter_le _ _) hh | exact fun _ => rfl | skip)))
    | (intro _ _ _) | (intro _ _) | dsimp only

theorem Tame.linkErr {s t : State} (g : Nat) (k : Nat) (h : Tame s t) : Tame s (Machine.linkErr g k t) := by
  unfold Machine.linkErr
  repeat'
    first
    | with_reducible
        first
        | assumption | apply Tame.setFld | apply Tame.ite
    | dsimp only

theorem Tame.armPart {s t : State} (h : Tame s t) : Tame s (Machine.armPart t) := by
  unfold Machine.armPart
  repeat'
    first
    | with_reducible
        first
        | assumption | apply Tame.dropCause | apply Tame.emit | apply Tame.ite
    | split | ((with_reducible apply Tame.mk'); (all_goals (first | exact fun hh => hh | skip))) | dsimp only

theorem Tame.disarmPart {s t : State} (h : Tame s t) : Tame s (Machine.disarmPart t) := by
  unfold Machine.disarmPart
  repeat'
    first
    | with_reducible
        first
        | assumption | apply Tame.holdDev | apply Tame.ite
    | split | ((with_reducible apply Tame.mk'); (all_goals (first | exact fun hh => hh | skip))) | dsimp only

theorem Tame.setOut {s t : State} (n : Nat) (v : Nat) (h : Tame s t) : Tame s (Machine.setOut n v t) := by
  unfold Machine.setOut
  repeat'
    first
    | with_reducible
        first
        | assumption | apply Tame.withGates | apply Tame.setReg | apply Tame.ite
    | (intro _ _ _) | (intro _ _) | dsimp only

theorem Tame.rangeToggle {s t : State} (n : Nat) (b : Nat) (h : Tame s t) : Tame s (Machine.rangeToggle n b t) := by
  unfold Machine.rangeToggle
  repeat'
    first
    | with_reducible
        first
        | assumption | apply Tame.setFlag | apply Tame.chEvent | apply Tame.ite
    | split | dsimp only

theorem Tame.rangeResult {s t : State} (n : Nat) (v : Int) (h : Tame s t) : Tame s (Machine.rangeResult n v t) := by
  unfold Machine.rangeResult
  repeat'
    first
    | with_reducible
        first
        | assumption | apply Tame.setCh | apply Tame.rangeToggle | apply Tame.ite
    | split | ((with_reducible apply Tame.mk'); (all_goals (first | exact fun hh => hh | skip))) | dsimp only

theorem Tame.rangeIdle {s t : State} (n : Nat) (h : Tame s t) : Tame s (Machine.rangeIdle n t) := by
  unfold Machine.rangeIdle
  repeat'
    first
    | with_reducible
        first
        | assumption | apply Tame.setCh | apply Tame.ite
    | ((with_reducible apply Tame.mk'); (all_goals (first | exact fun hh => hh | skip))) | dsimp only

theorem Tame.rangeAgain {s t : State} (n : Nat) (h : Tame s t) : Tame s (Machine.rangeAgain n t) := by
  unfold Machine.rangeAgain
  repeat'
    first
    | with_reducible
        first
        | assumption | apply Tame.setCh | apply Tame.rangeToggle | apply Tame.ite
    | split | ((with_reducible apply Tame.mk'); (all_goals (first | exact fun hh => hh | skip))) | dsimp only

theorem Tame.writeAiCfg {s t : State} (n : Nat) (v : Word) (h : Tame s t) : Tame s (Machine.writeAiCfg n v t) := by
  unfold Machine.writeAiCfg
  repeat'
    first
    | with_reducible
        first
        | assumption | apply Tame.cfgErr | apply Tame.setReg | apply Tame.ite
    | split | dsimp only

theorem Tame.writeAiDiag {s t : State} (n : Nat) (v : Nat) (h : Tame s t) : Tame s (Machine.writeAiDiag n v t) := by
  unfold Machine.writeAiDiag
  repeat'
    first
    | with_reducible
        first
        | assumption | apply Tame.rangeAgain | apply Tame.cfgErr | apply Tame.setReg | apply Tame.ite
    | dsimp only

theorem Tame.writeAoDev {s t : State} (n : Nat) (v : Word) (h : Tame s t) : Tame s (Machine.writeAoDev n v t) := by
  unfold Machine.writeAoDev
  repeat'
    first
    | with_reducible
        first
        | assumption | apply Tame.refreshFault | apply Tame.cfgErr | apply Tame.setReg | apply Tame.ite
    | dsimp only

theorem Tame.writeAoRbchk {s t : State} (n : Nat) (v : Word) (h : Tame s t) : Tame s (Machine.writeAoRbchk n v t) := by
  unfold Machine.writeAoRbchk
  repeat'
    first
    | with_reducible
        first
        | assumption | apply Tame.cfgErr | apply Tame.setReg | apply Tame.ite
    | dsimp only

theorem Tame.checkTarget {s t : State} (n : Nat) (h : Tame s t) : Tame s (Machine.checkTarget n t) := by
  unfold Machine.checkTarget
  repeat'
    first
    | with_reducible
        first
        | assumption | apply Tame.cfgErr | apply Tame.ite
    | dsimp only

theorem Tame.winResult {s t : State} (n : Nat) (v : Int) (h : Tame s t) : Tame s (Machine.winResult n v t) := by
  unfold Machine.winResult
  repeat'
    first
    | with_reducible
        first
        | assumption | apply Tame.setCh | apply Tame.setFld | apply Tame.setFlag | apply Tame.emit
        | apply Tame.refreshTarget | apply Tame.checkTarget | apply Tame.ite
    | split | ((with_reducible apply Tame.mk'); (all_goals (first | exact fun hh => hh | skip))) | dsimp only

theorem Tame.winReset {s t : State} (n : Nat) (h : Tame s t) : Tame s (Machine.winReset n t) := by
  unfold Machine.winReset
  repeat'
    first
    | with_reducible
        first
        | assumption | apply Tame.setCh | apply Tame.refreshTarget | apply Tame.setFld | apply Tame.ite
    | ((with_reducible apply Tame.mk'); (all_goals (first | exact fun hh => hh | skip))) | dsimp only

theorem Tame.winTarget {s t : State} (n : Nat) (act : Bool) (tgt : Nat) (h : Tame s t) :
    Tame s (Machine.winTarget n act tgt t) := by
  unfold Machine.winTarget
  repeat'
    first
    | with_reducible
        first
        | assumption | apply Tame.setFlag | apply Tame.setFld | apply Tame.checkTarget | apply Tame.refreshFault
        | apply Tame.refreshTarget | apply Tame.ite
    | split | dsimp only

theorem Tame.writeWinCfg {s t : State} (n : Nat) (v : Word) (h : Tame s t) :
    Tame s (Machine.writeWinCfg n v t) := by
  unfold Machine.writeWinCfg
  repeat'
    first
    | with_reducible
        first
        | assumption | apply Tame.setFlag | apply Tame.cfgErr | apply Tame.setFld | apply Tame.winReset
        | apply Tame.winTarget | apply Tame.ite
    | split
    | (intro _ _ _) | (intro _ _) | dsimp only

theorem Tame.writeWinLimit {s t : State} (n : Nat) (o : Nat) (v : Word) (h : Tame s t) :
    Tame s (Machine.writeWinLimit n o v t) := by
  unfold Machine.writeWinLimit
  repeat'
    first
    | with_reducible
        first
        | assumption | apply Tame.setReg | apply Tame.cfgErr | apply Tame.ite
    | dsimp only

theorem Tame.xchkResult {s t : State} (n : Nat) (v : Int) (h : Tame s t) :
    Tame s (Machine.xchkResult n v t) := by
  unfold Machine.xchkResult
  repeat'
    first
    | with_reducible
        first
        | assumption | apply Tame.setGr | apply Tame.setFld | apply Tame.ite
    | split
    | ((with_reducible apply Tame.mk'); (all_goals (first | with_reducible exact fun hh => hh | exact fun hh => hh | exact fun hh => swf_sset _ _ _ _ hh | exact fun hh => swf_filter _ _ _ hh | (intro hh; simpa only [List.length_map] using hh) | exact fun hh => Nat.le_trans (List.length_filter_le _ _) hh | exact fun _ => rfl | skip)))
    | (intro _ _ _) | (intro _ _) | dsimp only

theorem Tame.periodEnd {s t : State} (n : Nat) (h : Tame s t) :
    Tame s (Machine.periodEnd n t) := by
  unfold Machine.periodEnd
  repeat'
    first
    | with_reducible
        first
        | assumption | apply Tame.setGr | apply Tame.setCh | apply Tame.ite
    | split
    | ((with_reducible apply Tame.mk'); (all_goals (first | with_reducible exact fun hh => hh | exact fun hh => hh | exact fun hh => swf_sset _ _ _ _ hh | exact fun hh => swf_filter _ _ _ hh | (intro hh; simpa only [List.length_map] using hh) | exact fun hh => Nat.le_trans (List.length_filter_le _ _) hh | exact fun _ => rfl | skip)))
    | (intro _ _ _) | (intro _ _) | dsimp only

theorem Tame.calSpare {s t : State} (g : Nat) (zero : Int) (ref : Int) (h : Tame s t) :
    Tame s (Machine.calSpare g zero ref t) := by
  unfold Machine.calSpare
  repeat'
    first
    | with_reducible
        first
        | assumption | apply Tame.setGr | apply Tame.ite
    | split | ((with_reducible apply Tame.mk'); (all_goals (first | exact fun hh => hh | skip))) | dsimp only

theorem Tame.mismatch {s t : State} (g : Nat) (h : Tame s t) : Tame s (Machine.mismatch g t) := by
  unfold Machine.mismatch
  repeat'
    first
    | with_reducible
        first
        | assumption | apply Tame.setFlag | apply Tame.setFld | apply Tame.emit | apply Tame.setGr | apply Tame.ite
    | split | ((with_reducible apply Tame.mk'); (all_goals (first | exact fun hh => hh | skip))) | dsimp only

theorem Tame.swapSpare {s t : State} (g : Nat) (n : Nat) (h : Tame s t) : Tame s (Machine.swapSpare g n t) := by
  unfold Machine.swapSpare
  repeat'
    first
    | with_reducible
        first
        | assumption | apply Tame.setFld | apply Tame.ite
    | dsimp only

theorem Tame.comparePair {s t : State} (n : Nat) (raw : Int) (spare : Int) (h : Tame s t) :
    Tame s (Machine.comparePair n raw spare t) := by
  unfold Machine.comparePair
  repeat'
    first
    | with_reducible
        first
        | assumption | apply Tame.setGr | apply Tame.mismatch | apply Tame.ite
    | split | ((with_reducible apply Tame.mk'); (all_goals (first | exact fun hh => hh | skip))) | dsimp only

theorem Tame.ageUp {s t : State} (n : Nat) (h : Tame s t) : Tame s (Machine.ageUp n t) := by
  unfold Machine.ageUp
  repeat'
    first
    | with_reducible
        first
        | assumption | apply Tame.setFld | apply Tame.ite
    | dsimp only

theorem Tame.rtdToggle {s t : State} (n : Nat) (b : Nat) (h : Tame s t) : Tame s (Machine.rtdToggle n b t) := by
  unfold Machine.rtdToggle
  repeat'
    first
    | with_reducible
        first
        | assumption | apply Tame.setFlag | apply Tame.chEvent | apply Tame.ite
    | split | dsimp only

theorem Tame.rtdPeriod {s t : State} (n : Nat) (high : Bool) (v : Option Int) (h : Tame s t) :
    Tame s (Machine.rtdPeriod n high v t) := by
  unfold Machine.rtdPeriod
  repeat'
    first
    | with_reducible
        first
        | assumption | apply Tame.setCh | apply Tame.rtdToggle | apply Tame.ite
    | split
    | ((with_reducible apply Tame.mk'); (all_goals (first | with_reducible exact fun hh => hh | exact fun hh => hh | exact fun hh => swf_sset _ _ _ _ hh | exact fun hh => swf_filter _ _ _ hh | (intro hh; simpa only [List.length_map] using hh) | exact fun hh => Nat.le_trans (List.length_filter_le _ _) hh | exact fun _ => rfl | skip)))
    | (intro _ _ _) | (intro _ _) | dsimp only

theorem Tame.inputResult {s t : State} (n : Nat) (v : Int) (h : Tame s t) : Tame s (Machine.inputResult n v t) := by
  unfold Machine.inputResult
  repeat'
    first
    | with_reducible
        first
        | assumption | apply Tame.slotValid | apply Tame.draw | apply Tame.setReg | apply Tame.setPair
        | apply Tame.setFlag | apply Tame.xchkResult | apply Tame.winResult | apply Tame.rangeResult | apply Tame.ite
    | dsimp only

theorem Tame.outputResult {s t : State} (n : Nat) (v : Int) (h : Tame s t) : Tame s (Machine.outputResult n v t) := by
  unfold Machine.outputResult
  repeat'
    first
    | with_reducible
        first
        | assumption | apply Tame.slotValid | apply Tame.setReg | apply Tame.setFlag | apply Tame.ite
    | dsimp only

theorem Tame.boundary {s t : State} (n : Nat) (x : Int) (h : Tame s t) :
    Tame s (Machine.boundary n x t) := by
  unfold Machine.boundary
  repeat'
    first
    | with_reducible
        first
        | assumption | apply Tame.setCh | apply Tame.ite
    | split
    | ((with_reducible apply Tame.mk'); (all_goals (first | with_reducible exact fun hh => hh | exact fun hh => hh | exact fun hh => swf_sset _ _ _ _ hh | exact fun hh => swf_filter _ _ _ hh | (intro hh; simpa only [List.length_map] using hh) | exact fun hh => Nat.le_trans (List.length_filter_le _ _) hh | exact fun _ => rfl | skip)))
    | (intro _ _ _) | (intro _ _) | dsimp only

theorem Tame.spareOut {s t : State} (n : Nat) (x : Int) (h : Tame s t) : Tame s (Machine.spareOut n x t).2 := h.setGr ..

theorem Tame.convResult {s t : State} (n : Nat) (m : Measure) (h : Tame s t) :
    Tame s (Machine.convResult n m t) := by
  unfold Machine.convResult
  repeat'
    first
    | with_reducible
        first
        | assumption | apply Tame.item | apply Tame.boundary | apply Tame.rtdPeriod | apply Tame.setReg
        | apply Tame.rangeIdle | apply Tame.ageUp | apply Tame.inputResult | apply Tame.outputResult | apply Tame.periodEnd
        | apply Tame.spareOut | apply Tame.comparePair | apply Tame.ite
    | split
    | (intro _ _ _) | (intro _ _) | dsimp only

theorem Tame.requestSync {s t : State} (mask : Nat) (h : Tame s t) :
    Tame s (Machine.requestSync mask t) := by
  unfold Machine.requestSync
  repeat'
    first
    | with_reducible
        first
        | assumption | apply Tame.ite
    | split
    | ((with_reducible apply Tame.mk'); (all_goals (first | with_reducible exact fun hh => hh | exact fun hh => hh | exact fun hh => swf_sset _ _ _ _ hh | exact fun hh => swf_filter _ _ _ hh | (intro hh; simpa only [List.length_map] using hh) | exact fun hh => Nat.le_trans (List.length_filter_le _ _) hh | exact fun _ => rfl | skip)))
    | (intro _ _ _) | (intro _ _) | dsimp only

theorem Tame.syncGroup {s t : State} (g : Nat) (h : Tame s t) :
    Tame s (Machine.syncGroup g t) := by
  unfold Machine.syncGroup
  repeat'
    first
    | with_reducible
        first
        | assumption | apply Tame.setGr | apply Tame.forAll | apply Tame.filterStart | apply Tame.rotResume
        | apply Tame.forAll | apply Tame.ite
    | split
    | ((with_reducible apply Tame.mk'); (all_goals (first | with_reducible exact fun hh => hh | exact fun hh => hh | exact fun hh => swf_sset _ _ _ _ hh | exact fun hh => swf_filter _ _ _ hh | (intro hh; simpa only [List.length_map] using hh) | exact fun hh => Nat.le_trans (List.length_filter_le _ _) hh | exact fun _ => rfl | skip)))
    | (intro _ _ _) | (intro _ _) | dsimp only

theorem Tame.rotStart {s t : State} (g : Nat) (h : Tame s t) : Tame s (Machine.rotStart g t) := by
  unfold Machine.rotStart
  repeat'
    first
    | with_reducible
        first
        | assumption | apply Tame.setFld | apply Tame.ite
    | split | dsimp only

theorem Tame.modFail {s t : State} (g : Nat) (m : Nat) (h : Tame s t) : Tame s (Machine.modFail g m t) := by
  unfold Machine.modFail
  repeat'
    first
    | with_reducible
        first
        | assumption | apply Tame.setFlag | apply Tame.emit | apply Tame.setFld | apply Tame.fenceUnit
        | apply Tame.filterStart | apply Tame.ite
    | split | dsimp only

theorem Tame.scanPrimary {s t : State} (n : Nat) (c : BitVec 14) (h : Tame s t) :
    Tame s (Machine.scanPrimary n c t) := by
  unfold Machine.scanPrimary
  repeat'
    first
    | with_reducible
        first
        | assumption | apply Tame.setCh | apply Tame.slotValid | apply Tame.setFld | apply Tame.setReg | apply Tame.ite
    | split
    | ((with_reducible apply Tame.mk'); (all_goals (first | with_reducible exact fun hh => hh | exact fun hh => hh | exact fun hh => swf_sset _ _ _ _ hh | exact fun hh => swf_filter _ _ _ hh | (intro hh; simpa only [List.length_map] using hh) | exact fun hh => Nat.le_trans (List.length_filter_le _ _) hh | exact fun _ => rfl | skip)))
    | (intro _ _ _) | (intro _ _) | dsimp only

theorem Tame.scanSecondary {s t : State} (n : Nat) (c : BitVec 14) (h : Tame s t) :
    Tame s (Machine.scanSecondary n c t) := by
  unfold Machine.scanSecondary
  repeat'
    first
    | with_reducible
        first
        | assumption | apply Tame.setCh | apply Tame.setReg | apply Tame.ite
    | split
    | ((with_reducible apply Tame.mk'); (all_goals (first | with_reducible exact fun hh => hh | exact fun hh => hh | exact fun hh => swf_sset _ _ _ _ hh | exact fun hh => swf_filter _ _ _ hh | (intro hh; simpa only [List.length_map] using hh) | exact fun hh => Nat.le_trans (List.length_filter_le _ _) hh | exact fun _ => rfl | skip)))
    | (intro _ _ _) | (intro _ _) | dsimp only

theorem Tame.scanCheck {s t : State} (g : Nat) (zero : Bool) (c : BitVec 14) (h : Tame s t) :
    Tame s (Machine.scanCheck g zero c t) := by
  unfold Machine.scanCheck
  repeat'
    first
    | with_reducible
        first
        | assumption | apply Tame.setGr | apply Tame.fenceUnit | apply Tame.ite
    | split | ((with_reducible apply Tame.mk'); (all_goals (first | exact fun hh => hh | skip))) | dsimp only

theorem Tame.scanItem {s t : State} (g : Nat) (e : Nat) (code : BitVec 16) (h : Tame s t) :
    Tame s (Machine.scanItem g e code t) := by
  unfold Machine.scanItem
  repeat'
    first
    | with_reducible
        first
        | assumption | apply Tame.setGr | apply Tame.setReg | apply Tame.scanPrimary | apply Tame.scanSecondary
        | apply Tame.setFld | apply Tame.scanCheck | apply Tame.ite
    | split
    | ((with_reducible apply Tame.mk'); (all_goals (first | with_reducible exact fun hh => hh | exact fun hh => hh | exact fun hh => swf_sset _ _ _ _ hh | exact fun hh => swf_filter _ _ _ hh | (intro hh; simpa only [List.length_map] using hh) | exact fun hh => Nat.le_trans (List.length_filter_le _ _) hh | exact fun _ => rfl | skip)))
    | (intro _ _ _) | (intro _ _) | dsimp only

theorem Tame.writeConvCfg {s t : State} (n : Nat) (v : Word) (h : Tame s t) : Tame s (Machine.writeConvCfg n v t) := by
  unfold Machine.writeConvCfg
  repeat'
    first
    | with_reducible
        first
        | assumption | apply Tame.setReg | apply Tame.cfgErr | apply Tame.rotResume | apply Tame.filterStart
        | apply Tame.ite
    | split | dsimp only

theorem Tame.writeRotCfg {s t : State} (g : Nat) (v : Word) (h : Tame s t) :
    Tame s (Machine.writeRotCfg g v t) := by
  unfold Machine.writeRotCfg
  repeat'
    first
    | with_reducible
        first
        | assumption | apply Tame.grpCfgErr | apply Tame.setReg | apply Tame.rotStart | apply Tame.setFld | apply Tame.ite
    | split
    | (intro _ _ _) | (intro _ _) | dsimp only

theorem Tame.writeXchkCfg {s t : State} (g : Nat) (v : Word) (h : Tame s t) :
    Tame s (Machine.writeXchkCfg g v t) := by
  unfold Machine.writeXchkCfg
  repeat'
    first
    | with_reducible
        first
        | assumption | apply Tame.grpCfgErr | apply Tame.setReg | apply Tame.setGr | apply Tame.ite
    | split
    | ((with_reducible apply Tame.mk'); (all_goals (first | with_reducible exact fun hh => hh | exact fun hh => hh | exact fun hh => swf_sset _ _ _ _ hh | exact fun hh => swf_filter _ _ _ hh | (intro hh; simpa only [List.length_map] using hh) | exact fun hh => Nat.le_trans (List.length_filter_le _ _) hh | exact fun _ => rfl | skip)))
    | (intro _ _ _) | (intro _ _) | dsimp only

theorem Tame.writeSync {s t : State} (g : Nat) (v : Word) (h : Tame s t) :
    Tame s (Machine.writeSync g v t) := by
  unfold Machine.writeSync
  repeat'
    first
    | with_reducible
        first
        | assumption | apply Tame.grpCfgErr | apply Tame.setReg | apply Tame.ite
    | split
    | (intro _ _ _) | (intro _ _) | dsimp only

theorem Tame.release {s t : State} (o : SafeObj) (h : Tame s t) : Tame s (Machine.release o t).2 := by
  unfold Machine.release
  repeat'
    first
    | with_reducible
        first
        | assumption | apply Tame.withGates | apply Tame.setReg | apply Tame.leaveSafe | apply Tame.emit
        | apply Tame.ite | apply Tame.forAll | apply Tame.foldl
    | split | (intro _ _ _) | (intro _ _) | dsimp only

theorem Tame.autoRelease {s t : State} (n : Nat) (h : Tame s t) : Tame s (Machine.autoRelease n t) := by
  unfold Machine.autoRelease
  repeat'
    first
    | with_reducible
        first
        | assumption | apply Tame.dropCh | apply Tame.emit | apply Tame.ite
    | split | dsimp only

theorem Tame.setAutorel {s t : State} (l : List Nat) (on : Bool) (h : Tame s t) :
    Tame s (Machine.setAutorel l on t) := by
  unfold Machine.setAutorel
  repeat'
    first
    | with_reducible
        first
        | assumption | apply Tame.autoRelease | apply Tame.setFlag | apply Tame.ite | apply Tame.forAll
    | (intro _ _ _) | (intro _ _) | dsimp only

theorem Tame.startSlew {s t : State} (ticks : Int) (h : Tame s t) : Tame s (Machine.startSlew ticks t) := by
  unfold Machine.startSlew
  repeat'
    first
    | with_reducible
        first
        | assumption | apply Tame.ite
    | ((with_reducible apply Tame.mk'); (all_goals (first | exact fun hh => hh | skip))) | dsimp only

theorem Tame.finishSlew {s t : State} (h : Tame s t) : Tame s (Machine.finishSlew t) := by
  unfold Machine.finishSlew
  repeat'
    first
    | with_reducible
        first
        | assumption | apply Tame.emit | apply Tame.ite
    | ((with_reducible apply Tame.mk'); (all_goals (first | exact fun hh => hh | skip))) | dsimp only

theorem Tame.cvuCount {s t : State} (u : Nat) (ok : Bool) (h : Tame s t) : Tame s (Machine.cvuCount u ok t) := by
  unfold Machine.cvuCount
  repeat'
    first
    | with_reducible
        first
        | assumption | apply Tame.count | apply Tame.ite
    | split | dsimp only

theorem Tame.ringPut {s t : State} (c : Nat) (f : Frame) (h : Tame s t) :
    Tame s (Machine.ringPut c f t) := by
  unfold Machine.ringPut
  repeat'
    first
    | with_reducible
        first
        | assumption | apply Tame.setRg | apply Tame.ite
    | split
    | ((with_reducible apply Tame.mk'); (all_goals (first | with_reducible exact fun hh => hh | exact fun hh => hh | exact fun hh => swf_sset _ _ _ _ hh | exact fun hh => swf_filter _ _ _ hh | (intro hh; simpa only [List.length_map] using hh) | exact fun hh => Nat.le_trans (List.length_filter_le _ _) hh | exact fun _ => rfl | skip)))
    | (intro _ _ _) | (intro _ _) | dsimp only

theorem Tame.ringSend {s t : State} (c : Nat) (f : TxFrame) (h : Tame s t) :
    Tame s (Machine.ringSend c f t) := by
  unfold Machine.ringSend
  repeat'
    first
    | with_reducible
        first
        | assumption | apply Tame.ringPut | apply Tame.ite
    | split
    | (intro _ _ _) | (intro _ _) | dsimp only

theorem Tame.passOn {s t : State} (c : Nat) (f : Frame) (h : Tame s t) :
    Tame s (Machine.passOn c f t) := by
  unfold Machine.passOn
  repeat'
    first
    | with_reducible
        first
        | assumption | apply Tame.ringPut | apply Tame.ite
    | split
    | ((with_reducible apply Tame.mk'); (all_goals (first | with_reducible exact fun hh => hh | exact fun hh => hh | exact fun hh => swf_sset _ _ _ _ hh | exact fun hh => swf_filter _ _ _ hh | (intro hh; simpa only [List.length_map] using hh) | exact fun hh => Nat.le_trans (List.length_filter_le _ _) hh | exact fun _ => rfl | skip)))
    | (intro _ _ _) | (intro _ _) | dsimp only

theorem Tame.bumpPort {s t : State} (c : Nat) (p : Nat) (o : Nat) (lo : Nat) (h : Tame s t) :
    Tame s (Machine.bumpPort c p o lo t) := by
  unfold Machine.bumpPort
  repeat'
    first
    | with_reducible
        first
        | assumption | apply Tame.setFld | apply Tame.setRg | apply Tame.ite
    | (with_reducible apply Tame.setPort); (all_goals (first | with_reducible assumption | skip)); (all_goals (first | with_reducible exact fun hh => hh | exact fun hh => hh | exact fun hh => swf_sset _ _ _ _ hh | exact fun hh => swf_filter _ _ _ hh | (intro hh; simpa only [List.length_map] using hh) | exact fun hh => Nat.le_trans (List.length_filter_le _ _) hh | exact fun _ => rfl | skip))
    | ((with_reducible apply Tame.mk'); (all_goals (first | exact fun hh => hh | skip))) | dsimp only

theorem Tame.portRound {s t : State} (c : Nat) (p : Nat) (noise : Option Nat) (h : Tame s t) :
    Tame s (Machine.portRound c p noise t) := by
  unfold Machine.portRound
  repeat'
    first
    | with_reducible
        first
        | assumption | apply Tame.bumpPort | apply Tame.setReg | apply Tame.setRg | apply Tame.setFlag
        | apply Tame.emit | apply Tame.ite
    | (with_reducible apply Tame.setPort); (all_goals (first | with_reducible assumption | skip)); (all_goals (first | with_reducible exact fun hh => hh | exact fun hh => hh | exact fun hh => swf_sset _ _ _ _ hh | exact fun hh => swf_filter _ _ _ hh | (intro hh; simpa only [List.length_map] using hh) | exact fun hh => Nat.le_trans (List.length_filter_le _ _) hh | exact fun _ => rfl | skip))
    | split | dsimp only

theorem Tame.roundEnd {s t : State} (c : Nat) (e : RoundEnd) (h : Tame s t) : Tame s (Machine.roundEnd c e t) := by
  unfold Machine.roundEnd
  repeat'
    first
    | with_reducible
        first
        | assumption | apply Tame.portRound | apply Tame.ite
    | split | dsimp only

theorem Tame.nameEntries {s t : State} (c : Nat) (h : Tame s t) : Tame s (Machine.nameEntries c t) := by
  unfold Machine.nameEntries
  repeat'
    first
    | with_reducible
        first
        | assumption | apply Tame.setFld | apply Tame.ite | apply Tame.foldl
    | (intro _ _ _) | (intro _ _) | dsimp only

theorem Tame.leaveRun {s t : State} (c : Nat) (h : Tame s t) : Tame s (Machine.leaveRun c t) := by
  unfold Machine.leaveRun
  repeat'
    first
    | with_reducible
        first
        | assumption | apply Tame.setRg | apply Tame.ite
    | ((with_reducible apply Tame.mk'); (all_goals (first | exact fun hh => hh | skip))) | (intro _ _ _) | (intro _ _)
    | dsimp only

theorem Tame.ringTo {s t : State} (c : Nat) (st : Nat) (h : Tame s t) : Tame s (Machine.ringTo c st t) := by
  unfold Machine.ringTo
  repeat'
    first
    | with_reducible
        first
        | assumption | apply Tame.leaveRun | apply Tame.setFld | apply Tame.ite
    | split | dsimp only

theorem Tame.ringStopped {s t : State} (c : Nat) (h : Tame s t) :
    Tame s (Machine.ringStopped c t) := by
  unfold Machine.ringStopped
  repeat'
    first
    | with_reducible
        first
        | assumption | apply Tame.ringTo | apply Tame.setRg | apply Tame.setFlag | apply Tame.setFld | apply Tame.endDisc
        | apply Tame.ite
    | split
    | ((with_reducible apply Tame.mk'); (all_goals (first | with_reducible exact fun hh => hh | exact fun hh => hh | exact fun hh => swf_sset _ _ _ _ hh | exact fun hh => swf_filter _ _ _ hh | (intro hh; simpa only [List.length_map] using hh) | exact fun hh => Nat.le_trans (List.length_filter_le _ _) hh | exact fun _ => rfl | skip)))
    | (intro _ _ _) | (intro _ _) | dsimp only

theorem Tame.ringListen {s t : State} (c : Nat) (h : Tame s t) : Tame s (Machine.ringListen c t) := by
  unfold Machine.ringListen
  repeat'
    first
    | with_reducible
        first
        | assumption | apply Tame.nameEntries | apply Tame.ringTo | apply Tame.setReg | apply Tame.setRg
        | apply Tame.ite
    | ((with_reducible apply Tame.mk'); (all_goals (first | exact fun hh => hh | skip))) | dsimp only

theorem Tame.ringGo {s t : State} (c : Nat) (h : Tame s t) : Tame s (Machine.ringGo c t) := by
  unfold Machine.ringGo
  repeat'
    first
    | with_reducible
        first
        | assumption | apply Tame.ringListen | apply Tame.setReg | apply Tame.setFlag | apply Tame.ite
    | split | dsimp only

theorem Tame.enterRun {s t : State} (c : Nat) (h : Tame s t) :
    Tame s (Machine.enterRun c t) := by
  unfold Machine.enterRun
  repeat'
    first
    | with_reducible
        first
        | assumption | apply Tame.ringTo | apply Tame.setRg | apply Tame.setFld | apply Tame.forAll | apply Tame.autoRelease
        | apply Tame.setCh | apply Tame.forAll | apply Tame.foldl | apply Tame.ite
    | split
    | ((with_reducible apply Tame.mk'); (all_goals (first | with_reducible exact fun hh => hh | exact fun hh => hh | exact fun hh => swf_sset _ _ _ _ hh | exact fun hh => swf_filter _ _ _ hh | (intro hh; simpa only [List.length_map] using hh) | exact fun hh => Nat.le_trans (List.length_filter_le _ _) hh | exact fun _ => rfl | skip)))
    | (intro _ _ _) | (intro _ _) | dsimp only

theorem Tame.joinRun {s t : State} (c : Nat) (h : Tame s t) : Tame s (Machine.joinRun c t) := by
  unfold Machine.joinRun
  repeat'
    first
    | with_reducible
        first
        | assumption | apply Tame.enterRun | apply Tame.emit | apply Tame.ite
    | dsimp only

theorem Tame.fixPos {s t : State} (c : Nat) (p : Nat) (h : Tame s t) : Tame s (Machine.fixPos c p t) := by
  unfold Machine.fixPos
  repeat'
    first
    | with_reducible
        first
        | assumption | apply Tame.setRg | apply Tame.setFlag | apply Tame.ite
    | ((with_reducible apply Tame.mk'); (all_goals (first | exact fun hh => hh | skip))) | dsimp only

theorem Tame.judgeAge {s t : State} (n : Nat) (h : Tame s t) : Tame s (Machine.judgeAge n t) := by
  unfold Machine.judgeAge
  repeat'
    first
    | with_reducible
        first
        | assumption | apply Tame.holdCh | apply Tame.chEvent | apply Tame.holdFence | apply Tame.setCh
        | apply Tame.ite
    | split | ((with_reducible apply Tame.mk'); (all_goals (first | exact fun hh => hh | skip))) | dsimp only

theorem Tame.setLage {s t : State} (c : Nat) (r : Nat) (v : Nat) (h : Tame s t) : Tame s (Machine.setLage c r v t) := by
  unfold Machine.setLage
  repeat'
    first
    | with_reducible
        first
        | assumption | apply Tame.setFld | apply Tame.ite
    | dsimp only

theorem Tame.keepAge {s t : State} (c : Nat) (n : Nat) (h : Tame s t) :
    Tame s (Machine.keepAge c n t) := by
  unfold Machine.keepAge
  repeat'
    first
    | with_reducible
        first
        | assumption | apply Tame.forAll | apply Tame.setCh | apply Tame.forAll | apply Tame.ite
    | split
    | ((with_reducible apply Tame.mk'); (all_goals (first | with_reducible exact fun hh => hh | exact fun hh => hh | exact fun hh => swf_sset _ _ _ _ hh | exact fun hh => swf_filter _ _ _ hh | (intro hh; simpa only [List.length_map] using hh) | exact fun hh => Nat.le_trans (List.length_filter_le _ _) hh | exact fun _ => rfl | skip)))
    | (intro _ _ _) | (intro _ _) | dsimp only

theorem Tame.ageSlot {s t : State} (c : Nat) (k : Nat) (n : Nat) (h : Tame s t) :
    Tame s (Machine.ageSlot c k n t) := by
  unfold Machine.ageSlot
  repeat'
    first
    | with_reducible
        first
        | assumption | apply Tame.keepAge | apply Tame.setLage | apply Tame.forAll | apply Tame.judgeAge | apply Tame.forAll
        | apply Tame.ite
    | split
    | (intro _ _ _) | (intro _ _) | dsimp only

theorem Tame.ageBad {s t : State} (c : Nat) (k : Nat) (h : Tame s t) : Tame s (Machine.ageBad c k t) := by
  unfold Machine.ageBad
  repeat'
    first
    | with_reducible
        first
        | assumption | apply Tame.judgeAge | apply Tame.setCh | apply Tame.ite | apply Tame.forAll
    | ((with_reducible apply Tame.mk'); (all_goals (first | exact fun hh => hh | skip))) | (intro _ _ _) | (intro _ _)
    | dsimp only

theorem Tame.ageAll {s t : State} (c : Nat) (k : Nat) (h : Tame s t) : Tame s (Machine.ageAll c k t) := by
  unfold Machine.ageAll
  repeat'
    first
    | with_reducible
        first
        | assumption | apply Tame.ageBad | apply Tame.ageSlot | apply Tame.ite | apply Tame.forAll
    | (intro _ _ _) | (intro _ _) | dsimp only

theorem Tame.bindWrite {s t : State} (n : Nat) (v : Word) (h : Tame s t) : Tame s (Machine.bindWrite n v t) := by
  unfold Machine.bindWrite
  repeat'
    first
    | with_reducible
        first
        | assumption | apply Tame.cfgErr | apply Tame.setOut | apply Tame.autoRelease | apply Tame.clearCause
        | apply Tame.judgeAge | apply Tame.ite
    | split | dsimp only

theorem Tame.storeEntry {s t : State} (c : Nat) (n : Nat) (f : Frame) (h : Tame s t) :
    Tame s (Machine.storeEntry c n f t) := by
  unfold Machine.storeEntry
  repeat'
    first
    | with_reducible
        first
        | assumption | apply Tame.setReg | apply Tame.setLage | apply Tame.ite | apply Tame.foldl
    | (intro _ _ _) | (intro _ _) | dsimp only

theorem Tame.deliver {s t : State} (c : Nat) (n : Nat) (f : Frame) (h : Tame s t) :
    Tame s (Machine.deliver c n f t) := by
  unfold Machine.deliver
  repeat'
    first
    | with_reducible
        first
        | assumption | apply Tame.keepAge | apply Tame.storeEntry | apply Tame.forAll | apply Tame.bindWrite
        | apply Tame.forAll | apply Tame.ite
    | split
    | (intro _ _ _) | (intro _ _) | dsimp only

theorem Tame.startDisc {s t : State} (c : Nat) (h : Tame s t) :
    Tame s (Machine.startDisc c t) := by
  unfold Machine.startDisc
  repeat'
    first
    | with_reducible
        first
        | assumption | apply Tame.emit | apply Tame.endSlew | apply Tame.ite
    | split
    | ((with_reducible apply Tame.mk'); (all_goals (first | with_reducible exact fun hh => hh | exact fun hh => hh | exact fun hh => swf_sset _ _ _ _ hh | exact fun hh => swf_filter _ _ _ hh | (intro hh; simpa only [List.length_map] using hh) | exact fun hh => Nat.le_trans (List.length_filter_le _ _) hh | exact fun _ => rfl | skip)))
    | (intro _ _ _) | (intro _ _) | dsimp only

theorem Tame.discipline {s t : State} (c : Nat) (v : BitVec 64) (h : Tame s t) :
    Tame s (Machine.discipline c v t) := by
  unfold Machine.discipline
  repeat'
    first
    | with_reducible
        first
        | assumption | apply Tame.startDisc | apply Tame.stepTime | apply Tame.setRg | apply Tame.ite
    | split
    | ((with_reducible apply Tame.mk'); (all_goals (first | with_reducible exact fun hh => hh | exact fun hh => hh | exact fun hh => swf_sset _ _ _ _ hh | exact fun hh => swf_filter _ _ _ hh | (intro hh; simpa only [List.length_map] using hh) | exact fun hh => Nat.le_trans (List.length_filter_le _ _) hh | exact fun _ => rfl | skip)))
    | (intro _ _ _) | (intro _ _) | dsimp only

theorem Tame.takeRound {s t : State} (c : Nat) (f : Frame) (h : Tame s t) :
    Tame s (Machine.takeRound c f t) := by
  unfold Machine.takeRound
  repeat'
    first
    | with_reducible
        first
        | assumption | apply Tame.emit | apply Tame.setFlag | apply Tame.setRg | apply Tame.setReg | apply Tame.storeEntry
        | apply Tame.discipline | apply Tame.ite
    | split
    | ((with_reducible apply Tame.mk'); (all_goals (first | with_reducible exact fun hh => hh | exact fun hh => hh | exact fun hh => swf_sset _ _ _ _ hh | exact fun hh => swf_filter _ _ _ hh | (intro hh; simpa only [List.length_map] using hh) | exact fun hh => Nat.le_trans (List.length_filter_le _ _) hh | exact fun _ => rfl | skip)))
    | (intro _ _ _) | (intro _ _) | dsimp only

theorem Tame.remoteResponse {s t : State} (e : Ep) (x : Outst) (src : Node) (text : List Byte) (dup : Bool) (h : Tame s t) :
    Tame s (Machine.remoteResponse e x src text dup t) := by
  unfold Machine.remoteResponse
  repeat'
    first
    | with_reducible
        first
        | assumption | apply Tame.send | apply Tame.sendEvents | apply Tame.ite
    | (with_reducible apply Tame.setPort); (all_goals (first | with_reducible assumption | skip)); (all_goals (first | with_reducible exact fun hh => hh | exact fun hh => hh | exact fun hh => swf_sset _ _ _ _ hh | exact fun hh => swf_filter _ _ _ hh | (intro hh; simpa only [List.length_map] using hh) | exact fun hh => Nat.le_trans (List.length_filter_le _ _) hh | exact fun _ => rfl | skip))
    | split
    | ((with_reducible apply Tame.mk'); (all_goals (first | with_reducible exact fun hh => hh | exact fun hh => hh | exact fun hh => swf_sset _ _ _ _ hh | exact fun hh => swf_filter _ _ _ hh | (intro hh; simpa only [List.length_map] using hh) | exact fun hh => Nat.le_trans (List.length_filter_le _ _) hh | exact fun _ => rfl | skip)))
    | (intro _ _ _) | (intro _ _) | dsimp only

theorem Tame.mailTake {s t : State} (f : MailFrag) (text : List Byte) (h : Tame s t) :
    Tame s (Machine.mailTake f text t) := by
  unfold Machine.mailTake
  repeat'
    first
    | with_reducible
        first
        | assumption | apply Tame.remoteResponse | apply Tame.ite
    | (with_reducible apply Tame.setPort); (all_goals (first | with_reducible assumption | skip)); (all_goals (first | with_reducible exact fun hh => hh | exact fun hh => hh | exact fun hh => swf_sset _ _ _ _ hh | exact fun hh => swf_filter _ _ _ hh | (intro hh; simpa only [List.length_map] using hh) | exact fun hh => Nat.le_trans (List.length_filter_le _ _) hh | exact fun _ => rfl | skip))
    | split
    | ((with_reducible apply Tame.mk'); (all_goals (first | with_reducible exact fun hh => hh | exact fun hh => hh | exact fun hh => swf_sset _ _ _ _ hh | exact fun hh => swf_filter _ _ _ hh | (intro hh; simpa only [List.length_map] using hh) | exact fun hh => Nat.le_trans (List.length_filter_le _ _) hh | exact fun _ => rfl | skip)))
    | (intro _ _ _) | (intro _ _) | dsimp only

theorem Tame.mailFrag {s t : State} (c : Nat) (f : MailFrag) (h : Tame s t) : Tame s (Machine.mailFrag c f t) := by
  unfold Machine.mailFrag
  repeat'
    first
    | with_reducible
        first
        | assumption | apply Tame.mailTake | apply Tame.setRg | apply Tame.mailDiscard | apply Tame.ite
    | split | ((with_reducible apply Tame.mk'); (all_goals (first | exact fun hh => hh | skip))) | dsimp only

theorem Tame.bridgeMail {s t : State} (c : Nat) (f : MailFrag) (h : Tame s t) : Tame s (Machine.bridgeMail c f t) := by
  unfold Machine.bridgeMail
  repeat'
    first
    | with_reducible
        first
        | assumption | apply Tame.mailForward | apply Tame.ite
    | split | dsimp only

theorem Tame.setRfOp {s t : State} (b : Nat) (o : Option RfOp) (h : Tame s t) : Tame s (Machine.setRfOp b o t) := by
  unfold Machine.setRfOp
  repeat'
    first
    | with_reducible
        first
        | assumption | apply Tame.ite
    | ((with_reducible apply Tame.mk'); (all_goals (first | exact fun hh => hh | skip))) | dsimp only

theorem Tame.tableDue {s t : State} (h : Tame s t) : Tame s (Machine.tableDue t) := by
  unfold Machine.tableDue
  repeat'
    first
    | with_reducible
        first
        | assumption | apply Tame.setFlag | apply Tame.ite
    | split | ((with_reducible apply Tame.mk'); (all_goals (first | exact fun hh => hh | skip))) | dsimp only

theorem Tame.markBad {s t : State} (n : Nat) (why : String) (h : Tame s t) : Tame s (Machine.markBad n why t) := by
  unfold Machine.markBad
  repeat'
    first
    | with_reducible
        first
        | assumption | apply Tame.tableDue | apply Tame.emit | apply Tame.ite
    | split | ((with_reducible apply Tame.mk'); (all_goals (first | exact fun hh => hh | skip))) | dsimp only

theorem Tame.setCounter {s t : State} (n : Nat) (c : Nat) (h : Tame s t) : Tame s (Machine.setCounter n c t) := by
  unfold Machine.setCounter
  repeat'
    first
    | with_reducible
        first
        | assumption | apply Tame.emit | apply Tame.ite
    | split | ((with_reducible apply Tame.mk'); (all_goals (first | exact fun hh => hh | skip))) | dsimp only

theorem Tame.pendErase {s t : State} (h : Tame s t) : Tame s (Machine.pendErase t) := by
  unfold Machine.pendErase
  repeat'
    first
    | with_reducible
        first
        | assumption | apply Tame.setFld | apply Tame.tableDue | apply Tame.ite
    | split | dsimp only

theorem Tame.countErase {s t : State} (n : Nat) (h : Tame s t) : Tame s (Machine.countErase n t) := by
  unfold Machine.countErase
  repeat'
    first
    | with_reducible
        first
        | assumption | apply Tame.pendErase | apply Tame.setCounter | apply Tame.ite
    | split | dsimp only

theorem Tame.startTable {s t : State} (blk : Nat) (p : Nat) (h : Tame s t) : Tame s (Machine.startTable blk p t) := by
  unfold Machine.startTable
  repeat'
    first
    | with_reducible
        first
        | assumption | apply Tame.setRfOp | apply Tame.setFld | apply Tame.setFlag | apply Tame.ite
    | ((with_reducible apply Tame.mk'); (all_goals (first | exact fun hh => hh | skip))) | dsimp only

theorem Tame.writeTable {s t : State} (h : Tame s t) : Tame s (Machine.writeTable t) := by
  unfold Machine.writeTable
  repeat'
    first
    | with_reducible
        first
        | assumption | apply Tame.setRfOp | apply Tame.startTable | apply Tame.fenceUnit | apply Tame.ite
    | split | dsimp only

theorem Tame.rfPrograms {s t : State} (b : Nat) (blk : Nat) (p : Nat) (img : Page) (h : Tame s t) :
    Tame s (Machine.rfPrograms b blk p img t) := by
  unfold Machine.rfPrograms
  repeat'
    first
    | with_reducible
        first
        | assumption | apply Tame.setRfPage | apply Tame.ite | apply Tame.foldl
    | split | ((with_reducible apply Tame.mk'); (all_goals (first | exact fun hh => hh | skip))) | (intro _ _ _)
    | (intro _ _) | dsimp only

theorem Tame.rfErased {s t : State} (b : Nat) (blk : Nat) (h : Tame s t) : Tame s (Machine.rfErased b blk t) := by
  unfold Machine.rfErased
  repeat'
    first
    | with_reducible
        first
        | assumption | apply Tame.ite
    | split
    | ((with_reducible apply Tame.mk'); (all_goals (first | with_reducible exact fun hh => hh | exact fun hh => hh | exact fun hh => swf_sset _ _ _ _ hh | exact fun hh => swf_filter _ _ _ hh | (intro hh; simpa only [List.length_map] using hh) | exact fun hh => Nat.le_trans (List.length_filter_le _ _) hh | exact fun _ => rfl | skip)))
    | (intro _ _ _) | (intro _ _) | dsimp only

theorem Tame.rfEnd {s t : State} (b : Nat) (code : Nat) (h : Tame s t) : Tame s (Machine.rfEnd b code t) := by
  unfold Machine.rfEnd
  repeat'
    first
    | with_reducible
        first
        | assumption | apply Tame.setRfOp | apply Tame.setFld | apply Tame.setFlag | apply Tame.record
        | apply Tame.ite
    | dsimp only

theorem Tame.rfReport {s t : State} (b : Nat) (blk : Nat) (p : Nat) (r : PageRead) (erased : Bool) (h : Tame s t) :
    Tame s (Machine.rfReport b blk p r erased t) := by
  unfold Machine.rfReport
  repeat'
    first
    | with_reducible
        first
        | assumption | apply Tame.setFld | apply Tame.setFlag | apply Tame.record | apply Tame.emit | apply Tame.ite
    | split | dsimp only

theorem Tame.readPage {s t : State} (b : Nat) (blk : Nat) (p : Nat) (r0 : PageRead) (h : Tame s t) :
    Tame s (Machine.readPage b blk p r0 t).2 := by
  unfold Machine.readPage
  repeat'
    first
    | with_reducible
        first
        | assumption | apply Tame.rfReport | apply Tame.ite
    | split | ((with_reducible apply Tame.mk'); (all_goals (first | exact fun hh => hh | skip))) | dsimp only

theorem Tame.blockCheck {s t : State} (key : Nat) (ok : Bool) (h : Tame s t) :
    Tame s (Machine.blockCheck key ok t) := by
  unfold Machine.blockCheck
  repeat'
    first
    | with_reducible
        first
        | assumption | apply Tame.count | apply Tame.setReg | apply Tame.emit | apply Tame.ite
    | split | dsimp only

theorem Tame.hostProgram {s t : State} (b : Nat) (blk : Nat) (p : Nat) (h : Tame s t) :
    Tame s (Machine.hostProgram b blk p t) := by
  unfold Machine.hostProgram
  repeat'
    first
    | with_reducible
        first
        | assumption | apply Tame.setRfOp | apply Tame.ite
    | dsimp only

theorem Tame.hostErase {s t : State} (b : Nat) (blk : Nat) (h : Tame s t) : Tame s (Machine.hostErase b blk t) := by
  unfold Machine.hostErase
  repeat'
    first
    | with_reducible
        first
        | assumption | apply Tame.setRfOp | apply Tame.ite
    | dsimp only

theorem Tame.writeRcmd {s t : State} (v : Word) (h : Tame s t) : Tame s (Machine.writeRcmd v t) := by
  unfold Machine.writeRcmd
  repeat'
    first
    | with_reducible
        first
        | assumption | apply Tame.readPage | apply Tame.draw | apply Tame.hostProgram | apply Tame.hostErase
        | apply Tame.ite
    | split | dsimp only

theorem Tame.writeHbuf {s t : State} (a : Nat) (v : Word) (h : Tame s t) : Tame s (Machine.writeHbuf a v t) := by
  unfold Machine.writeHbuf
  repeat'
    first
    | with_reducible
        first
        | assumption | apply Tame.ite
    | ((with_reducible apply Tame.mk'); (all_goals (first | exact fun hh => hh | skip))) | dsimp only

theorem Tame.trailEcc {s t : State} (i : Nat) (h : Tame s t) : Tame s (Machine.trailEcc i t) := by
  unfold Machine.trailEcc
  repeat'
    first
    | with_reducible
        first
        | assumption | apply Tame.count | apply Tame.setReg | apply Tame.emit | apply Tame.fenceUnit | apply Tame.ite
    | split | ((with_reducible apply Tame.mk'); (all_goals (first | exact fun hh => hh | skip))) | dsimp only

theorem Tame.trailMeet {s t : State} (l : List Nat) (h : Tame s t) : Tame s (Machine.trailMeet l t) := by
  unfold Machine.trailMeet
  repeat'
    first
    | with_reducible
        first
        | assumption | apply Tame.trailEcc | apply Tame.ite | apply Tame.foldl
    | split | (intro _ _ _) | (intro _ _) | dsimp only

theorem Tame.takeKeyframe {s t : State} (h : Tame s t) :
    Tame s (Machine.takeKeyframe t) := by
  unfold Machine.takeKeyframe
  repeat'
    first
    | with_reducible
        first
        | assumption | apply Tame.record | apply Tame.foldl | apply Tame.ite
    | split
    | ((with_reducible apply Tame.mk'); (all_goals (first | with_reducible exact fun hh => hh | exact fun hh => hh | exact fun hh => swf_sset _ _ _ _ hh | exact fun hh => swf_filter _ _ _ hh | (intro hh; simpa only [List.length_map] using hh) | exact fun hh => Nat.le_trans (List.length_filter_le _ _) hh | exact fun _ => rfl | skip)))
    | (intro _ _ _) | (intro _ _) | dsimp only

theorem Tame.endKeyframe {s t : State} (h : Tame s t) : Tame s (Machine.endKeyframe t) := by
  unfold Machine.endKeyframe
  repeat'
    first
    | with_reducible
        first
        | assumption | apply Tame.record | apply Tame.ite
    | split | ((with_reducible apply Tame.mk'); (all_goals (first | exact fun hh => hh | skip))) | dsimp only

theorem Tame.composePage {s t : State} (c : Cap) (j : Nat) (h : Tame s t) : Tame s (Machine.composePage c j t).2.2 := by
  unfold Machine.composePage
  dsimp only
  apply Tame.trailMeet
  with_reducible apply Tame.mk'
  all_goals first | assumption | exact fun hh => hh

theorem Tame.setCap {s t : State} (c : Option Cap) (h : Tame s t) : Tame s (Machine.setCap c t) := by
  unfold Machine.setCap
  repeat'
    first
    | with_reducible
        first
        | assumption | apply Tame.ite
    | ((with_reducible apply Tame.mk'); (all_goals (first | exact fun hh => hh | skip))) | dsimp only

theorem Tame.losePending {s t : State} (h : Tame s t) : Tame s (Machine.losePending t) := by
  unfold Machine.losePending
  repeat'
    first
    | with_reducible
        first
        | assumption | apply Tame.setFlag | apply Tame.trigLost | apply Tame.ite
    | split | ((with_reducible apply Tame.mk'); (all_goals (first | exact fun hh => hh | skip))) | dsimp only

theorem Tame.holdTrail {s t : State} (h : Tame s t) : Tame s (Machine.holdTrail t) := by
  unfold Machine.holdTrail
  repeat'
    first
    | with_reducible
        first
        | assumption | apply Tame.losePending | apply Tame.setFld | apply Tame.setFlag | apply Tame.ite
    | split | ((with_reducible apply Tame.mk'); (all_goals (first | exact fun hh => hh | skip))) | dsimp only

theorem Tame.eraseCap {s t : State} (id : Nat) (h : Tame s t) : Tame s (Machine.eraseCap id t) := by
  unfold Machine.eraseCap
  repeat'
    first
    | with_reducible
        first
        | assumption | apply Tame.ite
    | split | ((with_reducible apply Tame.mk'); (all_goals (first | exact fun hh => hh | skip))) | (intro _ _ _)
    | (intro _ _) | dsimp only

theorem Tame.takeBlock {s t : State} (c : Cap) (i : Nat) (b : Nat) (stripe : Nat) (h : Tame s t) :
    Tame s (Machine.takeBlock c i b stripe t) := by
  unfold Machine.takeBlock
  repeat'
    first
    | with_reducible
        first
        | assumption | apply Tame.eraseCap | apply Tame.holdTrail | apply Tame.emit | apply Tame.ite
    | split | ((with_reducible apply Tame.mk'); (all_goals (first | exact fun hh => hh | skip))) | (intro _ _ _)
    | (intro _ _) | dsimp only

theorem Tame.chrysOp {s t : State} (b : Nat) (o : RfOp) (h : Tame s t) : Tame s (Machine.chrysOp b o t) := by
  unfold Machine.chrysOp
  repeat'
    first
    | with_reducible
        first
        | assumption | apply Tame.setRfOp | apply Tame.ite
    | dsimp only

theorem Tame.chrysProgram {s t : State} (b : Nat) (x : CapBank) (img : Page) (idx : Option Nat) (h : Tame s t) :
    Tame s (Machine.chrysProgram b x img idx t) := by
  unfold Machine.chrysProgram
  repeat'
    first
    | with_reducible
        first
        | assumption | apply Tame.chrysOp | apply Tame.ite
    | split | dsimp only

theorem Tame.pumpPad {s t : State} (c : Cap) (i : Nat) (b : Nat) (h : Tame s t) : Tame s (Machine.pumpPad c i b t) := by
  unfold Machine.pumpPad
  repeat'
    first
    | with_reducible
        first
        | assumption | apply Tame.chrysProgram | apply Tame.ite
    | split | (intro _ _ _) | (intro _ _) | dsimp only

theorem Tame.pumpBank {s t : State} (i b : Nat) (h : Tame s t) : Tame s (Machine.pumpBank i b t) := by
  unfold Machine.pumpBank
  split
  · exact h
  split
  · split
    · exact h.chrysOp ..
    · exact h
  split
  · exact h
  · rename_i c _
    have write (x : CapBank) (go : CapBank → State) (n : Nat) (hg : ∀ x, Tame s (go x)) :
        Tame s (match x.block with
          | none => Machine.takeBlock c i b n t
          | some blk => if x.erased = true then go x else Machine.chrysOp b { erase := true, block := blk, owner := .chrys } t) := by
      split
      · exact h.takeBlock ..
      · exact Tame.ite (hg _) (h.chrysOp ..)
    dsimp only
    split
    · exact write _ _ _ fun x => h.chrysProgram ..
    · split
      · exact h.pumpPad ..
      split
      · exact h
      split
      · exact h.takeBlock ..
      · exact write _ _ _ fun x => ((h.composePage ..).setCap _).chrysProgram ..

theorem Tame.pump {s t : State} (h : Tame s t) : Tame s (Machine.pump t) := by
  unfold Machine.pump
  repeat'
    first
    | with_reducible
        first
        | assumption | apply Tame.holdTrail | apply Tame.pumpBank | apply Tame.ite | apply Tame.foldl
    | split | (intro _ _ _) | (intro _ _) | dsimp only

theorem Tame.closeCap {s t : State} (gap : Bool) (h : Tame s t) : Tame s (Machine.closeCap gap t) := by
  unfold Machine.closeCap
  repeat'
    first
    | with_reducible
        first
        | assumption | apply Tame.setCap | apply Tame.setFld | apply Tame.ite
    | split | ((with_reducible apply Tame.mk'); (all_goals (first | exact fun hh => hh | skip))) | (intro _ _ _)
    | (intro _ _) | dsimp only

theorem Tame.resumeRec {s t : State} (h : Tame s t) : Tame s (Machine.resumeRec t) := by
  unfold Machine.resumeRec
  repeat'
    first
    | with_reducible
        first
        | assumption | apply Tame.closeCap | apply Tame.setFlag | apply Tame.record | apply Tame.takeKeyframe
        | apply Tame.emit | apply Tame.ite
    | split | dsimp only

theorem Tame.showCopy {s t : State} (h : Tame s t) : Tame s (Machine.showCopy t) := by
  unfold Machine.showCopy
  repeat'
    first
    | with_reducible
        first
        | assumption | apply Tame.setFld | apply Tame.ite
    | split | dsimp only

theorem Tame.copyOn {s t : State} (h : Tame s t) : Tame s (Machine.copyOn t) := by
  unfold Machine.copyOn
  repeat'
    first
    | with_reducible
        first
        | assumption | apply Tame.showCopy | apply Tame.resumeRec | apply Tame.pump | apply Tame.ite
    | dsimp only

theorem Tame.sealDone {s t : State} (c : Cap) (h : Tame s t) : Tame s (Machine.sealDone c t) := by
  unfold Machine.sealDone
  repeat'
    first
    | with_reducible
        first
        | assumption | apply Tame.emit | apply Tame.ite | apply Tame.foldl
    | split | ((with_reducible apply Tame.mk'); (all_goals (first | exact fun hh => hh | skip))) | (intro _ _ _)
    | (intro _ _) | dsimp only

theorem Tame.capOpDone {s t : State} (b : Nat) (o : RfOp) (fail : Bool) (h : Tame s t) :
    Tame s (Machine.capOpDone b o fail t) := by
  unfold Machine.capOpDone
  repeat'
    first
    | with_reducible
        first
        | assumption | apply Tame.emit | apply Tame.setCap | apply Tame.sealDone | apply Tame.ite
    | split | ((with_reducible apply Tame.mk'); (all_goals (first | exact fun hh => hh | skip))) | (intro _ _ _)
    | (intro _ _) | dsimp only

theorem Tame.freezePrev {s t : State} (h : Tame s t) : Tame s (Machine.freezePrev t) := by
  unfold Machine.freezePrev
  repeat'
    first
    | with_reducible
        first
        | assumption | apply Tame.startCapsule | apply Tame.closeCap | apply Tame.setCap | apply Tame.ite
    | split | ((with_reducible apply Tame.mk'); (all_goals (first | exact fun hh => hh | skip))) | dsimp only

theorem Tame.startEpoch {s t : State} (h : Tame s t) : Tame s (Machine.startEpoch t) := by
  unfold Machine.startEpoch
  repeat'
    first
    | with_reducible
        first
        | assumption | apply Tame.setReg | apply Tame.setFlag | apply Tame.takeKeyframe | apply Tame.record
        | apply Tame.ite
    | split | ((with_reducible apply Tame.mk'); (all_goals (first | exact fun hh => hh | skip))) | dsimp only

theorem Tame.endEpoch {s t : State} (h : Tame s t) : Tame s (Machine.endEpoch t) := by
  unfold Machine.endEpoch
  repeat'
    first
    | with_reducible
        first
        | assumption | apply Tame.closeCap | apply Tame.copyOn | apply Tame.ite
    | split | ((with_reducible apply Tame.mk'); (all_goals (first | exact fun hh => hh | skip))) | dsimp only

theorem Tame.scanDir {s t : State} (bad : List Nat) (h : Tame s t) : Tame s (Machine.scanDir bad t) := by
  unfold Machine.scanDir
  repeat'
    first
    | with_reducible
        first
        | assumption | apply Tame.blockCheck | apply Tame.setReg | apply Tame.ite | apply Tame.foldl
    | ((with_reducible apply Tame.mk'); (all_goals (first | exact fun hh => hh | skip))) | (intro _ _ _) | (intro _ _)
    | dsimp only

theorem Tame.pfRead {s t : State} (a : Nat) (h : Tame s t) : Tame s (Machine.pfRead a t).2 := by
  unfold Machine.pfRead
  repeat'
    first
    | with_reducible
        first
        | assumption | apply Tame.setFlag | apply Tame.setReg | apply Tame.emit | apply Tame.ite
    | split | dsimp only

theorem Tame.pfEnd {s t : State} (b : Nat) (code : Nat) (h : Tame s t) : Tame s (Machine.pfEnd b code t) := by
  unfold Machine.pfEnd
  repeat'
    first
    | with_reducible
        first
        | assumption | apply Tame.setFld | apply Tame.setFlag | apply Tame.record | apply Tame.ite
    | dsimp only

theorem Tame.pfAnswer {s t : State} (b : Nat) (r : Resp) (h : Tame s t) : Tame s (Machine.pfAnswer b r t) := by
  unfold Machine.pfAnswer
  repeat'
    first
    | with_reducible
        first
        | assumption | apply Tame.finishLine | apply Tame.setPfWho | apply Tame.ite
    | split | dsimp only

theorem Tame.pfFinish {s t : State} (b : Nat) (code : Nat) (h : Tame s t) : Tame s (Machine.pfFinish b code t) := by
  unfold Machine.pfFinish
  repeat'
    first
    | with_reducible
        first
        | assumption | apply Tame.pfAnswer | apply Tame.pfEnd | apply Tame.setPfOp | apply Tame.ite
    | dsimp only

theorem Tame.pfProgram {s t : State} (a : Nat) (v : BitVec 64) (h : Tame s t) : Tame s (Machine.pfProgram a v t).2 := by
  unfold Machine.pfProgram
  repeat'
    first
    | with_reducible
        first
        | assumption | apply Tame.setPfWord | apply Tame.ite
    | split | dsimp only

theorem Tame.pfStart {s t : State} (b : Nat) (code : Nat) (k : PfKind) (h : Tame s t) :
    Tame s (Machine.pfStart b code k t) := by
  unfold Machine.pfStart
  repeat'
    first
    | with_reducible
        first
        | assumption | apply Tame.setPfOp | apply Tame.pfFinish | apply Tame.ite
    | split | dsimp only

theorem Tame.pfStartProgram {s t : State} (a : Nat) (v : BitVec 64) (h : Tame s t) :
    Tame s (Machine.pfStartProgram a v t) := by
  unfold Machine.pfStartProgram
  repeat'
    first
    | with_reducible
        first
        | assumption | apply Tame.pfStart | apply Tame.ite
    | split | dsimp only

theorem Tame.pfStartErase {s t : State} (a : Nat) (h : Tame s t) : Tame s (Machine.pfStartErase a t) := by
  unfold Machine.pfStartErase
  repeat'
    first
    | with_reducible
        first
        | assumption | apply Tame.pfStart | apply Tame.ite
    | split | dsimp only

theorem Tame.pfStartPassword {s t : State} (b : Nat) (v : BitVec 64) (h : Tame s t) :
    Tame s (Machine.pfStartPassword b v t) := by
  unfold Machine.pfStartPassword
  repeat'
    first
    | with_reducible
        first
        | assumption | apply Tame.pfFinish | apply Tame.setPfOp | apply Tame.ite
    | split | dsimp only

theorem Tame.pfStartProtect {s t : State} (k : Nat) (h : Tame s t) : Tame s (Machine.pfStartProtect k t) := by
  unfold Machine.pfStartProtect
  repeat'
    first
    | with_reducible
        first
        | assumption | apply Tame.pfStart | apply Tame.ite
    | split | dsimp only

theorem Tame.tryPassword {s t : State} (e : Ep) (v : BitVec 64) (h : Tame s t) : Tame s (Machine.tryPassword e v t).2 := by
  unfold Machine.tryPassword
  dsimp only
  apply Tame.record
  split
  · exact h
  split
  · exact h
  split
  · with_reducible apply Tame.mk'
    all_goals first | assumption | exact fun hh => hh | exact fun _ => Nat.zero_le _
  · rename_i h1 _ _
    with_reducible apply Tame.mk'
    all_goals first | assumption | exact fun hh => hh | exact fun _ => Nat.lt_of_not_le h1

theorem Tame.seqAbandon {s t : State} (b : Nat) (h : Tame s t) : Tame s (Machine.seqAbandon b t) := by
  unfold Machine.seqAbandon
  repeat'
    first
    | with_reducible
        first
        | assumption | apply Tame.setPfSeq | apply Tame.setFld | apply Tame.ite
    | dsimp only

theorem Tame.pfWrite {s t : State} (e : Ep) (off : Nat) (v : Word) (h : Tame s t) :
    Tame s (Machine.pfWrite e off v t) := by
  unfold Machine.pfWrite
  repeat'
    first
    | with_reducible
        first
        | assumption | apply Tame.setPfSeq | apply Tame.seqAbandon | apply Tame.setFld | apply Tame.setFlag
        | apply Tame.pfStartProgram | apply Tame.pfStartErase | apply Tame.setPfOp | apply Tame.pfStartProtect
        | apply Tame.tryPassword | apply Tame.pfEnd | apply Tame.pfStartPassword | apply Tame.ite
    | split | ((with_reducible apply Tame.mk'); (all_goals (first | exact fun hh => hh | skip))) | dsimp only

theorem Tame.readSlot {s t : State} (slot : Nat) (h : Tame s t) : Tame s (Machine.readSlot slot t) := by
  unfold Machine.readSlot
  repeat'
    first
    | with_reducible
        first
        | assumption | apply Tame.pfRead | apply Tame.ite | apply Tame.foldl
    | (intro _ _ _) | (intro _ _) | dsimp only

theorem Tame.clearIndex {s t : State} (b : Nat) (h : Tame s t) :
    Tame s (Machine.clearIndex b t) := by
  unfold Machine.clearIndex
  repeat'
    first
    | with_reducible
        first
        | assumption | apply Tame.forAll | apply Tame.setLadder | apply Tame.value | apply Tame.forAll | apply Tame.ite
    | split
    | (intro _ _ _) | (intro _ _) | dsimp only

theorem Tame.tallyFail {s t : State} (n : Nat) (h : Tame s t) : Tame s (Machine.tallyFail n t) := by
  unfold Machine.tallyFail
  repeat'
    first
    | with_reducible
        first
        | assumption | apply Tame.setLadder | apply Tame.setFlag | apply Tame.emit | apply Tame.ite
    | split | ((with_reducible apply Tame.mk'); (all_goals (first | exact fun hh => hh | skip))) | dsimp only

theorem Tame.writeSnap {s t : State} (a : Nat) (v : BitVec 64) (seq : BitVec 16) (h : Tame s t) :
    Tame s (Machine.writeSnap a v seq t).2 := by
  unfold Machine.writeSnap
  repeat'
    first
    | with_reducible
        first
        | assumption | apply Tame.pfProgram | apply Tame.ite
    | split | dsimp only

theorem Tame.sendMark {s t : State} (c : Nat) (h : Tame s t) :
    Tame s (Machine.sendMark c t) := by
  unfold Machine.sendMark
  repeat'
    first
    | with_reducible
        first
        | assumption | apply Tame.ringSend | apply Tame.setReg | apply Tame.setRg | apply Tame.ite
    | split
    | ((with_reducible apply Tame.mk'); (all_goals (first | with_reducible exact fun hh => hh | exact fun hh => hh | exact fun hh => swf_sset _ _ _ _ hh | exact fun hh => swf_filter _ _ _ hh | (intro hh; simpa only [List.length_map] using hh) | exact fun hh => Nat.le_trans (List.length_filter_le _ _) hh | exact fun _ => rfl | skip)))
    | (intro _ _ _) | (intro _ _) | dsimp only

theorem Tame.anchor {s t : State} (c : Nat) (h : Tame s t) : Tame s (Machine.anchor c t) := by
  unfold Machine.anchor
  repeat'
    first
    | with_reducible
        first
        | assumption | apply Tame.setRg | apply Tame.setReg | apply Tame.setFld | apply Tame.ite
    | split | ((with_reducible apply Tame.mk'); (all_goals (first | exact fun hh => hh | skip))) | dsimp only

theorem Tame.countMark {s t : State} (c : Nat) (h : Tame s t) : Tame s (Machine.countMark c t) := by
  unfold Machine.countMark
  repeat'
    first
    | with_reducible
        first
        | assumption | apply Tame.setRg | apply Tame.requestSync | apply Tame.emit | apply Tame.ite
    | split | ((with_reducible apply Tame.mk'); (all_goals (first | exact fun hh => hh | skip))) | (intro _ _ _)
    | (intro _ _) | dsimp only

theorem Tame.checkFrame {s t : State} (c : Nat) (f : Frame) (h : Tame s t) : Tame s (Machine.checkFrame c f t) := by
  unfold Machine.checkFrame
  repeat'
    first
    | with_reducible
        first
        | assumption | apply Tame.cvuCount | apply Tame.record | apply Tame.bumpPort | apply Tame.ite
    | split | dsimp only

theorem Tame.takeFrame {s t : State} (c : Nat) (f : Frame) (h : Tame s t) :
    Tame s (Machine.takeFrame c f t) := by
  unfold Machine.takeFrame
  repeat'
    first
    | with_reducible
        first
        | assumption | apply Tame.checkFrame | apply Tame.takeRound | apply Tame.deliver | apply Tame.ageSlot
        | apply Tame.ite
    | split
    | (intro _ _ _) | (intro _ _) | dsimp only

theorem Tame.setReady {s t : State} (c : Nat) (n : Nat) (x : TxSlot) (h : Tame s t) :
    Tame s (Machine.setReady c n x t) := by
  unfold Machine.setReady
  repeat'
    first
    | with_reducible
        first
        | assumption | apply Tame.setRg | apply Tame.ite
    | ((with_reducible apply Tame.mk'); (all_goals (first | exact fun hh => hh | skip))) | dsimp only

theorem Tame.assemble {s t : State} (c : Nat) (n : Nat) (h : Tame s t) :
    Tame s (Machine.assemble c n t) := by
  unfold Machine.assemble
  repeat'
    first
    | with_reducible
        first
        | assumption | apply Tame.send | apply Tame.setReady | apply Tame.ite
    | split
    | ((with_reducible apply Tame.mk'); (all_goals (first | with_reducible exact fun hh => hh | exact fun hh => hh | exact fun hh => swf_sset _ _ _ _ hh | exact fun hh => swf_filter _ _ _ hh | (intro hh; simpa only [List.length_map] using hh) | exact fun hh => Nat.le_trans (List.length_filter_le _ _) hh | exact fun _ => rfl | skip)))
    | (intro _ _ _) | (intro _ _) | dsimp only

theorem Tame.ringStart {s t : State} (l : List Nat) (h : Tame s t) : Tame s (Machine.ringStart l t).1 := by
  unfold Machine.ringStart
  repeat'
    first
    | with_reducible
        first
        | assumption | apply Tame.setFlag | apply Tame.ringGo | apply Tame.ite | apply Tame.forAll
    | split | (intro _ _ _) | (intro _ _) | dsimp only

theorem Tame.ringStop {s t : State} (c : Nat) (h : Tame s t) : Tame s (Machine.ringStop c t) := by
  unfold Machine.ringStop
  repeat'
    first
    | with_reducible
        first
        | assumption | apply Tame.setRg | apply Tame.ringStopped | apply Tame.ite
    | split | ((with_reducible apply Tame.mk'); (all_goals (first | exact fun hh => hh | skip))) | dsimp only

theorem Tame.writeMap {s t : State} (c : Nat) (j : Nat) (cell : Nat) (k : MapKind) (n : Nat) (h : Tame s t) :
    Tame s (Machine.writeMap c j cell k n t) := by
  unfold Machine.writeMap
  repeat'
    first
    | with_reducible
        first
        | assumption | apply Tame.setReg | apply Tame.count | apply Tame.ite
    | split
    | (intro _ _ _) | (intro _ _) | dsimp only

theorem Tame.commitSlot {s t : State} (c : Nat) (n : Nat) (len : Nat) (h : Tame s t) :
    Tame s (Machine.commitSlot c n len t) := by
  unfold Machine.commitSlot
  repeat'
    first
    | with_reducible
        first
        | assumption | apply Tame.setRg | apply Tame.ite
    | ((with_reducible apply Tame.mk'); (all_goals (first | exact fun hh => hh | skip))) | dsimp only

theorem Tame.writeCommit {s t : State} (c : Nat) (v : Word) (h : Tame s t) : Tame s (Machine.writeCommit c v t) := by
  unfold Machine.writeCommit
  repeat'
    first
    | with_reducible
        first
        | assumption | apply Tame.commitSlot | apply Tame.ite
    | split | dsimp only

theorem Tame.writeBind {s t : State} (n : Nat) (c : Nat) (slot : Nat) (cell : Nat) (limit : Nat) (h : Tame s t) :
    Tame s (Machine.writeBind n c slot cell limit t) := by
  unfold Machine.writeBind
  repeat'
    first
    | with_reducible
        first
        | assumption | apply Tame.setReg | apply Tame.setCh | apply Tame.judgeAge | apply Tame.ite
    | ((with_reducible apply Tame.mk'); (all_goals (first | exact fun hh => hh | skip))) | dsimp only

theorem Tame.joinFlag {s t : State} (c : Nat) (i : Nat) (b : Bool) (h : Tame s t) :
    Tame s (Machine.joinFlag c i b t) := by
  unfold Machine.joinFlag
  repeat'
    first
    | with_reducible
        first
        | assumption | apply Tame.setFlag | apply Tame.ite
    | dsimp only

theorem Tame.tkConflict {s t : State} (c : Nat) (h : Tame s t) : Tame s (Machine.tkConflict c t) := by
  unfold Machine.tkConflict
  repeat'
    first
    | with_reducible
        first
        | assumption | apply Tame.joinFlag | apply Tame.ringStopped | apply Tame.emit | apply Tame.ite
    | dsimp only

theorem Tame.enterJoin {s t : State} (c : Nat) (h : Tame s t) : Tame s (Machine.enterJoin c t) := by
  unfold Machine.enterJoin
  repeat'
    first
    | with_reducible
        first
        | assumption | apply Tame.ringTo | apply Tame.setRg | apply Tame.fixPos | apply Tame.joinFlag | apply Tame.ite
    | split | ((with_reducible apply Tame.mk'); (all_goals (first | exact fun hh => hh | skip))) | dsimp only

theorem Tame.wakeOk {s t : State} (c : Nat) (m : Nat) (e : Nat) (delta : Int) (h : Tame s t) :
    Tame s (Machine.wakeOk c m e delta t) := by
  unfold Machine.wakeOk
  repeat'
    first
    | with_reducible
        first
        | assumption | apply Tame.setReg | apply Tame.setFlag | apply Tame.setRg | apply Tame.joinFlag
        | apply Tame.emit | apply Tame.ageAll | apply Tame.ite
    | split | ((with_reducible apply Tame.mk'); (all_goals (first | exact fun hh => hh | skip))) | dsimp only

theorem Tame.wakeMissed {s t : State} (c : Nat) (e : Int) (h : Tame s t) : Tame s (Machine.wakeMissed c e t) := by
  unfold Machine.wakeMissed
  repeat'
    first
    | with_reducible
        first
        | assumption | apply Tame.joinFlag | apply Tame.setFlag | apply Tame.emit | apply Tame.ringTo
        | apply Tame.setRg | apply Tame.ite
    | ((with_reducible apply Tame.mk'); (all_goals (first | exact fun hh => hh | skip))) | dsimp only

theorem Tame.unwrap {s t : State} (c : Nat) (port : Nat) (h : Tame s t) : Tame s (Machine.unwrap c port t) := by
  unfold Machine.unwrap
  repeat'
    first
    | with_reducible
        first
        | assumption | apply Tame.joinFlag | apply Tame.setFlag | apply Tame.emit | apply Tame.ite
    | dsimp only

theorem Tame.writePostab {s t : State} (c : Nat) (e : Nat) (uid : BitVec 128) (v : Nat) (h : Tame s t) :
    Tame s (Machine.writePostab c e uid v t) := by
  unfold Machine.writePostab
  repeat'
    first
    | with_reducible
        first
        | assumption | apply Tame.setReg | apply Tame.ite | apply Tame.foldl
    | (intro _ _ _) | (intro _ _) | dsimp only

theorem Tame.kickWdog {s t : State} (h : Tame s t) : Tame s (Machine.kickWdog t) := by
  unfold Machine.kickWdog
  repeat'
    first
    | with_reducible
        first
        | assumption | apply Tame.ite
    | ((with_reducible apply Tame.mk'); (all_goals (first | exact fun hh => hh | skip))) | dsimp only

theorem Tame.setWdog {s t : State} (ms : Nat) (h : Tame s t) : Tame s (Machine.setWdog ms t) := by
  unfold Machine.setWdog
  repeat'
    first
    | with_reducible
        first
        | assumption | apply Tame.kickWdog | apply Tame.setReg | apply Tame.ite
    | dsimp only

theorem Tame.clearOnes {s t : State} (k : Nat) (mask : Word) (v : Word) (h : Tame s t) :
    Tame s (Machine.clearOnes k mask v t) := by
  unfold Machine.clearOnes
  repeat'
    first
    | with_reducible
        first
        | assumption | apply Tame.setReg | apply Tame.ite
    | dsimp only

theorem Tame.writeMode {s t : State} (n : Nat) (v : Word) (h : Tame s t) :
    Tame s (Machine.writeMode n v t) := by
  unfold Machine.writeMode
  repeat'
    first
    | with_reducible
        first
        | assumption | apply Tame.setFlag | apply Tame.cfgErr | apply Tame.storeMode | apply Tame.checkKind | apply Tame.ite
    | split
    | (intro _ _ _) | (intro _ _) | dsimp only

theorem Tame.writeSafe {s t : State} (n : Nat) (v : Word) (h : Tame s t) : Tame s (Machine.writeSafe n v t) := by
  unfold Machine.writeSafe
  repeat'
    first
    | with_reducible
        first
        | assumption | apply Tame.cfgErr | apply Tame.withSafe | apply Tame.setReg | apply Tame.ite
    | split | (intro _ _ _) | (intro _ _) | dsimp only

theorem Tame.writeOut {s t : State} (n : Nat) (v : Word) (h : Tame s t) : Tame s (Machine.writeOut n v t) := by
  unfold Machine.writeOut
  repeat'
    first
    | with_reducible
        first
        | assumption | apply Tame.cfgErr | apply Tame.setOut | apply Tame.ite
    | split | dsimp only

theorem Tame.writeDohCfg {s t : State} (n : Nat) (v : Word) (h : Tame s t) : Tame s (Machine.writeDohCfg n v t) := by
  unfold Machine.writeDohCfg
  repeat'
    first
    | with_reducible
        first
        | assumption | apply Tame.cfgErr | apply Tame.setReg | apply Tame.storeMode | apply Tame.holdFence
        | apply Tame.ite
    | split | dsimp only

theorem Tame.writeCommon {s t : State} (n : Nat) (o : Nat) (v : Word) (h : Tame s t) :
    Tame s (Machine.writeCommon n o v t) := by
  unfold Machine.writeCommon
  repeat'
    first
    | with_reducible
        first
        | assumption | apply Tame.writeMode | apply Tame.writeSafe | apply Tame.withSafe | apply Tame.setReg
        | apply Tame.writeOut | apply Tame.clearOnes | apply Tame.ite
    | split | (intro _ _ _) | (intro _ _) | dsimp only

theorem Tame.writeSet {s t : State} (n : Nat) (o : Nat) (v : Word) (h : Tame s t) :
    Tame s (Machine.writeSet n o v t) := by
  unfold Machine.writeSet
  repeat'
    first
    | with_reducible
        first
        | assumption | apply Tame.writeDiCfg | apply Tame.writeDebounce | apply Tame.setCount
        | apply Tame.writePersist | apply Tame.setReg | apply Tame.writeDohCfg | apply Tame.cfgErr
        | apply Tame.tripClear | apply Tame.writeAiCfg | apply Tame.writeAiDiag | apply Tame.writeAoDev
        | apply Tame.writeAoRbchk | apply Tame.ite
    | split | dsimp only

theorem Tame.writeConv {s t : State} (n : Nat) (o : Nat) (v : Word) (h : Tame s t) :
    Tame s (Machine.writeConv n o v t) := by
  unfold Machine.writeConv
  repeat'
    first
    | with_reducible
        first
        | assumption | apply Tame.writeConvCfg | apply Tame.writeWinCfg | apply Tame.clearOnes
        | apply Tame.writeWinLimit | apply Tame.ite
    | split | dsimp only

theorem Tame.writeGrp {s t : State} (g : Nat) (o : Nat) (v : Word) (h : Tame s t) :
    Tame s (Machine.writeGrp g o v t) := by
  unfold Machine.writeGrp
  repeat'
    first
    | with_reducible
        first
        | assumption | apply Tame.setReg | apply Tame.writeSync | apply Tame.writeRotCfg | apply Tame.clearOnes
        | apply Tame.writeXchkCfg | apply Tame.ite
    | split | dsimp only

theorem Tame.writeSys {s t : State} (a : Nat) (v : Word) (h : Tame s t) : Tame s (Machine.writeSys a v t) := by
  unfold Machine.writeSys
  repeat'
    first
    | with_reducible
        first
        | assumption | apply Tame.clearOnes | apply Tame.setReg | apply Tame.setWdog | apply Tame.release
        | apply Tame.setAutorel | apply Tame.ite
    | split | (intro _ _ _) | (intro _ _) | dsimp only

theorem Tame.writeRing {s t : State} (c : Nat) (o : Nat) (v : Word) (h : Tame s t) :
    Tame s (Machine.writeRing c o v t) := by
  unfold Machine.writeRing
  repeat'
    first
    | with_reducible
        first
        | assumption | apply Tame.ringStop | apply Tame.ringStart | apply Tame.setReg | apply Tame.clearOnes
        | apply Tame.writeCommit | apply Tame.ite
    | split | dsimp only

theorem Tame.writeSkip {s t : State} (k : Nat) (q : Nat) (v : Word) (h : Tame s t) :
    Tame s (Machine.writeSkip k q v t) := by
  unfold Machine.writeSkip
  repeat'
    first
    | with_reducible
        first
        | assumption | apply Tame.setFlag | apply Tame.setReg | apply Tame.clearOnes | apply Tame.ite
    | split | dsimp only

theorem Tame.writeBlock {s t : State} (a : Nat) (v : Word) (h : Tame s t) : Tame s (Machine.writeBlock a v t) := by
  unfold Machine.writeBlock
  repeat'
    first
    | with_reducible
        first
        | assumption | apply Tame.writeRing | apply Tame.judgeAge | apply Tame.setReg | apply Tame.setEnable
        | apply Tame.writeSkip | apply Tame.endEpoch | apply Tame.clearOnes | apply Tame.writeRcmd
        | apply Tame.writeHbuf | apply Tame.ite | apply Tame.forAll
    | split | (intro _ _ _) | (intro _ _) | dsimp only

theorem Tame.regWrite {s t : State} (a : Nat) (v : Word) (h : Tame s t) : Tame s (Machine.regWrite a v t) := by
  unfold Machine.regWrite
  repeat'
    first
    | with_reducible
        first
        | assumption | apply Tame.writeSys | apply Tame.writeBlock | apply Tame.writeCommon | apply Tame.writeSet
        | apply Tame.writeConv | apply Tame.writeGrp | apply Tame.setReg | apply Tame.ite
    | split | dsimp only

theorem Tame.loadValues {s t u : State} (a : Nat) (l : List Word) (h : Tame s t) (hu : Machine.loadValues a l t = some u) :
    Tame s u := by
  induction l generalizing t a with
  | nil => cases hu; exact h
  | cons v l ih =>
    unfold Machine.loadValues at hu
    split at hu
    · exact ih _ h hu
    · split at hu
      · exact ih _ (h.regWrite ..) hu
      · cases hu

theorem Tame.loadRecords {s t u : State} (l : List (Nat × List Word)) (h : Tame s t) (hu : Machine.loadRecords l t = some u) :
    Tame s u := by
  induction l generalizing t with
  | nil => cases hu; exact h
  | cons p l ih =>
    obtain ⟨a, vs⟩ := p
    simp only [Machine.loadRecords, Option.bind_eq_some_iff] at hu
    obtain ⟨w, hw, hu⟩ := hu
    exact ih (h.loadValues _ _ hw) hu

theorem Tame.loadSlot {s t : State} (slot : Nat) (h : Tame s t) : Tame s ((Machine.loadSlot slot t).getD t) := by
  unfold Machine.loadSlot
  cases h1 : t.records slot with
  | none => exact h
  | some l =>
    show Tame s ((Machine.loadRecords l t).getD t)
    cases h2 : Machine.loadRecords l t with
    | none => exact h
    | some u => exact h.loadRecords _ h2

theorem Tame.pfLine {s t : State} (ln : Line) (off : Nat) (v : Word) (h : Tame s t) :
    Tame s (Machine.pfLine ln off v t) := by
  unfold Machine.pfLine
  repeat'
    first
    | with_reducible
        first
        | assumption | apply Tame.taken | apply Tame.runLine | apply Tame.okay | apply Tame.pfWrite | apply Tame.ite
        | apply Tame.noPost
    | (intro _ _ _) | (intro _ _) | dsimp only

theorem Tame.pfDone {s t : State} (b : Nat) (op : String) (code : Nat) (h : Tame s t) :
    Tame s (Machine.pfDone b op code t) := by
  unfold Machine.pfDone
  repeat'
    first
    | with_reducible
        first
        | assumption | apply Tame.emit | apply Tame.ite
    | split | dsimp only

theorem Tame.pfEraseEnd {s t : State} (b : Nat) (prof : Bool) (op : String) (code : Nat) (h : Tame s t) :
    Tame s (Machine.pfEraseEnd b prof op code t) := by
  unfold Machine.pfEraseEnd
  repeat'
    first
    | with_reducible
        first
        | assumption | apply Tame.pfFinish | apply Tame.pfDone | apply Tame.ite
    | split | dsimp only

theorem Tame.swapEnd {s t : State} (slot : Nat) (code : Option Nat) (gen : Option Nat) (crc : Nat) (h : Tame s t) :
    Tame s (Machine.swapEnd slot code gen crc t) := by
  unfold Machine.swapEnd
  repeat'
    first
    | with_reducible
        first
        | assumption | apply Tame.setPfOp | apply Tame.pfEnd | apply Tame.setFlag | apply Tame.emit
        | apply Tame.pfAnswer | apply Tame.ite
    | split | ((with_reducible apply Tame.mk'); (all_goals (first | exact fun hh => hh | skip))) | dsimp only

theorem Tame.swapStep {s t : State} (stage : Nat) (slot : Nat) (crc : BitVec 16) (gen : Nat) (h : Tame s t) :
    Tame s (Machine.swapStep stage slot crc gen t) := by
  unfold Machine.swapStep
  repeat'
    first
    | with_reducible
        first
        | assumption | apply Tame.setPfOp | apply Tame.readSlot | apply Tame.swapEnd | apply Tame.pfProgram
        | apply Tame.ite
    | split | dsimp only

theorem Tame.passwordEnd {s t : State} (v : BitVec 64) (h : Tame s t) : Tame s (Machine.passwordEnd v t) := by
  unfold Machine.passwordEnd
  repeat'
    first
    | with_reducible
        first
        | assumption | apply Tame.pfProgram | apply Tame.pfFinish | apply Tame.ite
    | split | dsimp only

theorem Tame.bankErased {s t : State} (b : Nat) (h : Tame s t) :
    Tame s (Machine.bankErased b t) := by
  unfold Machine.bankErased
  repeat'
    first
    | with_reducible
        first
        | assumption | apply Tame.clearIndex | apply Tame.ite
    | split
    | ((with_reducible apply Tame.mk'); (all_goals (first | with_reducible exact fun hh => hh | exact fun hh => hh | exact fun hh => swf_sset _ _ _ _ hh | exact fun hh => swf_filter _ _ _ hh | (intro hh; simpa only [List.length_map] using hh) | exact fun hh => Nat.le_trans (List.length_filter_le _ _) hh | exact fun _ => rfl | skip)))
    | (intro _ _ _) | (intro _ _) | dsimp only

theorem Tame.tallyEnd {s t : State} (b : Nat) (n : Nat) (v : BitVec 64) (a : Nat) (seq : BitVec 16) (code : Nat) (h :
    Tame s t) : Tame s (Machine.tallyEnd b n v a seq code t) := by
  unfold Machine.tallyEnd
  repeat'
    first
    | with_reducible
        first
        | assumption | apply Tame.pfEnd | apply Tame.setPfOp | apply Tame.setLadder | apply Tame.value
        | apply Tame.tallyFail | apply Tame.ite
    | split | ((with_reducible apply Tame.mk'); (all_goals (first | exact fun hh => hh | skip))) | dsimp only

theorem Tame.pfComplete {s t : State} (b : Nat) (k : PfKind) (h : Tame s t) : Tame s (Machine.pfComplete b k t) := by
  unfold Machine.pfComplete
  repeat'
    first
    | with_reducible
        first
        | assumption | apply Tame.pfProgram | apply Tame.pfFinish | apply Tame.pfEraseEnd | apply Tame.setPfOp
        | apply Tame.pfEnd | apply Tame.bankErased | apply Tame.passwordEnd | apply Tame.swapStep
        | apply Tame.writeSnap | apply Tame.tallyEnd | apply Tame.ite
    | split
    | ((with_reducible apply Tame.mk'); (all_goals (first | with_reducible exact fun hh => hh | exact fun hh => hh | exact fun hh => swf_sset _ _ _ _ hh | exact fun hh => swf_filter _ _ _ hh | (intro hh; simpa only [List.length_map] using hh) | exact fun hh => Nat.le_trans (List.length_filter_le _ _) hh | exact fun _ => rfl | skip)))
    | dsimp only

theorem Tame.pfAbort {s t : State} (b : Nat) (k : PfKind) (h : Tame s t) : Tame s (Machine.pfAbort b k t) := by
  unfold Machine.pfAbort
  have hu : Tame s { t with pf := { t.pf with words := k.cut b t.freeIdx t.pf.words }, freeIdx := t.freeIdx + 0x400000 } := by
    with_reducible apply Tame.mk'
    all_goals first | assumption | exact fun hh => hh | exact fun hh => swf_cut _ _ _ _ hh
  revert hu
  generalize ({ t with pf := _, freeIdx := _ } : State) = u
  intro hu
  dsimp only
  split
  · exact hu.pfFinish ..
  · exact hu.pfEraseEnd ..
  · exact (hu.clearIndex _).pfEraseEnd ..
  · exact (hu.pfFinish ..).pfFinish ..
  · exact hu.pfFinish ..
  · exact hu.swapEnd ..
  · exact hu.tallyEnd ..
  · exact ((hu.setPfOp ..).pfEnd ..).tallyFail ..

theorem Tame.popSnap {s t : State} (h : Tame s t) : Tame s (Machine.popSnap t) := by
  unfold Machine.popSnap
  repeat'
    first
    | with_reducible
        first
        | assumption | apply Tame.ite
    | ((with_reducible apply Tame.mk'); (all_goals (first | exact fun hh => hh | skip))) | dsimp only

theorem Tame.startSnap {s t : State} (n : Nat) (v : BitVec 64) (h : Tame s t) : Tame s (Machine.startSnap n v t) := by
  unfold Machine.startSnap
  repeat'
    first
    | with_reducible
        first
        | assumption | apply Tame.value | apply Tame.setPfOp | apply Tame.popSnap | apply Tame.tallyFail
        | apply Tame.ite
    | split | dsimp only

theorem Tame.profStart {s t : State} (b : Nat) (ln : Line) (go : State → State) (h : Tame s t) (hgo : ∀ u, Tame s u →
    Tame s (go u)) : Tame s (Machine.profStart b ln go t) := by
  unfold Machine.profStart
  repeat'
    first
    | with_reducible
        first
        | assumption | apply Tame.finishLine | apply Tame.seqAbandon | apply Tame.setPfWho | apply Tame.ite
        | apply hgo
    | split | dsimp only

theorem Tame.profErase {s t : State} (b : Nat) (op : String) (k : PfKind) (h : Tame s t) :
    Tame s (Machine.profErase b op k t) := by
  unfold Machine.profErase
  repeat'
    first
    | with_reducible
        first
        | assumption | apply Tame.pfDone | apply Tame.seqAbandon | apply Tame.setPfOp | apply Tame.ite
    | split | dsimp only

theorem Tame.spoilPage {s t : State} (b : Nat) (blk : Nat) (p : Nat) (h : Tame s t) :
    Tame s (Machine.spoilPage b blk p t) := by
  unfold Machine.spoilPage
  repeat'
    first
    | with_reducible
        first
        | assumption | apply Tame.setRfPage | apply Tame.ite
    | ((with_reducible apply Tame.mk'); (all_goals (first | exact fun hh => hh | skip))) | dsimp only

theorem Tame.spoilBlock {s t : State} (b : Nat) (blk : Nat) (h : Tame s t) : Tame s (Machine.spoilBlock b blk t) := by
  unfold Machine.spoilBlock
  repeat'
    first
    | with_reducible
        first
        | assumption | apply Tame.spoilPage | apply Tame.rfErased | apply Tame.ite | apply Tame.foldl
    | (intro _ _ _) | (intro _ _) | dsimp only

theorem Tame.eraseEnds {s t : State} (b : Nat) (blk : Nat) (fail : Bool) (h : Tame s t) :
    Tame s (Machine.eraseEnds b blk fail t) := by
  unfold Machine.eraseEnds
  repeat'
    first
    | with_reducible
        first
        | assumption | apply Tame.markBad | apply Tame.countErase | apply Tame.spoilBlock | apply Tame.rfErased
        | apply Tame.ite
    | split | dsimp only

theorem Tame.programEnds {s t : State} (b : Nat) (blk : Nat) (p : Nat) (img : Page) (fail : Bool) (h : Tame s t) :
    Tame s (Machine.programEnds b blk p img fail t) := by
  unfold Machine.programEnds
  repeat'
    first
    | with_reducible
        first
        | assumption | apply Tame.markBad | apply Tame.spoilPage | apply Tame.rfPrograms | apply Tame.ite
    | split | dsimp only

theorem Tame.rfDone {s t : State} (b : Nat) (o : RfOp) (code : Nat) (h : Tame s t) :
    Tame s (Machine.rfDone b o code t) := by
  unfold Machine.rfDone
  repeat'
    first
    | with_reducible
        first
        | assumption | apply Tame.emit | apply Tame.ite
    | split | dsimp only

theorem Tame.tableWritten {s t : State} (c : TblCopy) (h : Tame s t) : Tame s (Machine.tableWritten c t) := by
  unfold Machine.tableWritten
  repeat'
    first
    | with_reducible
        first
        | assumption | apply Tame.setReg | apply Tame.setFld | apply Tame.ite
    | ((with_reducible apply Tame.mk'); (all_goals (first | exact fun hh => hh | skip))) | dsimp only

theorem Tame.tableOpEnds {s t : State} (b : Nat) (o : RfOp) (fail : Bool) (h : Tame s t) :
    Tame s (Machine.tableOpEnds b o fail t) := by
  unfold Machine.tableOpEnds
  repeat'
    first
    | with_reducible
        first
        | assumption | apply Tame.eraseEnds | apply Tame.startTable | apply Tame.markBad | apply Tame.spoilPage
        | apply Tame.tableWritten | apply Tame.ite
    | split | dsimp only

theorem Tame.clearPend {s t : State} (h : Tame s t) : Tame s (Machine.clearPend t) := by
  unfold Machine.clearPend
  repeat'
    first
    | with_reducible
        first
        | assumption | apply Tame.setFlag | apply Tame.ite
    | ((with_reducible apply Tame.mk'); (all_goals (first | exact fun hh => hh | skip))) | dsimp only

theorem Tame.replayEvent {s t : State} (c : Ev) (d : List Fld) (h : Tame s t) : Tame s (Machine.replayEvent c d t) := by
  unfold Machine.replayEvent
  repeat'
    first
    | with_reducible
        first
        | assumption | apply Tame.send | apply Tame.ite
    | split | ((with_reducible apply Tame.mk'); (all_goals (first | exact fun hh => hh | skip))) | dsimp only

theorem Tame.setReplay {s t : State} (k : Nat) (h : Tame s t) : Tame s (Machine.setReplay k t) := by
  unfold Machine.setReplay
  repeat'
    first
    | with_reducible
        first
        | assumption | apply Tame.setFld | apply Tame.ite
    | dsimp only

theorem Tame.endReplay {s t : State} (result : Nat) (h : Tame s t) : Tame s (Machine.endReplay result t) := by
  unfold Machine.endReplay
  repeat'
    first
    | with_reducible
        first
        | assumption | apply Tame.setReplay | apply Tame.setFld | apply Tame.ite
    | dsimp only

theorem Tame.diverge {s t : State} (d : Divergence) (h : Tame s t) : Tame s (Machine.diverge d t) := by
  unfold Machine.diverge
  repeat'
    first
    | with_reducible
        first
        | assumption | apply Tame.setFld | apply Tame.setReg | apply Tame.replayEvent | apply Tame.ite
    | split | dsimp only

theorem Tame.beginRun {s t : State} (h : Tame s t) :
    Tame s (Machine.beginRun t) := by
  unfold Machine.beginRun
  repeat'
    first
    | with_reducible
        first
        | assumption | apply Tame.setReplay | apply Tame.ite
    | split
    | ((with_reducible apply Tame.mk'); (all_goals (first | with_reducible exact fun hh => hh | exact fun hh => hh | exact fun hh => swf_sset _ _ _ _ hh | exact fun hh => swf_filter _ _ _ hh | (intro hh; simpa only [List.length_map] using hh) | exact fun hh => Nat.le_trans (List.length_filter_le _ _) hh | exact fun _ => rfl | skip)))
    | (intro _ _ _) | (intro _ _) | dsimp only

theorem Tame.stageCapsule {s t : State} (id : Nat) (h : Tame s t) : Tame s (Machine.stageCapsule id t) := by
  unfold Machine.stageCapsule
  split
  · exact h
  · rename_i d _
    have hu : Tame s { t with chrys := { t.chrys with trail := t.staged d, trailBad := [], trailCap := none, kfs := [] } } := by
      with_reducible apply Tame.mk'
      all_goals first | assumption | exact fun hh => hh | exact fun _ => swf_staged _ _
    exact (Tame.ite (hu.setReg ..) hu).setFlag ..

theorem Tame.stagePages {s t : State} (id : Nat) (damaged : Option Nat) (h : Tame s t) :
    Tame s (Machine.stagePages id damaged t) := by
  unfold Machine.stagePages
  repeat'
    first
    | with_reducible
        first
        | assumption | apply Tame.rfReport | apply Tame.blockCheck | apply Tame.ite | apply Tame.foldl
    | split | (intro _ _ _) | (intro _ _) | dsimp only

theorem Tame.dropTags {s t : State} (e : Ep) (h : Tame s t) : Tame s (Machine.dropTags e t) := by
  unfold Machine.dropTags
  repeat'
    first
    | with_reducible
        first
        | assumption | apply Tame.ite
    | (with_reducible apply Tame.setPort); (all_goals (first | with_reducible assumption | skip)); (all_goals (first | with_reducible exact fun hh => hh | exact fun hh => hh | exact fun hh => swf_sset _ _ _ _ hh | exact fun hh => swf_filter _ _ _ hh | (intro hh; simpa only [List.length_map] using hh) | exact fun hh => Nat.le_trans (List.length_filter_le _ _) hh | exact fun _ => rfl | skip))
    | ((with_reducible apply Tame.mk'); (all_goals (first | exact fun hh => hh | skip))) | (intro _ _ _) | (intro _ _)
    | dsimp only

theorem Tame.queueEntry {s t : State} (x : EvEntry) (h : Tame s t) : Tame s (Machine.queueEntry x t) := by
  unfold Machine.queueEntry
  split
  · rename_i hl
    with_reducible apply Tame.mk'
    all_goals first | assumption | exact fun hh => hh | skip
    intro _; simp only [List.length_append, List.length_singleton]; omega
  · with_reducible apply Tame.mk' _ _ _ _ _ _ _ _ _ _ _ _ _ _ _ _ _ _ _ _ _ _ (h.setFlag 0x20020 9 true)
    all_goals first | exact fun hh => hh | skip
    intro hq
    have hq : t.evq.length ≤ 256 := hq
    simp only [List.length_append, List.length_tail, List.length_singleton]; omega

theorem Tame.enterReplay {s t : State} (c : CapSel) (from_ : Option Nat) (fast : Bool) (nostop : Bool) (h : Tame s t)
    : Tame s (Machine.enterReplay c from_ fast nostop t) := by
  unfold Machine.enterReplay
  repeat'
    first
    | with_reducible
        first
        | assumption | apply Tame.endEpoch | apply Tame.setReg | apply Tame.holdDev | apply Tame.setReplay
        | apply Tame.stageCapsule | apply Tame.ite
    | split | ((with_reducible apply Tame.mk'); (all_goals (first | exact fun hh => hh | skip))) | dsimp only

theorem Tame.replayForm {s t : State} (ln : Line) (st : Nat) (go : State → State) (h : Tame s t) (hgo : ∀ u, Tame s u
    → Tame s (go u)) : Tame s (Machine.replayForm ln st go t) := by
  unfold Machine.replayForm
  repeat'
    first
    | with_reducible
        first
        | assumption | apply Tame.runLine | apply Tame.okay | apply Tame.ite | apply Tame.noPost | apply hgo
    | (intro _ _ _) | (intro _ _) | dsimp only

theorem Tame.pauseReplay {s t : State} (h : Tame s t) :
    Tame s (Machine.pauseReplay t) := by
  unfold Machine.pauseReplay
  repeat'
    first
    | with_reducible
        first
        | assumption | apply Tame.setReplay | apply Tame.ite
    | split
    | ((with_reducible apply Tame.mk'); (all_goals (first | with_reducible exact fun hh => hh | exact fun hh => hh | exact fun hh => swf_sset _ _ _ _ hh | exact fun hh => swf_filter _ _ _ hh | (intro hh; simpa only [List.length_map] using hh) | exact fun hh => Nat.le_trans (List.length_filter_le _ _) hh | exact fun _ => rfl | skip)))
    | (intro _ _ _) | (intro _ _) | dsimp only

theorem Tame.continueReplay {s t : State} (h : Tame s t) :
    Tame s (Machine.continueReplay t) := by
  unfold Machine.continueReplay
  repeat'
    first
    | with_reducible
        first
        | assumption | apply Tame.setReplay | apply Tame.ite
    | split
    | ((with_reducible apply Tame.mk'); (all_goals (first | with_reducible exact fun hh => hh | exact fun hh => hh | exact fun hh => swf_sset _ _ _ _ hh | exact fun hh => swf_filter _ _ _ hh | (intro hh; simpa only [List.length_map] using hh) | exact fun hh => Nat.le_trans (List.length_filter_le _ _) hh | exact fun _ => rfl | skip)))
    | (intro _ _ _) | (intro _ _) | dsimp only

theorem Tame.giveLine {s t : State} (ep : Ep) (h : Tame s t) : Tame s (Machine.giveLine ep t) := by
  unfold Machine.giveLine
  repeat'
    first
    | with_reducible
        first
        | assumption | apply Tame.setFlag | apply Tame.ite
    | (with_reducible apply Tame.setPort); (all_goals (first | with_reducible assumption | skip)); (all_goals (first | with_reducible exact fun hh => hh | exact fun hh => hh | exact fun hh => swf_sset _ _ _ _ hh | exact fun hh => swf_filter _ _ _ hh | (intro hh; simpa only [List.length_map] using hh) | exact fun hh => Nat.le_trans (List.length_filter_le _ _) hh | exact fun _ => rfl | skip))
    | split | ((with_reducible apply Tame.mk'); (all_goals (first | exact fun hh => hh | skip))) | dsimp only

theorem Tame.typedEol {s t : State} (ep : Ep) (h : Tame s t) : Tame s (Machine.typedEol ep t) := by
  unfold Machine.typedEol
  repeat'
    first
    | with_reducible
        first
        | assumption | apply Tame.send | apply Tame.sendEvents | apply Tame.giveLine | apply Tame.ite
    | (with_reducible apply Tame.setPort); (all_goals (first | with_reducible assumption | skip)); (all_goals (first | with_reducible exact fun hh => hh | exact fun hh => hh | exact fun hh => swf_sset _ _ _ _ hh | exact fun hh => swf_filter _ _ _ hh | (intro hh; simpa only [List.length_map] using hh) | exact fun hh => Nat.le_trans (List.length_filter_le _ _) hh | exact fun _ => rfl | skip))
    | split | ((with_reducible apply Tame.mk'); (all_goals (first | exact fun hh => hh | skip))) | dsimp only

theorem Tame.forwardLine {s t : State} (ln : Line) (dst : Node) (text : List Byte) (h : Tame s t) :
    Tame s (Machine.forwardLine ln dst text t) := by
  unfold Machine.forwardLine
  repeat'
    first
    | with_reducible
        first
        | assumption | apply Tame.addTag | apply Tame.mailPut | apply Tame.ite
    | (with_reducible apply Tame.setPort); (all_goals (first | with_reducible assumption | skip)); (all_goals (first | with_reducible exact fun hh => hh | exact fun hh => hh | exact fun hh => swf_sset _ _ _ _ hh | exact fun hh => swf_filter _ _ _ hh | (intro hh; simpa only [List.length_map] using hh) | exact fun hh => Nat.le_trans (List.length_filter_le _ _) hh | exact fun _ => rfl | skip))
    | split
    | ((with_reducible apply Tame.mk'); (all_goals (first | with_reducible exact fun hh => hh | exact fun hh => hh | exact fun hh => swf_sset _ _ _ _ hh | exact fun hh => swf_filter _ _ _ hh | (intro hh; simpa only [List.length_map] using hh) | exact fun hh => Nat.le_trans (List.length_filter_le _ _) hh | exact fun _ => rfl | skip)))
    | (intro _ _ _) | (intro _ _) | dsimp only

theorem Tame.castHere {s t : State} (v : BVerb) (h : Tame s t) :
    Tame s (Machine.castHere v t) := by
  unfold Machine.castHere
  repeat'
    first
    | with_reducible
        first
        | assumption | apply Tame.clearCause | apply Tame.kickWdog | apply Tame.holdDev | apply Tame.requestSync
        | apply Tame.ite
    | split
    | (intro _ _ _) | (intro _ _) | dsimp only

theorem Tame.castOut {s t : State} (ln : Line) (text : List Byte) (h : Tame s t) :
    Tame s (Machine.castOut ln text t) := by
  unfold Machine.castOut
  repeat'
    first
    | with_reducible
        first
        | assumption | apply Tame.mailPut | apply Tame.mailDiscard | apply Tame.ite | apply Tame.forAll
    | split | (intro _ _ _) | (intro _ _) | dsimp only

theorem Tame.portLine {s t : State} (ln : Line) (f : Form) (checks : List (Code × Bool)) (eff : State → State × Resp)
    (post : State → State) (h : Tame s t) (heff : ∀ u, Tame s u → Tame s (eff u).1) (hpost : ∀ u, Tame s u → Tame s
    (post u)) : Tame s (Machine.portLine ln f checks eff t post) := by
  unfold Machine.portLine
  repeat'
    first
    | with_reducible
        first
        | assumption | apply Tame.runLine | apply Tame.ite | apply Tame.noPost | apply heff | apply hpost
    | (intro _ _ _) | (intro _ _) | dsimp only

theorem Tame.setUnlocked {s t : State} (e : Ep) (b : Bool) (h : Tame s t) : Tame s (Machine.setUnlocked e b t) := by
  unfold Machine.setUnlocked
  repeat'
    first
    | with_reducible
        first
        | assumption | apply Tame.ite
    | (with_reducible apply Tame.setPort); (all_goals (first | with_reducible assumption | skip)); (all_goals (first | with_reducible exact fun hh => hh | exact fun hh => hh | exact fun hh => swf_sset _ _ _ _ hh | exact fun hh => swf_filter _ _ _ hh | (intro hh; simpa only [List.length_map] using hh) | exact fun hh => Nat.le_trans (List.length_filter_le _ _) hh | exact fun _ => rfl | skip))
    | ((with_reducible apply Tame.mk'); (all_goals (first | exact fun hh => hh | skip))) | dsimp only

theorem Tame.tornFlag {s t : State} (p : Pair) (h : Tame s t) : Tame s (Machine.tornFlag p t) := by
  unfold Machine.tornFlag
  repeat'
    first
    | with_reducible
        first
        | assumption | apply Tame.setFlag | apply Tame.count | apply Tame.ite
    | split | dsimp only

theorem Tame.readReg {s t : State} (e : Ep) (a : Nat) (h : Tame s t) : Tame s (Machine.readReg e a t).2 := by
  unfold Machine.readReg
  repeat'
    first
    | with_reducible
        first
        | assumption | apply Tame.tornFlag | apply Tame.ite
    | (with_reducible apply Tame.setPort); (all_goals (first | with_reducible assumption | skip)); (all_goals (first | with_reducible exact fun hh => hh | exact fun hh => hh | exact fun hh => swf_sset _ _ _ _ hh | exact fun hh => swf_filter _ _ _ hh | (intro hh; simpa only [List.length_map] using hh) | exact fun hh => Nat.le_trans (List.length_filter_le _ _) hh | exact fun _ => rfl | skip))
    | split | ((with_reducible apply Tame.mk'); (all_goals (first | exact fun hh => hh | skip))) | dsimp only

theorem Tame.readRegs {s t : State} (e : Ep) (l : List Nat) (h : Tame s t) : Tame s (Machine.readRegs e l t).2 := by
  induction l generalizing t with
  | nil => exact h
  | cons a l ih => exact ih (h.readReg e a)

theorem Tame.readMem {s t : State} (l : List Nat) (vs : List Word) (h : Tame s t) :
    Tame s (Machine.readMem l vs t) := by
  unfold Machine.readMem
  repeat'
    first
    | with_reducible
        first
        | assumption | apply Tame.pfRead | apply Tame.record | apply Tame.trailMeet | apply Tame.ite
        | apply Tame.foldr
    | split | (intro _ _ _) | (intro _ _) | dsimp only

theorem Tame.rdLine {s t : State} (ln : Line) (addr : Nat) (count : Nat) (h : Tame s t) :
    Tame s (Machine.rdLine ln addr count t) := by
  unfold Machine.rdLine
  repeat'
    first
    | with_reducible
        first
        | assumption | apply Tame.execLine | apply Tame.count | apply Tame.readRegs | apply Tame.readMem
        | apply Tame.ite | apply Tame.noPost
    | (intro _ _ _) | (intro _ _) | dsimp only

theorem Tame.editWord {s t : State} (a : Nat) (v : Word) (h : Tame s t) : Tame s (Machine.editWord a v t) := by
  unfold Machine.editWord
  repeat'
    first
    | with_reducible
        first
        | assumption | apply Tame.setFlag | apply Tame.ite
    | split
    | ((with_reducible apply Tame.mk'); (all_goals (first | with_reducible exact fun hh => hh | exact fun hh => hh | exact fun hh => swf_sset _ _ _ _ hh | exact fun hh => swf_filter _ _ _ hh | (intro hh; simpa only [List.length_map] using hh) | exact fun hh => Nat.le_trans (List.length_filter_le _ _) hh | exact fun _ => rfl | skip)))
    | dsimp only

theorem Tame.wrEffect {s t : State} (e : Ep) (addr : Nat) (v : Word) (h : Tame s t) :
    Tame s (Machine.wrEffect e addr v t) := by
  unfold Machine.wrEffect
  repeat'
    first
    | with_reducible
        first
        | assumption | apply Tame.pfWrite | apply Tame.editWord | apply Tame.count | apply Tame.setCount
        | apply Tame.regWrite | apply Tame.ite
    | (with_reducible apply Tame.setPort); (all_goals (first | with_reducible assumption | skip)); (all_goals (first | with_reducible exact fun hh => hh | exact fun hh => hh | exact fun hh => swf_sset _ _ _ _ hh | exact fun hh => swf_filter _ _ _ hh | (intro hh; simpa only [List.length_map] using hh) | exact fun hh => Nat.le_trans (List.length_filter_le _ _) hh | exact fun _ => rfl | skip))
    | split | ((with_reducible apply Tame.mk'); (all_goals (first | exact fun hh => hh | skip))) | dsimp only

theorem Tame.wrPost {s t : State} (addr : Nat) (v : Word) (h : Tame s t) : Tame s (Machine.wrPost addr v t) := by
  unfold Machine.wrPost
  repeat'
    first
    | with_reducible
        first
        | assumption | apply Tame.setFlag | apply Tame.setFld | apply Tame.ite
    | split | dsimp only

theorem Tame.wrLine {s t : State} (ln : Line) (addr : Nat) (value : Nat) (h : Tame s t) :
    Tame s (Machine.wrLine ln addr value t) := by
  unfold Machine.wrLine
  repeat'
    first
    | with_reducible
        first
        | assumption | apply Tame.taken | apply Tame.runLine | apply Tame.value | apply Tame.okay
        | apply Tame.wrEffect | apply Tame.wrPost | apply Tame.ite | apply Tame.noPost
    | (intro _ _ _) | (intro _ _) | dsimp only

theorem Tame.crcFailed {s t : State} (e : Ep) (h : Tame s t) : Tame s (Machine.crcFailed e t) := by
  unfold Machine.crcFailed
  repeat'
    first
    | with_reducible
        first
        | assumption | apply Tame.count | apply Tame.setFlag | apply Tame.ite
    | split | dsimp only

theorem Tame.latchStraps {s t : State} (s1 : BitVec 28) (s2 : BitVec 28) (h : Tame s t) :
    Tame s (Machine.latchStraps s1 s2 t) := by
  unfold Machine.latchStraps
  repeat'
    first
    | with_reducible
        first
        | assumption | apply Tame.setReg | apply Tame.setFlag | apply Tame.ite
    | split | dsimp only

theorem Tame.toStage {s t : State} (n : Nat) (hn : n ≤ 8) (h : Tame s t) : Tame s (Machine.toStage n t) := by
  unfold Machine.toStage
  with_reducible apply Tame.mk'
  all_goals first | assumption | exact fun hh => hh | exact fun _ => hn

theorem Tame.lockPoints {s t : State} (h : Tame s t) :
    Tame s (Machine.lockPoints t) := by
  unfold Machine.lockPoints
  repeat'
    first
    | with_reducible
        first
        | assumption | apply Tame.setUnlocked | apply Tame.ite
    | split
    | (intro _ _ _) | (intro _ _) | dsimp only

theorem Tame.loadTable {s t : State} (bad : List Nat) (h : Tame s t) : Tame s (Machine.loadTable bad t) := by
  unfold Machine.loadTable
  repeat'
    first
    | with_reducible
        first
        | assumption | apply Tame.setFlag | apply Tame.setReg | apply Tame.setFld | apply Tame.ite
    | split | ((with_reducible apply Tame.mk'); (all_goals (first | exact fun hh => hh | skip))) | dsimp only

theorem Tame.checkKept {s t : State} (h : Tame s t) : Tame s (Machine.checkKept t) := by
  unfold Machine.checkKept
  repeat'
    first
    | with_reducible
        first
        | assumption | apply Tame.setFlag | apply Tame.setReg | apply Tame.ite
    | split
    | ((with_reducible apply Tame.mk'); (all_goals (first | with_reducible exact fun hh => hh | exact fun hh => hh | exact fun hh => swf_sset _ _ _ _ hh | exact fun hh => swf_filter _ _ _ hh | (intro hh; simpa only [List.length_map] using hh) | exact fun hh => Nat.le_trans (List.length_filter_le _ _) hh | exact fun _ => rfl | skip)))
    | dsimp only

theorem Tame.loadProfile {s t : State} (slot : Nat) (h : Tame s t) : Tame s (Machine.loadProfile slot t) := by
  unfold Machine.loadProfile
  have hl := h.loadSlot slot
  revert hl
  generalize (Machine.loadSlot slot t).getD t = u
  intro hl
  dsimp only
  refine Tame.forAll _ (Tame.setReg _ _ ?_) fun n u hu => hu.setLadder ..
  with_reducible apply Tame.mk'
  all_goals first | assumption | exact fun hh => hh

theorem Tame.strapDefaults {s t : State} (h : Tame s t) : Tame s (Machine.strapDefaults t) := by
  unfold Machine.strapDefaults
  repeat'
    first
    | with_reducible
        first
        | assumption | apply Tame.setFlag | apply Tame.emit | apply Tame.ite
    | split | dsimp only

theorem Tame.groupS6 {s t : State} (powered : BitVec 8) (r : List (Nat × BringUp)) (g : Nat) (h : Tame s t) :
    Tame s (Machine.groupS6 powered r g t) := by
  unfold Machine.groupS6
  repeat'
    first
    | with_reducible
        first
        | assumption | apply Tame.bringUp | apply Tame.supplyBack | apply Tame.setFlag | apply Tame.groupUnpowered
        | apply Tame.ite
    | split
    | (intro _ _ _) | (intro _ _) | dsimp only

theorem Tame.ringS7 {s t : State} (c : Nat) (h : Tame s t) : Tame s (Machine.ringS7 c t) := by
  unfold Machine.ringS7
  repeat'
    first
    | with_reducible
        first
        | assumption | apply Tame.ringListen | apply Tame.setReg | apply Tame.setFld | apply Tame.ite
    | split | dsimp only

theorem Tame.beginReset {s t : State} (b : Nat) (h : Tame s t) :
    Tame s (Machine.beginReset b t) := by
  unfold Machine.beginReset
  repeat'
    first
    | with_reducible
        first
        | assumption | apply Tame.setFlag | apply Tame.takeReset | apply Tame.ite
    | split
    | ((with_reducible apply Tame.mk'); (all_goals (first | with_reducible exact fun hh => hh | exact fun hh => hh | exact fun hh => swf_sset _ _ _ _ hh | exact fun hh => swf_filter _ _ _ hh | (intro hh; simpa only [List.length_map] using hh) | exact fun hh => Nat.le_trans (List.length_filter_le _ _) hh | exact fun _ => rfl | skip)))
    | (intro _ _ _) | (intro _ _) | dsimp only

theorem Tame.markReset {s t : State} (c : Nat) (h : Tame s t) :
    Tame s (Machine.markReset c t) := by
  unfold Machine.markReset
  repeat'
    first
    | with_reducible
        first
        | assumption | apply Tame.setRg | apply Tame.ite
    | split
    | ((with_reducible apply Tame.mk'); (all_goals (first | with_reducible exact fun hh => hh | exact fun hh => hh | exact fun hh => swf_sset _ _ _ _ hh | exact fun hh => swf_filter _ _ _ hh | (intro hh; simpa only [List.length_map] using hh) | exact fun hh => Nat.le_trans (List.length_filter_le _ _) hh | exact fun _ => rfl | skip)))
    | (intro _ _ _) | (intro _ _) | dsimp only

theorem Tame.devReset {s t : State} (ln : Line) (h : Tame s t) :
    Tame s (Machine.devReset ln t) := by
  unfold Machine.devReset
  repeat'
    first
    | with_reducible
        first
        | assumption | apply Tame.answer | apply Tame.markReset | apply Tame.takeReset | apply Tame.ite
    | split
    | ((with_reducible apply Tame.mk'); (all_goals (first | with_reducible exact fun hh => hh | exact fun hh => hh | exact fun hh => swf_sset _ _ _ _ hh | exact fun hh => swf_filter _ _ _ hh | (intro hh; simpa only [List.length_map] using hh) | exact fun hh => Nat.le_trans (List.length_filter_le _ _) hh | exact fun _ => rfl | skip)))
    | (intro _ _ _) | (intro _ _) | dsimp only

theorem Tame.idleCycle {s t : State} (h : Tame s t) : Tame s (Machine.idleCycle t) := by
  unfold Machine.idleCycle
  repeat'
    first
    | with_reducible
        first
        | assumption | apply Tame.tick | apply Tame.fuseSteps | apply Tame.ite
    | split | dsimp only

end Sys2Proof.Machine
end

