-- ==== Sys2Proof/Machine/Wire.lean ====
section
/-!
DEFINITION. The bytes that a port sends for what stands in its list of items sent (R106 to R108, R112, R115, R117, R130, Table 2.5), and
the bits on the line of a Ringlet port (R318, R321).
-/
namespace Sys2Proof.Machine

/-- A line as it leaves a port: its text, the CRC suffix when it carries one (R115, R392), CR LF (R108). A text that would make the line
longer than 255 bytes ends there. DESIGN CHOICE: assumption 99. -/
def wireLine (whole : List Byte) (crc : Bool) : List Byte :=
  let text := whole.take (if crc then 249 else 255)
  let body := text ++ [0x20]
  (if crc then body ++ (0x2A :: textBytes (String.ofList (hexText 4 (crc16 body)))) else text) ++ crlf

/-- A count of a boot line, or - for none. -/
def orDash : Option Nat → String
  | some n => toString n
  | none => "-"

/-- A boot line (Table 2.5). -/
def Boot.text (m : Member) : Boot → String
  | .s2 => "! ev boot s2 " ++ m.name ++ " B1 crawl"
  | .s4 n => "! ev boot s4 fences=" ++ toString n
  | .s5 p g => "! ev boot s5 prof=" ++ (if p = 1 then "A" else if p = 2 then "B" else "none") ++ " gen=" ++ orDash g
  | .s6 p n a => "! ev boot s6 groups=" ++ toString p ++ "/" ++ toString n ++ " armed=" ++ (if a then "yes" else "no")
  | .s8 f => "! ev boot s8 service=" ++ (if f then "full" else "basic")
  | .crawl u => "! ev boot crawl " ++ unText u

/-- The text of an event line, with its stamp when EVSTAMP is set (R130, R311). -/
def EvEntry.text (e : EvEntry) (stamp : Bool) : String :=
  "! ev " ++ " ".intercalate (e.ev.flds.map Fld.text) ++
    (if stamp then " t=" ++ toString e.ts.toNat ++ " n=" ++ toString e.seq.toNat else "")

/-- A prefix of a response (R108). -/
def prefixText (a : Option Node) : List Byte :=
  match a with
  | some a => textBytes ("@" ++ nodeText a ++ " ")
  | none => []

/-- The bytes of an item sent. -/
def TxItem.bytes (s : State) : TxItem → List Byte
  | .resp addr a dup crc =>
    let pre := match a with
      | .rem n _ => prefixText (some n)
      | .loc _ => prefixText addr
    wireLine (pre ++ a.text ++ (if dup then textBytes " ~dup" else [])) crc
  | .event e stamp crc => wireLine (textBytes (e.text stamp)) crc
  | .boot b crc => wireLine (textBytes (b.text s.member)) crc
  | .echo l => l
  | .prompt => textBytes "ply> "

/-- All that a port has sent, in order. -/
def State.sentBytes (s : State) (e : Ep) : List Byte := (s.port e).tx.reverse.flatMap (TxItem.bytes s)

/-! ### Ringlet lines -/

/-- The bits that port p of a controller has sent since CLK_R started, before scrambling: its frames and
idle between them. A bit takes 4 CLK_R cycles, or 16 with LONG (R317). -/
def State.plainBits (s : State) (c p : Nat) : List Bool :=
  let k := if s.long c then 16 else 4
  let out := ((s.rg c).tx.reverse.filter fun x => decide (x.frame.port = p)).foldl (fun l x =>
    l ++ List.replicate (x.at_ / k - l.length) false ++ frameBits x.frame) []
  out ++ List.replicate (s.clk.raw / k - out.length) false

/-- The bits on the line of port p of a controller: every bit is scrambled, idle included (R318). -/
def State.lineBits (s : State) (c p : Nat) : List Bool :=
  scramble ((List.range 58).map (Config.scrambler s.clk.tjBase (2 * c + p)).getLsbD) (s.plainBits c p)

end Sys2Proof.Machine
end

