-- ==== Sys2Proof/WellFormed.lean ====
section
/-!
DEFINITION. The terms that stand for commands: an event of a channel, group, controller, port or bank names one that a member can
have (Tables 1.2 and 1.3), a line carries an origin exactly when it came through mail (R124), and numbers that are said to fit 64 bits do
(R103). The commands of the spec are the well-formed terms; the meanings are total, and answer or ignore what a member lacks.
-/
namespace Sys2Proof

/-- An optional operand. -/
def opt {α : Type} (a : Option α) (f : α → Bool) : Bool := (a.map f).getD true

/-- A line of the mail entry point has an origin, and no other line has one (R124). -/
def Line.wf (ln : Line) : Bool := decide (ln.ep = .mail) == ln.origin.isSome

/-- A number of a line: where the line's numbers fit (R103), it is below 2^64. -/
def Line.num (ln : Line) (x : Nat) : Bool := !ln.intOk || decide (x < 2 ^ 64)

/-- A quantity of a line: its integer part fits as a number does. -/
def Line.qty (ln : Line) (q : Qty) : Bool := ln.num (q.num.natAbs / 10 ^ q.dec)

/-- A channel name of a line. -/
def Line.ref (ln : Line) (r : ChRef) : Bool := ln.num r.g && ln.num r.c

/-- The text of a line without its terminator: 255 bytes at most (R95), none a CR or LF. -/
def txt (l : List Byte) : Bool := decide (l.length ≤ 255) && l.all fun b => decide (b ≠ 13) && decide (b ≠ 10)

/-- Pages of the record flash: 8 banks of 64 blocks of 256 pages. -/
def keys (l : List Nat) : Bool := l.all fun k => decide (k < 131072)

/-- The argument of ch safe. -/
def SafeArg.wf (ln : Line) : SafeArg → Bool
  | .off => true
  | .on => true
  | .value v => ln.qty v
  | .hold t => ln.qty t

/-- The value of ch set. -/
def SetArg.wf (ln : Line) : SetArg → Bool
  | .on => true
  | .off => true
  | .qty v => ln.qty v

/-- The object of safe release and safe get. -/
def SafeObj.wf (ln : Line) : SafeObj → Bool
  | .dev => true
  | .grp g => ln.num g
  | .ch r => ln.ref r

/-- The role of a controller. -/
def Role.wf (ln : Line) : Role → Bool
  | .tk => true
  | .follower => true
  | .backup k => ln.num k

/-- A capsule named by a line. -/
def CapSel.wf (ln : Line) : CapSel → Bool
  | .id n => ln.num n
  | .trail => true

/-- A split pair of Table 19.2. -/
def Pair.wf : Pair → Bool
  | .clk => true
  | .count n => decide (n < 128)
  | .edge n => decide (n < 128)
  | .aits n => decide (n < 128)
  | .mark c => decide (c < 2)
  | .div => true
  | .rxstat c e => decide (c < 2) && decide (e < 256)

/-- A unit of a group names the group. -/
def Un.wf : Un → Bool
  | .grp g _ => decide (g < 8)
  | _ => true

/-- An item of a barrier link. -/
def LinkItem.wf : LinkItem → Bool
  | .bad g => decide (g < 8)
  | .downBad g => decide (g < 8)
  | .heartbeat g _ => decide (g < 8)
  | .scan g e _ => decide (g < 8) && decide (e < 40)

/-- A frame is received at a port of its controller, in the window of a slot. -/
def Frame.wf (f : Frame) : Bool := decide (f.port < 2) && decide (f.slot < 4096)

/-- A bring-up reports the channels of its group by their places in it. -/
def BringUp.wf (r : BringUp) : Bool := r.high.all (fun n => decide (n < 16)) && r.holds.all fun h => decide (h.1 < 16)

/-- The well-formed commands. -/
def Instr.wf : Instr → Bool
  | .powerOnReset => true
  | .resetRelease _ _ => true
  | .xoQualified _ => true
  | .pllLock => true
  | .pllLockTimeout => true
  | .selfTestComplete r => keys r.bad
  | .s5ProfileLoad => true
  | .s6GroupBringup _ r => r.all (fun a => decide (a.1 < 8) && a.2.wf)
  | .s7RingStart => true
  | .s8Run => true
  | .directoryScan bad => keys bad
  | .brownOutVcore => true
  | .brownOutVio => true
  | .holdupLow => true
  | .holdupLowClear => true
  | .vanaOkChange _ => true
  | .vdramOkChange _ => true
  | .resetPin => true
  | .xoLoss => true
  | .unitFenced u => u.wf
  | .devStatus ln => ln.wf
  | .devFence ln => ln.wf
  | .devUnit ln u => ln.wf && u.wf
  | .devReset ln => ln.wf
  | .rxByte ep _ => decide (ep ≠ .mail)
  | .typedByte ep _ => decide (ep ≠ .mail)
  | .linegap ep => decide (ep ≠ .mail)
  | .typedHoldTimeout ep => decide (ep ≠ .mail)
  | .eventLineSend ep => decide (ep ≠ .mail)
  | .tagEntryExpiry _ _ => true
  | .remoteLineForward ln _ text => ln.wf && txt text
  | .remoteResponseArrival ep _ text => decide (ep ≠ .mail) && txt text
  | .noreply ep _ => decide (ep ≠ .mail)
  | .broadcastLine ln _ text => ln.wf && txt text
  | .portMode ln _ _ => ln.wf
  | .portCrc ln _ _ => ln.wf
  | .portEvents ln _ _ => ln.wf
  | .portEvstamp ln _ _ => ln.wf
  | .portBaud ln _ rate => ln.wf && ln.num rate
  | .portMailto ln _ t => ln.wf && ln.qty t
  | .portStatus ln _ => ln.wf
  | .evGet ln => ln.wf
  | .evAck ln seq => ln.wf && ln.num seq
  | .evClear ln => ln.wf
  | .kick ln => ln.wf
  | .wdogSet ln t => ln.wf && ln.qty t
  | .wdogOff ln => ln.wf
  | .wdogGet ln => ln.wf
  | .wdogExpire => true
  | .lock ln => ln.wf
  | .unlock ln _ => ln.wf
  | .rd ln addr count => ln.wf && ln.num addr && ln.num count
  | .wr ln addr value => ln.wf && ln.num addr && ln.num value
  | .splitLowRead ln p => ln.wf && p.wf
  | .splitHighRead ln p => ln.wf && p.wf
  | .splitLowWrite ln p _ => ln.wf && p.wf
  | .splitHighWrite ln p _ => ln.wf && p.wf
  | .timeGet ln => ln.wf
  | .timeSet ln ticks => ln.wf && ln.num ticks
  | .timeTrim ln t => ln.wf && ln.qty t
  | .timeSlew ln t => ln.wf && ln.qty t
  | .slewComplete => true
  | .heartbeatSend g _ => decide (g < 8)
  | .linkItemReceive it => it.wf
  | .linkSilent g => decide (g < 8)
  | .linkLost g => decide (g < 8)
  | .groupPowerFail g => decide (g < 8)
  | .groupPowered x => decide (x.grp < 8)
  | .groupBringupComplete g r => decide (g < 8) && r.wf
  | .retrainAttempt g _ => decide (g < 8)
  | .trainingSuccess g => decide (g < 8)
  | .holdExpire n => decide (n < 128)
  | .grpGet ln g => ln.wf && ln.num g
  | .grpRetrain ln g _ => ln.wf && ln.num g
  | .arm ln => ln.wf
  | .disarm ln => ln.wf
  | .chMode ln ch _ _ => ln.wf && ln.ref ch
  | .modeActive n _ => decide (n < 128)
  | .chSafe ln ch a => ln.wf && ln.ref ch && a.wf ln
  | .chEts ln ch _ => ln.wf && ln.ref ch
  | .chSource ln ch _ => ln.wf && ln.ref ch
  | .chSet ln ch v => ln.wf && ln.ref ch && v.wf ln
  | .chGet ln ch => ln.wf && ln.ref ch
  | .diThrType ln ch _ => ln.wf && ln.ref ch
  | .diThrProg ln ch thr hyst => ln.wf && ln.ref ch && ln.qty thr && opt hyst ln.qty
  | .diInvert ln ch _ => ln.wf && ln.ref ch
  | .diDebounce ln ch t => ln.wf && ln.ref ch && ln.qty t
  | .diWirebreak ln ch _ => ln.wf && ln.ref ch
  | .dicEdge ln ch _ => ln.wf && ln.ref ch
  | .dicCount ln ch => ln.wf && ln.ref ch
  | .dicCountSet ln ch v => ln.wf && ln.ref ch && ln.num v
  | .dicCountClear ln ch => ln.wf && ln.ref ch
  | .dicPersist ln ch a => ln.wf && ln.ref ch && opt a (fun a => ln.qty a.1 && opt a.2 ln.num)
  | .debounceConfirm n _ _ => decide (n < 128)
  | .wirebreak n => decide (n < 128)
  | .wireok n => decide (n < 128)
  | .countItemSend n => decide (n < 128)
  | .dicCountItem n _ _ => decide (n < 128)
  | .persistInterval n => decide (n < 128)
  | .tallySnapshotStart => true
  | .tallySnapshotDone _ => true
  | .reflexFire n _ _ => decide (n < 128)
  | .reflexRevoke n => decide (n < 128)
  | .reflexHoldTimeout n => decide (n < 128)
  | .pulseEnd n => decide (n < 128)
  | .skipSrc ln k ch _ => ln.wf && ln.num k && ln.ref ch
  | .skipConfirm ln k t => ln.wf && ln.num k && ln.qty t
  | .skipAct ln k _ ch _ t => ln.wf && ln.num k && ln.ref ch && ln.qty t
  | .skipActPulse ln k ch _ t => ln.wf && ln.num k && ln.ref ch && ln.qty t
  | .skipActGsafe ln k g => ln.wf && ln.num k && ln.num g
  | .skipActStamp ln k => ln.wf && ln.num k
  | .skipNote ln k _ => ln.wf && ln.num k
  | .skipEnable ln k _ => ln.wf && ln.num k
  | .skipRelease ln k => ln.wf && ln.num k
  | .skipReportRevoked ln _ => ln.wf
  | .skipGet ln k => ln.wf && ln.num k
  | .dofOverload n => decide (n < 128)
  | .overloadClear n => decide (n < 128)
  | .dofMismatch n => decide (n < 128)
  | .dofMismatchClear n => decide (n < 128)
  | .shortTrip n => decide (n < 128)
  | .currentLimit x => decide (x.ch < 128)
  | .limitTrip n => decide (n < 128)
  | .fuseTrip n _ => decide (n < 128)
  | .inrushWindowClose n => decide (n < 128)
  | .tripRetry n => decide (n < 128)
  | .tripCleared n => decide (n < 128)
  | .openLoad n => decide (n < 128)
  | .openLoadClear n => decide (n < 128)
  | .undercurrent n => decide (n < 128)
  | .undercurrentClear n => decide (n < 128)
  | .dohRated ln ch a => ln.wf && ln.ref ch && ln.qty a
  | .dohWire ln ch w => ln.wf && ln.ref ch && ln.qty w
  | .dohWireCustom ln ch k => ln.wf && ln.ref ch && ln.num k
  | .dohInrush ln ch t m => ln.wf && ln.ref ch && ln.qty t && ln.qty m
  | .dohLimit ln ch a => ln.wf && ln.ref ch && ln.qty a
  | .dohRetry ln ch _ => ln.wf && ln.ref ch
  | .dohUndercurrent ln ch a => ln.wf && ln.ref ch && opt a ln.qty
  | .dohOltest ln ch _ => ln.wf && ln.ref ch
  | .tripClear ln ch => ln.wf && ln.ref ch
  | .dohFuse ln ch => ln.wf && ln.ref ch
  | .aicInlim n => decide (n < 128)
  | .aicInlimClear n => decide (n < 128)
  | .loopOff n => decide (n < 128)
  | .loopOn n => decide (n < 128)
  | .complySet n => decide (n < 128)
  | .complyClear n => decide (n < 128)
  | .aoDeviation n => decide (n < 128)
  | .aoDeviationClear n => decide (n < 128)
  | .aoReadback n => decide (n < 128)
  | .aoReadbackClear n => decide (n < 128)
  | .aicLoop ln ch _ => ln.wf && ln.ref ch
  | .airRtd ln ch _ => ln.wf && ln.ref ch
  | .airExc ln ch i => ln.wf && ln.ref ch && ln.qty i
  | .airLeads ln ch _ r => ln.wf && ln.ref ch && opt r ln.qty
  | .aiRngt ln ch t => ln.wf && ln.ref ch && ln.qty t
  | .aoDevCfg ln ch p t _ => ln.wf && ln.ref ch && ln.qty p && ln.qty t
  | .aoRbchkCfg ln ch p t => ln.wf && ln.ref ch && ln.qty p && ln.qty t
  | .chReadback ln ch => ln.wf && ln.ref ch
  | .conversionResult n _ => decide (n < 128)
  | .resultBoundaryMissed n => decide (n < 128)
  | .syncBallEdge => true
  | .syncEdge => true
  | .rotationStepStart g => decide (g < 8)
  | .calComplete g _ _ => decide (g < 8)
  | .rotConnect g => decide (g < 8)
  | .rotSettleDone g => decide (g < 8)
  | .handover g => decide (g < 8)
  | .recalComplete g _ _ => decide (g < 8)
  | .modFail g m => decide (g < 8) && decide (m < 17)
  | .xchkFail g => decide (g < 8)
  | .xchkClear g => decide (g < 8)
  | .convRate ln ch r _ => ln.wf && ln.ref ch && ln.qty r
  | .convWindow ln ch lo hi hyst count => ln.wf && ln.ref ch && ln.qty lo && ln.qty hi && opt hyst ln.qty && opt count ln.num
  | .convWindowOff ln ch => ln.wf && ln.ref ch
  | .convWindowFault ln ch out => ln.wf && ln.ref ch && opt out ln.ref
  | .convGet ln ch => ln.wf && ln.ref ch
  | .convRotate ln g _ step => ln.wf && ln.num g && opt step ln.qty
  | .convRotateGet ln g => ln.wf && ln.num g
  | .convXchk ln g ch lim => ln.wf && ln.num g && opt ch ln.ref && opt lim (fun a => ln.qty a.1 && ln.qty a.2)
  | .convXchkGet ln g => ln.wf && ln.num g
  | .convScan ln g e => ln.wf && ln.num g && ln.num e
  | .convSyncBall ln g _ => ln.wf && ln.num g
  | .convSyncRing ln g ring every => ln.wf && ln.num g && opt ring ln.num && opt every ln.num
  | .sync ln gs => ln.wf && gs.all ln.num
  | .safePin => true
  | .safePinHigh => true
  | .vfLow g => decide (g < 8)
  | .vfOk g => decide (g < 8)
  | .vfHigh g => decide (g < 8)
  | .tempWarn g => decide (g < 8)
  | .tempOk g => decide (g < 8)
  | .tempTrip g => decide (g < 8)
  | .safeCmd ln => ln.wf
  | .safeRelease ln o => ln.wf && o.wf ln
  | .safeReleaseAuto ln o _ => ln.wf && o.wf ln
  | .safeGet ln o => ln.wf && o.wf ln
  | .roundMarkSend c _ => decide (c < 2)
  | .roundMarkAccept c _ => decide (c < 2)
  | .markMissed c port _ _ => decide (c < 2) && decide (port < 2)
  | .frameReceive c x => decide (c < 2) && decide (x.port < 2) && decide (x.slot < 4096) && decide (x.bits.length ≤ 2300)
  | .rxWindowClose c slot port _ => decide (c < 2) && decide (slot < 4096) && decide (port < 2)
  | .lageRoundTick c => decide (c < 2)
  | .slotAssembly c slot => decide (c < 2) && decide (slot < 4096)
  | .slotLaunch c slot => decide (c < 2) && decide (slot < 4096)
  | .ringdlyMeasure c _ => decide (c < 2)
  | .ringStopped c => decide (c < 2)
  | .mailFrameReceive c f => decide (c < 2) && f.wf
  | .mailFragmentTimeout c _ => decide (c < 2)
  | .ringStart ln c => ln.wf && opt c ln.num
  | .ringStop ln c => ln.wf && opt c ln.num
  | .ringLine ln c _ => ln.wf && ln.num c
  | .ringPeriod ln c t => ln.wf && ln.num c && ln.qty t
  | .ringSlots ln c n => ln.wf && ln.num c && ln.num n
  | .ringMargin ln c n => ln.wf && ln.num c && ln.num n
  | .ringSlot ln c slot _ _ len start _ => ln.wf && ln.num c && ln.num slot && ln.num len && ln.num start
  | .ringMap ln c slot cell _ ch => ln.wf && ln.num c && ln.num slot && ln.num cell && opt ch ln.ref
  | .ringHop ln c i t => ln.wf && ln.num c && ln.num i && ln.qty t
  | .ringTx ln c slot cell vs => ln.wf && ln.num c && ln.num slot && ln.num cell && vs.all ln.num
  | .ringCommit ln c slot len => ln.wf && ln.num c && ln.num slot && opt len ln.num
  | .ringRx ln c slot cell count => ln.wf && ln.num c && ln.num slot && opt cell ln.num && opt count ln.num
  | .ringRoundev ln c n => ln.wf && ln.num c && opt n ln.num
  | .ringGet ln c => ln.wf && ln.num c
  | .chBind ln ch c slot cell limit => ln.wf && ln.ref ch && ln.num c && ln.num slot && ln.num cell && ln.num limit
  | .chBindGet ln ch => ln.wf && ln.ref ch
  | .huntCandidate x => decide (x.ctl < 2) && x.frame.wf
  | .candidateConfirm c r => decide (c < 2) && r.frame.wf
  | .joinProbe c _ _ => decide (c < 2)
  | .dupAddr c => decide (c < 2)
  | .tkListenEnd c => decide (c < 2)
  | .foreignMark c _ _ => decide (c < 2)
  | .tkTakeover c => decide (c < 2)
  | .ringWrap c port => decide (c < 2) && decide (port < 2)
  | .portUp c port => decide (c < 2) && decide (port < 2)
  | .ringUnwrap c port => decide (c < 2) && decide (port < 2)
  | .cocoonEnter c => decide (c < 2)
  | .sleepTimerFire c _ r => decide (c < 2) && r.all (fun a => decide (a.1 < 8) && a.2.wf)
  | .wakeMiss c => decide (c < 2)
  | .ringRole ln c r => ln.wf && ln.num c && r.wf ln
  | .ringSeg ln c n => ln.wf && ln.num c && ln.num n
  | .ringPosm ln c _ => ln.wf && ln.num c
  | .ringPostab ln c e v => ln.wf && ln.num c && ln.num e && opt v (fun a => ln.num a.2)
  | .ringBridge ln _ _ => ln.wf
  | .ringBridgeEntry ln e src slot cell count j dcell => ln.wf && ln.num e && ln.num src && ln.num slot && ln.num cell && ln.num count && ln.num j && ln.num dcell
  | .ringReachDown ln _ seg _ => ln.wf && ln.num seg
  | .ringCocoon ln c t at_ => ln.wf && ln.num c && ln.qty t && opt at_ ln.num
  | .ringRho ln c n => ln.wf && ln.num c && ln.qty n
  | .ringSleepGet ln c => ln.wf && ln.num c
  | .ringPortGet ln c port => ln.wf && ln.num c && ln.num port
  | .ringPortClear ln c port => ln.wf && ln.num c && ln.num port
  | .knownAnswerTest u _ => u.wf
  | .cvuGet ln u => ln.wf && u.wf
  | .cvuClear ln u => ln.wf && u.wf
  | .pflashSeqStep ln _ _ => ln.wf
  | .pflashSeqTimeout b => decide (b < 2)
  | .programWord ln _ _ => ln.wf
  | .eraseSector ln _ => ln.wf
  | .eraseBank ln _ => ln.wf
  | .enterPassword ln _ _ => ln.wf
  | .setPassword ln _ _ => ln.wf
  | .protectGroup ln _ _ => ln.wf
  | .clearStatus ln _ => ln.wf
  | .pflashOpComplete b _ => decide (b < 2)
  | .pflashFactoryCheck _ => true
  | .profGet ln => ln.wf
  | .profWord ln addr => ln.wf && ln.num addr
  | .profProgram ln addr _ => ln.wf && ln.num addr
  | .profErase ln addr => ln.wf && ln.num addr
  | .profEraseSlot ln _ => ln.wf
  | .profWipe ln b => ln.wf && ln.num b
  | .profCrc ln _ => ln.wf
  | .profSwap ln _ crc => ln.wf && ln.num crc
  | .profProtect ln k => ln.wf && ln.num k
  | .profPassword ln _ => ln.wf
  | .tallySave ln ch => ln.wf && opt ch ln.ref
  | .tallyGet ln ch => ln.wf && ln.ref ch
  | .rflashGet ln => ln.wf
  | .rflashBlockGet ln bank block => ln.wf && ln.num bank && ln.num block
  | .rflashRead ln bank block page r => ln.wf && ln.num bank && ln.num block && ln.num page && decide (r.rt < 8)
  | .rflashHex ln off => ln.wf && ln.num off
  | .rflashProgram ln bank block page => ln.wf && ln.num bank && ln.num block && ln.num page
  | .rflashErase ln bank block => ln.wf && ln.num bank && ln.num block
  | .rflashBad ln bank block => ln.wf && ln.num bank && ln.num block
  | .rflashRetry ln _ => ln.wf
  | .rflashSync ln => ln.wf
  | .rflashOpComplete bank _ => decide (bank < 8)
  | .tableWrite => true
  | .trailScrub word _ => decide (word < 1040384)
  | .keyframe => true
  | .osum => true
  | .postWindowEnd => true
  | .pendingCapsuleStart => true
  | .replayStagingDone _ => true
  | .recordInject _ => true
  | .replayEnd counts => counts.all fun a => decide (a.1 < 128)
  | .recOnOff ln _ => ln.wf
  | .recKeyframe ln t => ln.wf && ln.qty t
  | .recOsum ln t => ln.wf && ln.qty t
  | .recWindow ln pre post => ln.wf && ln.qty pre && ln.qty post
  | .recTriggerCfg ln _ _ => ln.wf
  | .recClaim ln banks => ln.wf && banks.all ln.num
  | .recOverwrite ln _ => ln.wf
  | .recFreeze ln => ln.wf
  | .recFreeTrail ln => ln.wf
  | .recGet ln => ln.wf
  | .recList ln => ln.wf
  | .recCapGet ln c => ln.wf && c.wf ln
  | .recCapErase ln id => ln.wf && ln.num id
  | .recReplay ln c from_ _ _ => ln.wf && c.wf ln && opt from_ ln.num
  | .recReplayPause ln => ln.wf
  | .recReplayContinue ln => ln.wf
  | .recReplayStop ln => ln.wf
  | .recResult ln => ln.wf
  | .lineRefused ln _ => ln.wf
  | .keyframeComplete => true
  | .currentLimitEnd n => decide (n < 128)
  | .vfHighEnd g => decide (g < 8)

end Sys2Proof
end

