-- ==== Sys2Proof/Tests/Slice0.lean ====
section
/-!
SUPPORT. Tests: terms that WellFormed refuses, results that the spec itself works out, and for every statement with hypotheses a state
and operands that meet them, clause by clause.
-/
namespace Sys2Proof.Tests
open Sys2Proof Sys2Proof.Machine

-- One theorem after another: each evaluation has a large stack of its own.
set_option Elab.async false

/-! ### The states and lines of the witnesses -/

/-- The invariant as a test that evaluates. -/
def invB (s : State) : Bool :=
  Memory.wf s && decide (s.evq.length ≤ 256) && decide (s.cp0.tags.length ≤ 64) && decide (s.cp1.tags.length ≤ 64) &&
  decide (s.mail.tags.length ≤ 64) && decide (s.pwFails ≤ 3) && decide (s.sup.stage ≤ 8)

/-- The checks that every form meets, as a test that evaluates. -/
def passB (ln : Line) (f : Form) (s : State) : Bool :=
  s.serves ln.ep && !s.waiting ln.ep && decide (suffixErr ln f.core s = none) && decide (findTag ln s = none) &&
  (f.core || (!s.sup.crawl && decide (s.sup.stage = 8))) && ln.objOk && (!f.locked || !s.locked ln.ep) &&
  ln.argOk && ln.intOk && (!f.replay || !s.replaying)

/-- A state that meets the invariant and a line that passes in it. -/
abbrev Ready (ln : Line) (f : Form) (s : State) : Prop := invB s = true ∧ passB ln f s = true

theorem inv_of_invB {s : State} (h : invB s = true) : Inv s := by
  simp only [invB, Bool.and_eq_true, decide_eq_true_eq] at h
  exact ⟨h.1.1.1.1.1.1, h.1.1.1.1.1.2, ⟨h.1.1.1.1.2, h.1.1.1.2, h.1.1.2⟩, h.1.2, h.2⟩

theorem ready_passes {ln : Line} {f : Form} {s : State} (h : Ready ln f s) : Inv s ∧ Passes ln f s := by
  refine ⟨inv_of_invB h.1, ?_⟩
  have p := h.2
  simp only [passB, Bool.and_eq_true, Bool.or_eq_true, Bool.not_eq_true', decide_eq_true_eq] at p
  obtain ⟨⟨⟨⟨⟨⟨⟨⟨⟨a, w⟩, b⟩, c⟩, d⟩, e⟩, g⟩, i⟩, j⟩, k⟩ := p
  refine ⟨a, w, b, c, d, e, fun hl => ?_, i, j, fun hl => ?_⟩
  · rcases g with g | g
    · rw [hl] at g; exact absurd g (by decide)
    · exact g
  · rcases k with k | k
    · rw [hl] at k; exact absurd k (by decide)
    · exact k

/-- The part running at S8 and disarmed, with nothing fenced and every register as reset leaves it but the power and the link of
group 0 (GSTAT), its field supply, and the modes of its first channels: DI, DIC, DOH, DOF, AIC, AIV, AIR on 0 to 6, AOC and AOV on 8 and 9, each
active at the group. -/
def base : State :=
  let s := { State.reset with
    sup := { inReset := false, porHeld := false, vcoreOk := true, vioOk := true, stage := 8, pllLock := true, vanaOk := true, vdramOk := true }
    grp := [(0, { vf := true, applied := true })]
    chn := [(0, 1), (1, 2), (2, 3), (3, 4), (4, 5), (5, 6), (6, 7), (8, 8), (9, 9)].map fun (x : Nat × Nat) =>
      (x.1, { isApplied := true, applied := BitVec.ofNat 4 x.2 }) }
  [(0, 1), (1, 2), (2, 3), (3, 4), (4, 5), (5, 6), (6, 7), (8, 8), (9, 9)].foldl (fun t x => t.setReg (chA x.1 0) (word x.2))
    (s.setReg 0x10100000 3)

/-- The same part armed. -/
def armed : State := { base with sup := { base.sup with armed := true } }

/-- A line at CP0 in typed mode, without tag and suffix. -/
abbrev l0 : Line := { ep := .cp0 }
/-- The same with tag 7. -/
abbrev l7 : Line := { ep := .cp0, tag := some 7 }
/-- A quantity. -/
abbrev qu (n : Int) (u : MUnit) : Qty := { num := n, unit := some u }
/-- A channel of group 0. -/
abbrev c0 (c : Nat) : ChRef := { g := 0, c := c }
/-- The channel n of a state with its aux state replaced. -/
abbrev aux (n : Nat) (f : ChanAux → ChanAux) (s : State) : State := s.setCh n (f (s.ch n))

/-- The same part with every Ringlet port enabled, as timekeeper 12.00 of a segment in RUN: a ROUND slot, an own DATA slot, an own MAIL slot, and a DATA slot of node
12.05 that is received. -/
def ringed : State :=
  [(0x24, (0x0F000000 : Word)), (rgA 0 0, 4), (rgA 0 0x0C, 1000), (rgA 0 0x10, 4), (rgA 0 0x40, 0x1201),
   (aSched 0 0, 0), (aSched 0 0 + 4, 0x01200041), (aSched 0 1, 2000), (aSched 0 1 + 4, 0x01200082),
   (aSched 0 2, 4000), (aSched 0 2 + 4, 0x01200224), (aSched 0 3, 8000), (aSched 0 3 + 4, 0x01205882)].foldl
    (fun t x => t.setReg x.1 x.2) base

/-- The part at the end of a stage of its start, with the straps w. -/
def stage (n : Nat) (w : Word) : State :=
  { State.reset with sup := { base.sup with stage := n } }.setReg 0x24 w

/-- A password word, and a part with the password 0x55 set. -/
def locked : State := setPfWord 0x1FF000 { data := 0x55, f1 := true } base
/-- A port of base with p in place of CP0's. -/
abbrev cp0 (p : Port) : State := { base with cp0 := p }
/-- An event entry. -/
abbrev ent (n : BitVec 16) : EvEntry := { seq := n, ts := 0, ev := { cls := .safePin, obj := .dev } }

/-! ### Witnesses: lines of the whole part -/

theorem base_ready : Ready l0 {} base ∧ Ready l7 {} base ∧ Ready l0 {} armed ∧ Ready l0 {} ringed ∧
    Ready { ep := .mail, origin := some { node := ⟨0x12, 3⟩, port := .cp0, bcast := false } } {} base := by decide +kernel

theorem meets_PortSettings : Ready l0 {} base ∧ Ready { ep := .cp1, tag := some 0 } {} base ∧
    (∀ r ∈ [9600, 12000000], r ∈ baudRates) ∧
    ∀ n ∈ [(10 : Int), 60000], qBad (qu n .ms) .ms = false ∧ 10 ≤ qSteps (qu n .ms) .ms 1 1000000 ∧
      qSteps (qu n .ms) .ms 1 1000000 ≤ 60000 := by decide +kernel

theorem meets_TimeDiscipline : Ready l0 {} base ∧ base.ringLive = false ∧ base.evNew = [] ∧ base.clk.disc = false ∧
    qBad (qu (-500) .ppm) .ppm = false ∧ (∀ n ∈ [(-5 : Int), 5], qBad (qu n .s) .s = false ∧ (qSteps (qu n .s) .s 2 5).natAbs ≤ 2000000000) ∧
    let s := { base with clk := { base.clk with slewing := true, slew := -214747 } }
    s.dead = false ∧ s.asleep = false ∧ s.sup.pllLock = true ∧ s.clk.slewing = true ∧ s.clk.disc = false ∧
    s.clk.slew.natAbs < 214748 ∧ s.evNew = [] := by decide +kernel

theorem meets_QueryLines : Ready l0 devForm base ∧ Ready l0 devForm (stage 2 0) ∧ Ready l0 { locked := false, replay := false } base ∧
    Ready l0 { locked := false } base ∧ Ready l0 { locked := false } { base with evq := [ent 5] } ∧ 7 < base.member.groups := by
  decide +kernel

theorem meets_WatchdogAndLock :
    Ready l0 { locked := false } (base.setFlag 0x30004 19 true) ∧ (base.setFlag 0x30004 19 true).flag 0x30004 19 = true ∧
    base.flag 0x30004 19 = false ∧ base.fenced .safe = false ∧
    (∀ n ∈ [(10 : Int), 600000], qBad (qu n .ms) .ms = false ∧ 10 ≤ qSteps (qu n .ms) .ms 1 1000000 ∧
      qSteps (qu n .ms) .ms 1 1000000 ≤ 600000) ∧
    Ready l0 { locked := false, secret := true } locked ∧ locked.pwSet = true ∧ locked.pwMatches 0x55 = true ∧
    locked.pwMatches 0x54 = false ∧ locked.pwFails < 3 ∧
    Ready l0 { locked := false, secret := true } { locked with pwFails := 3 } ∧ (stage 1 0).atStage 1 = true ∧
    ¬(locked.sup.inReset = true ∧ locked.sup.porHeld = true) := by decide +kernel

theorem meets_EventQueue : let q := [ent 4, ent 5, ent 6]
    Ready l0 { locked := false } { base with evq := q } ∧ q = [ent 4] ++ ent 5 :: [ent 6] ∧ (∀ y ∈ [ent 4], y.seq ≠ (ent 5).seq) ∧
    (∀ y ∈ q, y.seq.toNat ≠ 0xFFFF) ∧
    let s := { (base.setFlag (aCfg .cp1) 2 true).setFlag (aCfg .cp1) 0 true with evq := (ent 4).mark .cp1 :: ent 5 :: [ent 6] }
    s.serves .cp1 = true ∧ s.replaying = false ∧ s.flag (aCfg .cp1) 2 = true ∧ s.generated .cp1 = true ∧
    (∀ y ∈ [(ent 4).mark .cp1], y.sent .cp1 = true) ∧ (ent 5).sent .cp1 = false ∧
    (let u := { base.setFlag (aCfg .cp0) 2 true with evq := [ent 4] }
     u.serves .cp0 = true ∧ u.flag (aCfg .cp0) 2 = true ∧ u.generated .cp0 = false ∧ (u.port .cp0).typed = [] ∧ (u.port .cp0).rx = [] ∧
     u.waiting .cp0 = false) ∧
    let t : TagEntry := { tag := 7, origin := none, fp := 0, atRaw := 0, resp := none }
    ((cp0 { tags := [t] }).port .cp0).tags = [] ++ t :: [] ∧ (cp0 { tags := [t] }).dead = false := by decide +kernel

theorem meets_StartStages :
    let r := { State.reset with sup := { State.reset.sup with porHeld := false } }
    State.reset.sup.inReset = true ∧ State.reset.sup.porHeld = true ∧ r.sup.porHeld = false ∧ r.sup.inReset = true ∧
    ¬(base.sup.inReset = true ∧ base.sup.porHeld = true) ∧ ¬(r.sup.inReset = true ∧ r.sup.porHeld = true) ∧
    (stage 1 0x28000).atStage 1 = true ∧ (stage 1 0x28000).fld 0x24 15 3 = 5 ∧ (stage 1 0x30000).fld 0x24 15 3 = 6 ∧
    (stage 2 0).atStage 2 = true ∧ (stage 2 0).sup.vanaOk = true ∧ (stage 2 0).sup.s2Held = false ∧
    ({ stage 2 0 with sup := { (stage 2 0).sup with s2Held := true } } : State).atStage 2 = true ∧
    (stage 3 0).atStage 3 = true ∧ (stage 4 0).atStage 4 = true ∧ (toStage 5 (stage 4 0)).chosenSlot = none ∧
    (stage 5 0).atStage 5 = true ∧ (stage 6 0).atStage 6 = true ∧ (stage 7 0).atStage 7 = true ∧
    base.running = true ∧ base.asleep = false ∧ base.chrys.scanned = false ∧ base.fenced .chrys = false ∧
    base.fenced .rflash = false ∧ base.fenced .cvuF = false ∧
    let v := toStage 4 ((stage 3 0).setReg 0x30 ((stage 3 0).reg 0x30 ||| (stage 3 0).failedUnits 0x20))
    v.fenced .pll = false ∧ v.fenced .safe = false ∧ v.fenced .fabric = false ∧ v.fenced .skip = true := by decide +kernel

/-- A part at S4 that straps slot A, whose records are the end record alone. -/
def slotBody : State := setPfWord 0 { data := 0x00E0000000000000, f1 := true } (stage 4 0x80000)
/-- The same with a seal of the value c. -/
def slotSealed (c : BitVec 16) : State := setPfWord (sealA 0) { data := (0 : BitVec 16) ++ c ++ (0 : BitVec 32), f1 := true } slotBody

theorem sealed_crc (c : BitVec 16) : (slotSealed c).slotCrc 0 = slotBody.slotCrc 0 := by
  have h : ∀ i ∈ List.range 0x7FFF, bytes64 ((slotSealed c).pfWord (slotA 0 + 8 * i)).data =
      bytes64 (slotBody.pfWord (slotA 0 + 8 * i)).data := by
    intro i hi
    have hi := List.mem_range.mp hi
    have e : (slotSealed c).pfWord (slotA 0 + 8 * i) = slotBody.pfWord (slotA 0 + 8 * i) := by
      unfold State.pfWord slotSealed setPfWord
      refine sget_sset_other _ _ _ _ _ _ ?_
      show (slotA 0 + 8 * i) / 8 ≠ sealA 0 / 8
      have h1 : slotA 0 = 0 := rfl
      have h2 : sealA 0 / 8 = 0x7FFF := by decide
      omega
    rw [e]
  unfold State.slotCrc
  rw [List.flatMap_def, List.flatMap_def, List.map_congr_left h]

theorem sealed_value (c : BitVec 16) : (((0 : BitVec 16) ++ c ++ (0 : BitVec 32)).extractLsb' 32 16) = c := by
  apply BitVec.eq_of_getLsbD_eq
  intro i hi
  rw [BitVec.getLsbD_extractLsb', BitVec.getLsbD_append, BitVec.getLsbD_append]
  have h1 : ¬ (32 + i < 32) := by omega
  have h2 : 32 + i - 32 = i := by omega
  simp [h1, h2, hi]

theorem sealed_word (c : BitVec 16) :
    (slotSealed c).pfWord (sealA 0) = { data := (0 : BitVec 16) ++ c ++ (0 : BitVec 32), f1 := true } :=
  sget_sset_same (fun _ => {}) slotBody.pf.words (sealA 0 / 8) _ (by decide +kernel)

theorem sealed_ok (c : BitVec 16) (h : slotBody.slotCrc 0 = c) (hb : (slotSealed c).slotBad 0 = []) : (slotSealed c).sealOk 0 = true := by
  unfold State.sealOk State.sealed
  rw [sealed_crc, sealed_word, h, hb]
  simp only [sealed_value, Bool.true_and, decide_true, Bool.and_true]
  rfl

theorem sealed_words (c : BitVec 16) : (slotSealed c).pf.words =
    [(0, { data := 0x00E0000000000000, f1 := true }), (0x7FFF, { data := (0 : BitVec 16) ++ c ++ (0 : BitVec 32), f1 := true })] := by
  have e : (slotSealed c).pf.words = sset {} [(0, { data := 0x00E0000000000000, f1 := true })] (sealA 0 / 8)
      { data := (0 : BitVec 16) ++ c ++ (0 : BitVec 32), f1 := true } := rfl
  have n : ({ data := (0 : BitVec 16) ++ c ++ (0 : BitVec 32), f1 := true } : PWord) ≠ {} := fun h => absurd (show true = false from congrArg PWord.f1 h) (by decide)
  rw [e, sset, if_neg n]
  rfl

theorem meets_profile_slot : ∃ s slot, s.atStage 4 = true ∧ (toStage 5 s).chosenSlot = some slot := by
  refine ⟨slotSealed (slotBody.slotCrc 0), 0, rfl, ?_⟩
  have b : (slotSealed (slotBody.slotCrc 0)).slotBad 0 = [] := by
    unfold State.slotBad
    rw [sealed_words]
    rfl
  have h := sealed_ok _ rfl b
  have e : (toStage 5 (slotSealed (slotBody.slotCrc 0))).sealOk 0 = (slotSealed (slotBody.slotCrc 0)).sealOk 0 := rfl
  have w : (toStage 5 (slotSealed (slotBody.slotCrc 0))).blank.pfWord (slotA 0 + 0) = { data := 0x00E0000000000000, f1 := true } := by
    show sget {} (slotSealed (slotBody.slotCrc 0)).pf.words 0 = _
    rw [sealed_words]
    rfl
  have r : (toStage 5 (slotSealed (slotBody.slotCrc 0))).regs = slotBody.regs := rfl
  generalize slotBody.slotCrc 0 = c at h e w r
  have f : (toStage 5 (slotSealed c)).fenced .pflash = slotBody.fenced .pflash := by simp only [State.fenced, State.flag, State.reg, r]
  have g : (toStage 5 (slotSealed c)).fenced .shadow = slotBody.fenced .shadow := by simp only [State.fenced, State.flag, State.reg, r]
  have p : (toStage 5 (slotSealed c)).fld 0x24 18 2 = slotBody.fld 0x24 18 2 := by simp only [State.fld, State.reg, r]
  have l : (loadSlot 0 (toStage 5 (slotSealed c)).blank).isSome = true := by
    have q : (toStage 5 (slotSealed c)).blank.records 0 = some [] := by
      show (toStage 5 (slotSealed c)).blank.parseRecords 0 (0x7FFF + 1) 0 = _
      rw [State.parseRecords, w]
      rfl
    rw [loadSlot, q]
    rfl
  unfold State.chosenSlot
  rw [f, g, p, show slotBody.fenced .pflash = false by decide +kernel, show slotBody.fenced .shadow = false by decide +kernel,
    show slotBody.fld 0x24 18 2 = 2 by decide +kernel]
  simp only [Bool.or_self, Bool.false_eq_true, if_false, e, h, l, Nat.sub_self, Bool.and_self, if_true]

theorem meets_ResetsAndSupplies : base.sup.inReset = false ∧ base.sup.vcoreOk = true ∧ base.sup.vioOk = true ∧
    base.sup.resetLow = false ∧ base.dead = false ∧ State.reset.sup.inReset = true ∧ State.reset.reg 0x28 = 1 ∧
    State.reset.sup.resetLow = false ∧ Memory.wf base = true ∧ (base.gr 0).vf = true ∧
    (let s := { State.reset with sup := { State.reset.sup with vcoreOk := true, vioOk := true } }
     s.sup.inReset = true ∧ s.sup.vcoreOk = true ∧ s.sup.vioOk = true) ∧
    base.sup.vanaOk = !false ∧ base.sup.vdramOk = !false ∧ State.reset.sup.vanaOk = !true ∧ base.sup.holdupLow = false ∧
    State.reset.sup.holdupLow = false ∧ State.reset.dead = true ∧
    (∀ s ∈ [base, State.reset], { s with sup := { s.sup with holdupLow := true } }.sup.holdupLow = true ∧
      { s with sup := { s.sup with holdupLow := true } }.dead = s.dead) := by
  decide +kernel

theorem meets_FencingUnits : base.dead = false ∧ base.asleep = false ∧ runChecked .cp0 = true ∧ runChecked (.grp 7 .temp) = true ∧
    cvuNum .cvuL0 = some 0 ∧ cvuNum .cvuF = some 6 ∧ base.hasUnit .cvuF = true ∧ base.fenced .cvuF = false ∧
    base.flashRuns = true ∧ base.pfBusy 1 = false ∧ Memory.wf base = true ∧ Un.pll.fenceBit = some (0x30, 0) ∧
    Un.safe.fenceBit = some (0x30, 19) ∧ base.hasUnit .pll = true ∧ base.fenced .pll = false ∧ base.fenced .safe = false ∧
    base.sup.floor = false := by decide +kernel

/-- A line of node 12.05 that came by MAIL. -/
abbrev lm : Line := { ep := .mail, origin := some { node := ⟨0x12, 5⟩, port := .cp0, bcast := false }, tag := some 7 }

theorem meets_DevReset : Ready l7 devForm base ∧ (accepted l7 devForm base).resetRepeats l7 = false ∧
    (let a := accepted lm devForm ringed
     Ready lm devForm ringed ∧ a.resetRepeats lm = false ∧ answerSentBy lm a (answer lm .ok { a with sup := { a.sup with
       resetTag := some { ep := lm.ep, origin := lm.origin, tag := 7, due := true } } }) = some 0) ∧
    let s := { base with sup := { base.sup with resetTag := some { ep := .cp0, origin := none, tag := 7, ran := 240000000000 } } }
    Ready l7 devForm s ∧ (accepted l7 devForm s).resetRepeats l7 = true := by decide +kernel

theorem meets_PortBytes : fifoBytes [RxSym.b 0x41] ≤ 1024 ∧
    (let s := { base.setFlag (aCfg .cp0) 0 true with cp0 := { rx := [.b 0x41] } }
     s.serves .cp0 = true ∧ s.generated .cp0 = true ∧ (fifoByte 0x42 (s.port .cp0)).2 = false ∧ openLine (s.port .cp0).rx ≠ []) ∧
    (let line := List.replicate 255 (RxSym.b 0x41) ++ [.b 13]
     (fifoByte 0x42 { rx := line ++ line ++ line ++ line }).2 = true) ∧
    (let s := cp0 { typed := [0x6B] }
     s.serves .cp0 = true ∧ s.generated .cp0 = false ∧ (s.port .cp0).typed.length < 255 ∧ (s.port .cp0).typed ≠ [] ∧
     (s.port .cp0).crSeen = false) ∧
    255 ≤ ((cp0 { typed := List.replicate 255 0x41 }).port .cp0).typed.length ∧ ((cp0 {}).port .cp0).typed = [] ∧
    ((cp0 { crSeen := true }).port .cp0).crSeen = true := by
  decide +kernel

theorem meets_RemoteLines : let f : Form := { locked := false }
    let txt := textBytes "kick"
    Ready l7 f ringed ∧ (accepted l7 f ringed).remoteErr l7 ⟨0x12, 5⟩ txt = none ∧ (accepted l7 f ringed).route ⟨0x12, 5⟩ = some 0 ∧
    (let x : Outst := { id := 0, dst := ⟨0x12, 5⟩, tag := some 7, crc := false }
     let s := cp0 { remote := [x] }
     s.running = true ∧ s.asleep = false ∧ (s.port .cp0).remote.find? (fun y => decide (y.id = x.id)) = some x) ∧
    (∀ v ∈ [BVerb.kick, .safe, .sync [], .sync [0, 7]], Ready l7 (castForm v) ringed ∧
      ∀ p ∈ castChecks v (accepted l7 (castForm v) ringed), p.2 = false) ∧
    (∀ g ∈ [0, 7], g < ringed.member.groups) ∧ Ready l7 (castForm (.other true false)) ringed := by decide +kernel

theorem meets_ReadsAndWrites : base.serves .cp0 = true ∧ base.waiting .cp0 = false ∧ suffixErr l0 (rdCore 0x5C 2) base = none ∧ findTag l0 base = none ∧
    (∀ a ∈ [(0x40, 8), (grA 0 0x100, 16), (0, 1)], suffixErr l0 (rdCore a.1 a.2) base = none ∧
      rdErr l0 a.1 a.2 (accepted l0 { locked := false, core := rdCore a.1 a.2 } base) = none) ∧
    rdErr l0 0x5C 1 (accepted l0 { locked := false, core := rdCore 0x5C 1 } base) = none ∧
    Ready l0 { replay := !(taken l0 base).editAt 0x20000, secret := false } base ∧
    (∀ p ∈ wrChecks 0x20000 1 (accepted l0 { secret := false } base), p.2 = false) ∧
    (∀ p ∈ wrChecks (chA 0 0x44) 5 (accepted l0 { secret := false } base), p.2 = false) := by decide +kernel

theorem no_bank_waits : ∀ b, base.pfWho b = none := fun _ => rfl

theorem meets_SplitPairs : base.serves .cp0 = true ∧ base.waiting .cp0 = false ∧ findTag l0 base = none ∧
    (∀ p ∈ [Pair.clk, .count 1, .div], let a := accepted l0 { locked := false, core := rdCore (pairLo p) 1 } base
      suffixErr l0 (rdCore (pairLo p) 1) base = none ∧ rdErr l0 (pairLo p) 1 a = none ∧ a.pairAt (pairLo p) = some (p, false) ∧
      suffixErr l0 (rdCore (pairLo p + 4) 1) base = none ∧
      rdErr l0 (pairLo p + 4) 1 (accepted l0 { locked := false, core := rdCore (pairLo p + 4) 1 } base) = none ∧
      (accepted l0 { locked := false, core := rdCore (pairLo p + 4) 1 } base).pairAt (pairLo p + 4) = some (p, true)) ∧
    ((cp0 { rdShadow := some { pair := .count 1, high := 9, used := false } }).port .cp0).rdShadow =
      some { pair := .count 1, high := 9, used := false } ∧ (base.port .cp0).rdShadow = none ∧
    Ready l0 {} (cp0 { wrShadow := some (.count 1, 5) }) ∧ (base.port .cp0).wrShadow = none ∧
    ∀ d ∈ [0, 4], let a := accepted l0 {} base
      (∀ q ∈ wrChecks (chA 1 0x48 + d) 3 a, q.2 = false) ∧ a.access (chA 1 0x48 + d) ≠ some .seq ∧
      a.access (chA 1 0x48 + d) ≠ some .trail ∧ a.pairAt (chA 1 0x48 + d) = some (.count 1, decide (d = 4)) := by decide +kernel

theorem meets_RefusedLines : let e : TagEntry := { tag := 7, origin := none, fp := 0, atRaw := 0, resp := some (.loc .ok) }
    invB base = true ∧ base.serves .cp0 = true ∧ base.waiting .cp0 = false ∧ suffixErr l0 true base = none ∧ suffixErr l0 false base = none ∧
    findTag l0 base = none ∧ pick (baseChecks { l0 with argOk := false } { locked := false } base) = some .arg ∧
    findTag l7 (cp0 { tags := [e] }) = some e ∧ e.fp = l7.fp ∧ { l7 with fp := 1 }.fp ≠ e.fp ∧
    invB (cp0 { tags := [e] }) = true := by decide +kernel

theorem meets_RefusedLines_text : (∀ x ∈ ([1, 31, 127] : List Byte), x ≠ 9 ∧ (x < 0x20 ∨ 0x7E < x)) ∧
    splitLine (cp0 { rx := [.b 31, .b 13] }).cp0.rx = some ([.b 31], []) ∧
    splitLine (cp0 { rx := [.lost, .b 0x20, .b 10] }).cp0.rx = some ([.lost, .b 0x20], []) ∧
    splitLine (cp0 { rx := [.b 0x20, .b 9, .b 13] }).cp0.rx = some ([.b 0x20, .b 9], []) ∧
    splitLine (cp0 { rx := List.replicate 256 (.b 0x20) ++ [.b 13] }).cp0.rx = some (List.replicate 256 (.b 0x20), []) ∧
    255 < (symBytes (List.replicate 256 (.b 0x20))).length ∧ isSep 0x20 = true ∧ isSep 9 = true := by decide +kernel

/-! ### Witnesses: safe states, groups and digital channels -/

theorem meets_CausesHeld : Memory.wf base = true ∧ base.fenced .safe = false ∧
    (∀ b ∈ [2, 15], base.flag 0x30004 (16 + b) = false ∧ base.flag (aSafeGrp 0) (16 + b) = false ∧ base.flag (aSafeGrp 7) (16 + b) = false) ∧
    isOut (base.mode 2) = true ∧ 2 / 16 = 0 := by decide +kernel

/-- base with the output on channel 2 on, of kind HOLD, as the latch holds it. -/
def hold2 : State := aux 2 (fun a => { a with latch := { a.latch with safe := 3 } }) (setOut 2 1 base)

theorem meets_BarrierLink : base.linkLive 0 = true ∧ base.replaying = false ∧ base.itemFrom 0 = true ∧
    (base.gr 0).vf = true ∧ (base.gr 0).acts = false ∧ Memory.wf base = true ∧
    ((base.setGr 0 { base.gr 0 with acts := true }).gr 0).acts = true ∧ (hold2.gr 0).acts = false ∧ Memory.wf hold2 = true ∧
    bits (hold2.ch 2).latch.safe 0 2 = 3 ∧ isOut (hold2.feMode 2) = true ∧ hold2.chst 2 ≠ 2 ∧ (hold2.drive 2).2 = 1 := by
  decide +kernel

theorem meets_GroupSupply : base.dead = false ∧ base.sup.crawl = false ∧ base.linkLive 0 = true ∧ base.unpowered 1 = true ∧
    base.gFenced 1 .link = false ∧ (base.gr 1).vf = false ∧ Memory.wf base = true ∧
    (let s := base.setFlag (aGstat 0) 1 false
     s.linkLive 0 = false ∧ (s.gr 0).vf = true) ∧
    (let s := { base with sup := { base.sup with crawl := true } }
     s.sup.crawl = true ∧ (s.gr 1).vf = false) ∧
    (let s := base.setGr 0 { base.gr 0 with bringing := true, lost := true, fails := [0, 0] }
     (s.gr 0).bringing = true ∧ s.retraining 0 = true ∧ Memory.wf s = true ∧
     2 ≤ ((s.gr 0).fails.filter fun x => decide (s.clk.raw < x + 4000000000)).length) ∧
    (let s := (aux 2 (fun a => { a with latch := { a.latch with held := some 1 } }) base).setGr 0 { base.gr 0 with acts := true }
     (s.gr (2 / 16)).acts = true ∧ (s.ch 2).latch.held ≠ none ∧ 2 < s.member.channels) ∧
    (let s := (aux 2 (fun a => { a with holding := true }) base).setFld (chA 2 4) 0 2 3
     let t := s.setReg (aChst 2) 1
     t.holdRuns 2 = true ∧ (t.gr (2 / 16)).acts = false ∧ Memory.wf t = true) := by decide +kernel

theorem meets_GroupAndArmLines : Ready l0 { locked := false } base ∧ base.sup.armed = false ∧ Ready l0 { locked := false } armed ∧
    armed.sup.armed = true ∧ Ready l0 {} base ∧ base.gFenced 0 .link = false ∧ base.unpowered 0 = false ∧ base.retraining 0 = false ∧
    (let s := base.setGr 0 { base.gr 0 with lost := true }
     Ready l0 {} s ∧ s.retraining 0 = true ∧ s.unpowered 0 = false ∧ s.gFenced 0 .link = false) := by decide +kernel

theorem meets_ChannelLines : Ready l0 {} base ∧ base.sup.armed = false ∧ 0 < base.member.groups ∧
    base.flag (chA 2 0) 5 = false ∧ base.dohSumWith 0 2 (10 * base.fld (chA 2 0x140) 0 8) ≤ 12000 ∧
    isOut (base.mode 2) = true ∧ isOut (base.mode 9) = true ∧ kindOk (base.mode 2) 0 (base.flag (chA 2 0) 7) = true ∧
    kindOk 3 1 true = true ∧ (base.setFlag (chA 2 0) 7 true).mode 2 = 3 ∧ kindOk (base.mode 9) 2 false = true ∧
    kindOk (base.mode 2) 3 false = true ∧
    (∀ p ∈ [(8, qu 24 .mA), (8, qu 0 .mA), (9, qu 0 .V), (9, { num := 105, dec := 1, unit := some .V })],
      qBad p.2 (aoUnit p.1) = false ∧ 0 ≤ aoSteps p.1 p.2 ∧ aoSteps p.1 p.2 ≤ aoMax p.1) ∧
    base.mode 8 = 8 ∧ base.mode 9 = 9 ∧
    (let q : Qty := { num := 655350, dec := 3, unit := some .s }
     qBad q .s = false ∧ qSteps q .s 1 100000000 ≤ 65535) ∧ qSteps { num := 1, dec := 1, unit := some .s } .s 1 100000000 = 1 ∧
    Ready l0 { locked := false } base ∧ base.flag (chA 2 0) 6 = false ∧ isAo (base.mode 2) = false ∧ isAo (base.mode 8) = true ∧
    (let q : Qty := { num := 10, dec := 1 }
     q.unit = none ∧ q.num % 10 ^ q.dec = 0 ∧ roundDiv q.num (10 ^ q.dec) = 1) ∧
    (let s := aux 2 (fun a => { a with isApplied := false }) base
     s.groupUp 0 = true ∧ (s.ch 2).isApplied = false ∧ s.dead = false) := by decide +kernel

theorem meets_DigitalLines : Ready l0 {} base ∧ isDi (base.mode (c0 0).n) = true ∧ base.mode (c0 1).n = 2 ∧
    (∀ n ∈ [(2 : Int), 28], qBad (qu n .V) .V = false ∧ 20 ≤ qSteps (qu n .V) .V 1 100 ∧ qSteps (qu n .V) .V 1 100 ≤ 280) ∧
    (∀ n ∈ [(200 : Int), 2000], 2 ≤ qSteps (qu n .mV) .V 1 100 ∧ qSteps (qu n .mV) .V 1 100 ≤ 20) ∧
    (∀ n ∈ [(0 : Int), 65535], qBad (qu n .us) .us = false ∧ 0 ≤ qSteps (qu n .us) .us 1 1000 ∧ qSteps (qu n .us) .us 1 1000 ≤ 65535) ∧
    (∀ n ∈ [(1 : Int), 65535], qBad (qu n .s) .s = false ∧ 1 ≤ qSteps (qu n .s) .s 1 1000000000 ∧
      qSteps (qu n .s) .s 1 1000000000 ≤ 65535) := by decide +kernel

theorem meets_StoredConfigurations : Memory.wf base = true ∧ bits (0x33 : Word) 0 2 = 3 ∧ bits (0x2 : Word) 0 2 = 2 ∧
    bits (0x18 : Word) 3 2 = 3 ∧ bits (0x8 : Word) 3 2 ≠ 3 ∧ bit (0 : Word) 3 = false := by decide +kernel

theorem meets_CountArithmetic : Memory.wf base = true ∧ (base.ch 1).baseOk = false ∧
    (let at_ (k : BitVec 16) (s : State) : State := takeCount 1 (aux 1 (fun a => { a with cnt16 := k }) s)
     (at_ 5 base).liveCount 1 = 0 ∧ (at_ 3 (at_ 5 base)).liveCount 1 = 0xFFFE) ∧
    base.mode 1 = 2 ∧ base.counts 1 true = true ∧ base.counts 1 false = false := by decide +kernel

theorem meets_DigitalEvents : base.diLive 0 = true ∧ base.diLive 1 = true ∧ base.flag (chA 0 0x50) 0 = !true ∧
    (base.ch 0).run = none ∧ base.itemFrom 0 = true ∧
    (let s := aux 0 (fun a => { a with raw := true, run := some 9 }) base
     s.diLive 0 = true ∧ s.flag (chA 0 0x50) 0 = !true ∧ ((s.ch 0).raw != s.invert 0) = true) ∧
    (let s := aux 0 (fun a => { a with raw := false, run := some 9 }) base
     s.diLive 0 = true ∧ (s.ch 0).run ≠ none ∧ ((s.ch 0).raw != s.invert 0) = !true) ∧
    (base.setFlag (chA 0 0x40) 3 true).diLive 0 = true ∧ base.flag (aStat 0) 16 = false ∧
    ((base.setFlag (chA 0 0x40) 3 true).setFlag (aStat 0) 16 true).diLive 0 = true ∧ base.mode 1 = 2 ∧
    (5 : BitVec 16) ≠ (base.ch 1).cnt16 ∧ some 7 ≠ (base.ch 1).edgeTs ∧
    (let s := { (base.setFlag (chA 1 0x5C) 31 true).setFld (chA 1 0x5C) 0 16 1 with sup := { base.sup with profSrc := 1 } }
     s.dead = false ∧ s.fld (chA 1 0x5C) 0 16 ≠ 0 ∧ s.persists 1 = true) := by decide +kernel

theorem meets_SkipLines : Ready l0 {} base ∧ Ready l0 { locked := false } base ∧ 31 < base.member.reflexes ∧ base.sup.armed = false ∧
    isDi (base.mode (c0 0).n) = true ∧ base.skSrc 0 < base.member.channels ∧ isDi (base.mode (base.skSrc 0)) = true ∧
    qBad (qu 0 .us) .us = false ∧ qBad (qu 65535 .us) .us = false ∧ qSteps (qu 65535 .us) .us 1 100 = 655350 ∧
    qSteps { num := 1, dec := 1, unit := some .us } .us 1 100 = 1 ∧ base.mode (c0 2).n = 3 ∧ base.mode (c0 3).n = 4 ∧
    skTime (qu 50 .ns) = 1 ∧ skTime { num := 214748364750, dec := 3, unit := some .us } = 2 ^ 32 - 1 := by decide +kernel

theorem meets_SkipEvents :
    (let s := base
     s.diLive 0 = true ∧ s.fenced .skip = false ∧ (s.ch 0).fire = none ∧ (true != s.invert 0) ≠ s.flag (chA 0 0x50) 0 ∧
     (false != s.invert 0) = s.flag (chA 0 0x50) 0) ∧
    (let s := aux 0 (fun a => { a with fire := some { level := true, ts := 9, acts := [] } }) base
     s.diLive 0 = true ∧ (s.ch 0).fire ≠ none ∧ (true != s.invert 0) ≠ s.flag (chA 0 0x50) 0) ∧
    (base.setFlag 0x30 5 true).diLive 0 = true ∧ (base.setFlag 0x30 5 true).fenced .skip = true ∧
    ([(3 : Word), 0x2000, 0x2002].all fun w =>
      let h : SkipHold := { k := 0, val := true, ts := 0, src := 0, lev := true, act := w }
      let s := aux 2 (fun a => { a with hold := some h }) base
      decide ((s.ch 2).hold = some h) && decide (bits w 0 3 = 3 ∨ (bits w 0 3 ≤ 2 ∧ bits w 12 2 = 2)) && Memory.wf s) = true := by
  decide +kernel

theorem meets_ReflexPrecedence :
    (let s := (base.setReg (skA 0 4) 0x20).setReg (skA 31 4) 0x120
     Memory.wf s = true ∧ bits (s.skAct 0) 0 3 ≤ 3 ∧ actTarget (s.skAct 0) = 2 ∧ s.powered 0 = true ∧ s.linkUp 0 = true ∧
     (s.gr 0).acts = false ∧ s.chst 2 = 0 ∧ (s.ch 2).hold = none ∧ actTarget (s.skAct 31) / 16 = 1 ∧
     s.powered 1 = false ∧ ((s.setGr 0 { s.gr 0 with acts := true }).gr 0).acts = true) ∧
    (let h : SkipHold := { k := 0, val := true, ts := 5, src := 0, lev := true, act := 0x20 }
     let s := aux 2 (fun a => { a with hold := some h }) (base.setReg (skA 1 4) 0x20)
     (s.ch 2).hold = some h ∧ (5 : BitVec 64) = h.ts ∧ h.k < 1 ∧ (4 : BitVec 64).toNat < h.ts.toNat) := by decide +kernel

/-- base with the switch on channel 2 on. -/
def on2 : State := setOut 2 1 base

/-- on2 with a cold fuse model and no current. -/
def cold2 : State := (aux 2 (fun a => { a with heat := some 0 }) on2).setFld (chA 2 0x14C) 0 16 0

theorem meets_OutputProtection :
    base.dofLive 3 = true ∧ base.flag (aStat 3) 16 = false ∧ (base.setFlag (aStat 3) 16 true).dofLive 3 = true ∧
    base.flag (aStat 3) 18 = false ∧ base.gFenced 0 .sar = false ∧ base.dofDisagrees 3 = false ∧
    (base.setFlag (aStat 3) 18 true).dofLive 3 = true ∧ (base.setFlag (aStat 3) 18 true).dofDisagrees 3 = false ∧
    (base.setReg (grA 0 0x10C) 1000).dofLive 3 = true ∧ (base.setReg (grA 0 0x10C) 1000).dofDisagrees 3 = true ∧
    on2.dohLive 2 = true ∧ on2.gate 2 = true ∧ on2.flag (aStat 2) 16 = false ∧ on2.dohSampled 2 = true ∧ on2.dohClocked 2 = true ∧
    (let s := (on2.setFlag (aStat 2) 24 true).setFlag (aStat 2) 23 false
     s.dohClocked 2 = true ∧ s.gate 2 = true ∧ s.flag (aStat 2) 24 = true ∧ s.flag (aStat 2) 23 = false ∧ s.flag (aStat 2) 16 = false) ∧
    cold2.dohSampled 2 = true ∧ cold2.stepTrips 2 0 = false ∧ cold2.fuseRow 2 = some (2, 36 / 25) ∧
    (let s := aux 2 (fun a => { a with heat := some (36 / 25) }) on2
     s.dohSampled 2 = true ∧ s.stepTrips 2 0xFFFF = true ∧ Memory.wf s = true) ∧
    (∀ h ∈ [0, (36 : Rat) / 25], let s := aux 2 (fun a => { a with heat := some h }) (base.setFlag (aStat 2) 16 true)
     s.dohSampled 2 = true ∧ s.flag (aStat 2) 16 = true ∧ s.flag (aStat 2) 20 = false ∧ s.cool 2 = decide (h = 0)) ∧
    (on2.setFld (chA 2 0x140) 8 3 6).fuseRow 2 = none ∧
    (∀ h ∈ [0, (36 : Rat) / 25], let t := (base.setFlag (aStat 2) 16 true).setFlag (aStat 2) 20 true
     let s := aux 2 (fun a => { a with heat := some h, clearReq := true }) t
     s.dohSampled 2 = true ∧ s.flag (aStat 2) 20 = true ∧ (s.ch 2).clearReq = true ∧ s.fld (aStat 2) 17 3 ≠ 4 ∧
     s.cool 2 = decide (h = 0)) ∧
    (on2.setFlag (aStat 2) 24 true).flag (aStat 2) 24 = true ∧ (on2.setFlag (aStat 2) 23 true).flag (aStat 2) 23 = true ∧
    (let s := (base.setFlag (chA 2 0x148) 8 true).setReg (grA 0 0x148) 1000
     s.dohSampled 2 = true ∧ s.flag (chA 2 0x148) 8 = true ∧ s.gate 2 = false ∧ s.flag (aStat 2) 21 = false ∧ 4000 < s.dohMv 2) ∧
    (let s := (base.setFlag (chA 2 0x148) 8 true).setFlag (aStat 2) 21 true
     s.dohSampled 2 = true ∧ s.gate 2 = false ∧ s.flag (aStat 2) 21 = true ∧ s.dohMv 2 < 3000) ∧
    (let s := (on2.setFld (chA 2 0x148) 0 8 5).setFlag (aStat 2) 23 false
     s.dohSampled 2 = true ∧ s.gate 2 = true ∧ s.flag (aStat 2) 23 = false ∧ s.flag (aStat 2) 22 = false ∧
     s.fld (chA 2 0x148) 0 8 ≠ 0 ∧ s.fld (chA 2 0x14C) 0 16 < s.fld (chA 2 0x148) 0 8) ∧
    (let s := (((on2.setFld (chA 2 0x148) 0 8 5).setFlag (aStat 2) 23 false).setFlag (aStat 2) 22 true).setFld (chA 2 0x14C) 0 16 5
     s.dohSampled 2 = true ∧ s.gate 2 = true ∧ s.flag (aStat 2) 22 = true ∧
     s.fld (chA 2 0x148) 0 8 ≤ s.fld (chA 2 0x14C) 0 16) := by decide +kernel

theorem meets_TripEffect : Memory.wf on2 = true ∧ on2.mode 2 = 3 ∧ on2.flag (aStat 2) 20 = false ∧
    (let s := (aux 2 (fun a => { a with heat := some 1 }) on2).setFlag (aStat 2) 20 true
     s.flag (aStat 2) 20 = true ∧ (s.cool 2 && s.otClear 2) = false ∧ Memory.wf s = true) := by decide +kernel

/-! ### Witnesses: switches, analogue channels, conversion, safe states -/

theorem meets_LoadSwitchLines : Ready l0 {} base ∧ base.mode (c0 2).n = 3 ∧ base.sup.armed = false ∧ Ready l0 {} armed ∧
    (∀ q ∈ [qu 100 .mA, qu 2 .A], qBad q .A = false ∧ 10 ≤ qSteps q .A 1 10000 ∧ qSteps q .A 1 10000 ≤ 200 ∧
      base.dohSumWith 0 2 (10 * (qSteps q .A 1 10000).toNat) ≤ 12000) ∧
    wireCode { num := 25, dec := 2 } = some 0 ∧ wireCode { num := 25, dec := 1 } = some 5 ∧
    (∀ p ∈ [(qu 1 .ms, ({ num := 1 } : Qty)), (qu 200 .ms, { num := 4 })], qBad p.1 .ms = false ∧ 1 ≤ qSteps p.1 .ms 1 1000000 ∧
      qSteps p.1 .ms 1 1000000 ≤ 200 ∧ 10 ≤ roundDiv (p.2.num * 10) (10 ^ p.2.dec) ∧ roundDiv (p.2.num * 10) (10 ^ p.2.dec) ≤ 40) ∧
    (∀ q ∈ [qu 500 .mA, qu 8 .A], 5 ≤ qSteps q .A 1 100000 ∧ qSteps q .A 1 100000 ≤ 80) ∧
    (∀ q ∈ [qu 5 .mA, qu 200 .mA], 5 ≤ qSteps q .A 1 1000 ∧ qSteps q .A 1 1000 ≤ 200) := by decide +kernel

/-- base with the output on channel 8 at 12 mA, its readback a at x µA. -/
def out8 (x : Word) : State := (setOut 8 32000 base).setReg (chA 8 0x348) x

theorem meets_AnalogueEvents :
    base.converts 4 = true ∧ base.itemFrom 0 = true ∧ base.mode 4 = 5 ∧ base.flag (aStat 4) 20 = false ∧
    (base.setFlag (chA 4 0x240) 0 true).converts 4 = true ∧ (base.setFlag (chA 4 0x240) 0 true).flag (chA 4 0x240) 0 = true ∧
    base.converts 8 = true ∧ isAo (base.mode 8) = true ∧ base.gFenced 0 .mod = false ∧ base.gFenced 0 .sar = false ∧
    base.flag (aGstat 0) 2 = false ∧
    (let s := (out8 0).setFlag (aStat 8) 19 false
     s.flag (aStat 8) 19 = false ∧ s.aoOff 8 = false ∧ s.deviates 8 = true ∧ s.flag (aStat 8) 16 = false ∧ s.disagrees 8 = false) ∧
    (let s := ((out8 12000000).setFlag (aStat 8) 19 false).setFlag (aStat 8) 16 true
     s.aoOff 8 = false ∧ s.deviates 8 = false ∧ s.flag (aStat 8) 16 = true ∧ s.disagrees 8 = true ∧ s.flag (aStat 8) 17 = false) ∧
    (let s := ((out8 0).setFlag (aStat 8) 19 false).setFlag (aStat 8) 17 true
     s.disagrees 8 = false ∧ s.flag (aStat 8) 17 = true ∧ s.flag (aStat 8) 19 = false ∧ s.converts 8 = true) := by
  decide +kernel

theorem meets_AnalogueLines : Ready l0 {} base ∧ base.sup.armed = false ∧ base.mode (c0 4).n = 5 ∧ base.mode (c0 5).n = 6 ∧
    base.mode (c0 6).n = 7 ∧ isAo (base.mode (c0 9).n) = true ∧
    excCode (qu 250 .uA) = some 1 ∧ excCode (qu 1 .mA) = some 0 ∧ qBad (qu 1 .mA) .A = false ∧
    (∀ q ∈ [qu 0 .ohm, { num := 65535, dec := 3, unit := some .ohm }], qBad q .ohm = false ∧ 0 ≤ qSteps q .ohm 1000 1 ∧
      qSteps q .ohm 1000 1 ≤ 65535) ∧
    (∀ q ∈ [qu 10 .ms, qu 10 .s], qBad q .ms = false ∧ 10 ≤ qSteps q .ms 1 1000000 ∧ qSteps q .ms 1 1000000 ≤ 10000) ∧
    (∀ n ∈ [(2 : Int), 100], let p : Qty := { num := n, dec := 1, unit := some .percent }
      qBad p .percent = false ∧ 2 ≤ qSteps p .percent 1 1000 ∧ qSteps p .percent 1 1000 ≤ 100) ∧
    qSteps { num := 6, dec := 1, unit := some .percent } .percent 1 1000 = 6 ∧ qSteps (qu 5 .percent) .percent 1 1000 = 50 := by
  decide +kernel

theorem meets_ConversionResults : Memory.wf base = true ∧ invB base = true ∧
    (∀ n ∈ [4, 5, 6, 8], base.delivers n = true ∧ base.converts n = true) ∧ base.dead = false ∧ base.sup.crawl = false ∧
    base.gFenced 0 .mod = false ∧ base.mode 4 = 5 ∧ base.mode 5 = 6 ∧ base.nSettle 4 = 3 ∧
    min 5 ((base.ch 4).conv.outs + 1) < base.nSettle 4 ∧
    (let s := aux 4 (fun a => { a with conv := { a.conv with outs := 2 } }) base
     s.nSettle 4 ≤ min 5 ((s.ch 4).conv.outs + 1) ∧ s.delivers 4 = true ∧ invB s = true) := by decide +kernel

/-- base with the window 100 to 200, hysteresis 50, on channel 4 in band b, which has met j results for band k. -/
def win (b k j : Nat) : State :=
  aux 4 (fun a => { a with conv := { a.conv with winTo := k, winN := j } })
    ((((base.setReg (chA 4 0x88) 0x20001).setReg (chA 4 0x8C) 100).setReg (chA 4 0x90) 200).setReg (chA 4 0x94) 50 |>.setFld (chA 4 0x98) 0 2 b)

theorem meets_WindowBands : Memory.wf (win 1 0 1) = true ∧ (win 1 0 1).flag (chA 4 0x88) 0 = true ∧
    (win 1 0 1).gFenced 0 .mod = false ∧ ((win 1 0 1).reg (chA 4 0x94)).toNat = 50 ∧
    (win 1 0 1).winChange 4 149 = 3 ∧ (win 1 0 1).winChange 4 150 = 0 ∧ (win 1 0 1).fld (chA 4 0x88) 16 8 = 2 ∧
    ((win 1 0 1).ch 4).conv.winTo = 0 ∧ ((win 1 0 1).ch 4).conv.winN + 1 = 2 ∧ ((win 1 2 1).ch 4).conv.winTo ≠ 0 ∧
    (win 0 0 0).fld (chA 4 0x98) 0 2 = 0 ∧ (win 2 0 0).fld (chA 4 0x98) 0 2 = 2 := by decide +kernel

theorem meets_Synchronising : base.running = true ∧ base.replaying = false ∧ (1 : Nat) ≠ 0 ∧
    ({ base with syncs := [(60, 1)] } : State).syncs = (60, 1) :: [] ∧ Ready l0 { locked := false } base ∧ Ready l0 {} base ∧
    (∀ g ∈ [0, 7], g < base.member.groups) ∧ 1 < base.member.rings := by decide +kernel

/-- base with the rotation of group 0 in state k with the channel c. -/
def rot (k c : Nat) : State := (((base.setFld (aRot 0) 0 3 k).setFld (aRot 0) 8 4 c).setFlag (grA 0 0x44) 12 true).setFld (aRot 0) 3 5 16

theorem meets_RotationSteps : (rot 0 0).modLive 0 = true ∧ (rot 0 0).rotOn 0 = true ∧ (rot 0 0).rotSt 0 = 0 ∧
    ((rot 0 0).setFld (aRot 0) 0 3 1).stepFrom 0 16 0 = some 0 ∧
    (let s := (List.range 16).foldl (fun t n => t.setReg (chA n 0) 8) (rot 0 0)
     s.modLive 0 = true ∧ s.rotOn 0 = true ∧ (s.setFld (aRot 0) 0 3 1).stepFrom 0 16 0 = none) ∧
    (rot 1 0).rotSt 0 = 1 ∧ (rot 1 0).modLive 0 = true ∧ (rot 1 0).flag (grA 0 0x44) 12 = true ∧ (rot 1 0).stepFrom 0 16 0 ≠ none ∧
    isAo ((rot 1 0).mode ((rot 1 0).rotCh 0)) = false ∧ (((rot 1 0).setFlag (grA 0 0x44) 12 false)).flag (grA 0 0x44) 12 = false ∧
    (let s := aux 4 (fun a => { a with conv := { a.conv with outs := 5 } }) (rot 2 4)
     s.rotSt 0 = 2 ∧ isAi (s.mode (s.rotCh 0)) = true ∧ s.nSettle (s.rotCh 0) ≤ (s.ch (s.rotCh 0)).conv.outs ∧
     s.active (s.rotCh 0) = true) ∧
    (rot 2 1).rotSt 0 = 2 ∧ isAi ((rot 2 1).mode ((rot 2 1).rotCh 0)) = false ∧ isAo ((rot 2 1).mode ((rot 2 1).rotCh 0)) = false ∧
    (∀ k ∈ [1, 2], (rot k 8).rotSt 0 = k ∧ (rot k 8).modLive 0 = true ∧ (rot k 8).flag (grA 0 0x44) 12 = true ∧
      isAo ((rot k 8).mode ((rot k 8).rotCh 0)) = true) ∧
    (rot 3 4).rotSt 0 = 3 ∧ (rot 5 4).rotSt 0 = 5 ∧
    (let s := (rot 4 4).setGr 0 { (rot 4 4).gr 0 with conv := { pairs := 3 } }
     s.rotSt 0 = 4 ∧ (s.gr 0).conv.pairs = 3 ∧ s.modLive 0 = true) ∧
    base.flag (grA 0 0x50) 0 = false ∧ base.flag (grA 0 0x50) 16 = false := by decide +kernel

theorem cal_none : calOf 5 5 = none := by
  have h : ((5 : Int) : Rat) / 64 - ((5 : Int) : Rat) / 64 = 0 := Rat.sub_self
  unfold calOf
  exact if_pos h

theorem cal_some : calOf 0 447392448 ≠ none := by decide +kernel

/-- base with the cross-check of group 0 on channel 4, at a difference of d times 0.01 %. -/
def xchk (d : Nat) (fail : Bool) : State :=
  let s := (base.setReg (grA 0 0x54) 0x00640A14).setFlag (grA 0 0x58) 0 fail
  s.setGr 0 { s.gr 0 with conv := { (s.gr 0).conv with xDiff := (d : Rat) / 100 } }

theorem meets_CrossCheck : (xchk 101 false).itemFrom 0 = true ∧ (xchk 101 false).xIdle 0 = false ∧ (xchk 101 false).xOver 0 = true ∧
    (xchk 101 false).flag (grA 0 0x58) 0 = false ∧ (xchk 100 true).xOver 0 = false ∧ (xchk 100 true).flag (grA 0 0x58) 0 = true ∧
    (xchk 100 true).xIdle 0 = false ∧ Ready l0 {} base ∧ Ready l0 { locked := false } base ∧
    (∀ q ∈ [{ num := 1, dec := 1, unit := some .percent }, qu 5 .percent], qBad q .percent = false ∧ 1 ≤ qSteps q .percent 1 1000 ∧
      qSteps q .percent 1 1000 ≤ 50) ∧
    (∀ n ∈ [(10 : Int), 10000], qBad (qu n .ms) .ms = false ∧ 10 ≤ qSteps (qu n .ms) .ms 1 1000000 ∧
      qSteps (qu n .ms) .ms 1 1000000 ≤ 10000) := by decide +kernel

theorem meets_ConversionLines : Ready l0 {} base ∧ Ready l0 { locked := false } base ∧ isAi (base.mode (c0 4).n) = true ∧
    isAo (base.mode (c0 8).n) = true ∧ rateCode (qu 10 .Hz) = some 0 ∧ rateCode (qu 100 .Hz) = some 3 ∧ rateCode (qu 50 .kHz) = some 8 ∧
    qBad (qu 50 .kHz) .Hz = false ∧ base.sup.armed = false ∧
    (let lo := qu 4 .mA; let hi := qu 20 .mA; let hy := qu 8 .mA
     qBad lo (base.winUnit 4).1 = false ∧ -2147483648 ≤ base.winQty 4 lo ∧ base.winQty 4 hi ≤ 2147483647 ∧ 0 ≤ base.winQty 4 hy ∧
     base.winQty 4 lo + base.winQty 4 hy ≤ base.winQty 4 hi - base.winQty 4 hy) ∧
    (∀ n ∈ [(1 : Int), 3600], qBad (qu n .s) .s = false ∧ 1 ≤ qSteps (qu n .s) .s 1 1000000000 ∧
      qSteps (qu n .s) .s 1 1000000000 ≤ 3600) ∧ base.spare 0 ≠ 0x1F := by decide +kernel

theorem meets_SafeSources : ({ base with wdog := { running := true } } : State).running = true ∧ base.asleep = false ∧
    base.replaying = false ∧ base.dead = false ∧ base.fenced .safe = false ∧ base.sup.safeLow = false ∧ base.flag 0x30004 18 = false ∧
    base.itemFrom 0 = true ∧ base.flag (aGstat 0) 4 = false ∧ (base.setFlag (aGstat 0) 4 true).itemFrom 0 = true ∧
    base.scanRuns 0 = true ∧ base.flag (aSafeGrp 0) 25 = false ∧ (base.setFlag (aSafeGrp 0) 25 true).scanRuns 0 = true ∧
    (base.gr 0).vfHigh = false ∧ base.flag (aGstat 0) 3 = false ∧ base.scanRuns 0 = true ∧
    (∀ v ∈ [17499, 17800, 32500, 33001], (base.setReg (grA 0 0x10) (word v)).vf 0 = some v) ∧
    (∀ v ∈ [1199, 1250], (base.setReg (grA 0 0xC) (word v)).temp 0 = some (v : Int)) ∧
    (base.setFlag (aGstat 0) 3 true).scanRuns 0 = true ∧ (base.setFlag (aGstat 0) 3 true).flag (aGstat 0) 4 = false := by decide +kernel

theorem meets_SafeLines : Ready l0 { locked := false, core := true } base ∧ Ready l0 { locked := false } base ∧
    Ready l0 { locked := false, core := true } (stage 2 0) ∧ SafeObj.grp 7 ≠ .dev ∧ 7 < base.member.groups ∧
    (c0 15).g < base.member.groups := by decide +kernel

theorem meets_ReleaseRules : Memory.wf (holdDev 4 base) = true ∧ 2 ∈ base.relChans .dev ∧ isOut (base.mode 2) = true ∧
    2 ∉ base.relChans (.grp 1) ∧ (release .dev (clearCause 0x30004 4 .dev (holdDev 4 armed))).2.flag 0x30004 4 = false ∧
    (release .dev (holdDev 4 armed)).2.flag 0x30004 4 = true := by decide +kernel

/-! ### Witnesses: Ringlet -/

/-- The part of ringed in state k, in role r, with its implied state f. -/
def ringIn (k : Nat) (r : Word) (f : RingAux → RingAux) : State :=
  let s := (ringed.setFld (rgA 0 0) 0 4 k).setReg (rgA 0 0x40) r
  s.setRg 0 (f (s.rg 0))

/-- A frame with its HCHK byte and its CRC. -/
def frame (slot : Nat) (kind : BitVec 4) (src : Node) (cells : List Word) : Frame :=
  let f : Frame := { port := 0, slot := slot, kind := kind, fslot := BitVec.ofNat 12 slot, source := src
                     len := BitVec.ofNat 8 cells.length, age := 2, seq := 1, hchk := 0, cells := cells, crc := 0 }
  let f := { f with hchk := BitVec.ofNat 8 (crc8 f.header) }
  { f with crc := word (crc32 (f.header ++ [f.hchk] ++ msbBytes f.cells)) }

theorem meets_RingRounds : ringed.ringRuns 0 = true ∧ ringed.ringSt 0 = 4 ∧ ringed.sendsMarks 0 = true ∧ (ringed.rg 0).stop ≠ 2 ∧
    (ringIn 4 0x1200 id).follows 0 = true ∧ (ringIn 4 0x1200 id).ringRuns 0 = true ∧
    (let s := ringIn 3 0x1200 fun a => { a with pos := 5, fixed := true, begun := true }
     s.follows 0 = true ∧ s.ringSt 0 = 3 ∧ (s.rg 0).fixed = true ∧ s.flag (rgA 0 0x2C) 0 = false ∧ (s.rg 0).begun = true) ∧
    ((ringIn 3 0x1200 id).rg 0).fixed = false ∧ (ringIn 3 0x1200 id).follows 0 = true ∧
    (∀ k ∈ [2, 3], let s := (ringIn 4 0x1200 id).setFld (rgA 0 0x44) 8 2 k
     let t := roundEnd 0 {} s
     let t := t.setRg 0 { t.rg 0 with mute := true, round := (t.rg 0).round + 1 }
     s.follows 0 = true ∧ (ageBad 0 1 (forAll (t.rxData 0) (ageSlot 0 1) t)).fld (rgA 0 0x44) 8 2 = k) ∧
    (ringIn 4 0x1201 fun a => { a with stop := 2 }).ringSt 0 = 4 ∧ (ringIn 4 0x1201 fun a => { a with stop := 2 }).ringRuns 0 = true ∧
    (ringIn 1 0x1200 id).ringSt 0 ≠ 4 ∧ (ringIn 1 0x1200 id).asleep = false ∧
    ringed.isOwn 0 1 = true ∧ ringed.isOwn 0 2 = true ∧
    (let f : TxFrame := { slot := 1, kind := 2, source := ⟨0x12, 0⟩, len := 8, age := 0, seq := 0, cells := [] }
     let s := ringIn 4 0x1201 fun a => { a with slots := sset {} a.slots 1 { ready := some f } }
     (sget {} (s.rg 0).slots 1).ready = some f ∧ (s.rg 0).mute = false ∧ s.flag (rgA 0 0x2C) 0 = false ∧ s.ringRuns 0 = true) ∧
    (let f : TxFrame := { slot := 2, kind := 4, source := ⟨0x12, 0⟩, len := 2, age := 0, seq := 0, cells := [] }
     let s := ringIn 4 0x1201 fun a => { a with
       slots := sset {} a.slots 2 { ready := some f }, queue := [{ fragOf [0x12001205, 0x00000100] with reset := true }] }
     (sget {} (s.rg 0).slots 2).ready = some f ∧ f.kind = 4 ∧ (s.rg 0).queue.head?.map (·.reset) = some true) := by
  decide +kernel

/-- The bits on the line of a frame, behind 58 bits with every third one set. -/
def wireBits (f : Frame) : List Bool :=
  let h := (List.range 58).map fun i => decide (i % 3 = 1)
  (h.reverse ++ scramble h (frameBits f)).drop 16

theorem meets_FrameReceive :
    (let f := frame 3 2 ⟨0x12, 5⟩ [1, 2, 3, 4, 5, 6, 7, 8]
     let g := { f with crc := 0 }
     f.cells.length = f.len.toNat ∧ rxFrame 0 3 (wireBits f) = some f ∧ rxFrame 0 3 (wireBits g) = some g ∧
     rxFrame 0 3 [] = none ∧ (ringIn 5 0x1201 id).portRuns 0 0 = true ∧ (ringIn 5 0x1201 id).ringSt 0 = 5 ∧
     let t := checkFrame 0 f (passOn 0 f ringed)
     (checkFrame 0 g (passOn 0 g ringed)).frameValid 0 g = false ∧ t.frameValid 0 f = true ∧ (t.rg 0).mute = false ∧
     f.slot ≠ 0 ∧ t.ringDelivers 0 = true) ∧
    (let f := frame 0 1 ⟨0x12, 0⟩ [0, 0, 0, 0, 0, 0]
     let t := checkFrame 0 f (passOn 0 f (ringIn 4 0x1200 id))
     rxFrame 0 0 (wireBits f) = some f ∧ t.frameValid 0 f = true ∧ (t.rg 0).mute = false ∧ t.follows 0 = true) := by decide +kernel

theorem meets_RingFrames : ringed.portRuns 0 0 = true ∧ ringed.portRuns 0 1 = true ∧ ringed.replaying = false ∧
    (let s := ringed.setReg (aSched 0 3 + 4) 0x01205824
     let f := frame 3 4 ⟨0x12, 5⟩ [0x12001205, 0x00000180]
     s.frameValid 0 f = true ∧ s.ringDelivers 0 = true ∧ f.kind = 4 ∧ (fragOf f.cells).dest = some ⟨0x12, 0⟩ ∧
     s.isSelf ⟨0x12, 0⟩ = true ∧ s.isSelf ⟨0x12, 9⟩ = false ∧ (fragOf [0x12091205, 0x00000180]).dest = some ⟨0x12, 9⟩ ∧
     (fragOf [0x00001205, 0x00000182]).dest = none) ∧
    (3 : Nat) < ringed.nslot 0 ∧ (ringed.rg 0).mute = false ∧ (ringed.rxData 0).contains 3 = true ∧
    (ringed.rxData 0).contains 1 = false ∧
    (let p : Part := { frag := fragOf [0x12001205, 0x00000100], round := 0 }
     let s := ringIn 4 0x1201 fun a => { a with parts := [p] }
     p ∈ (s.rg 0).parts ∧ p.frag.origin = ⟨0x12, 5⟩ ∧ s.ringRuns 0 = true) := by decide +kernel

theorem meets_ReceivedSlot : Memory.wf ringed = true ∧ ringed.rxIdx 0 3 = 0 ∧ (List.replicate 64 (0 : Word)).length ≤ 64 ∧
    ([] : List Word).length ≤ 64 := by decide +kernel

/-- ringed before it runs. -/
def calm : State := ringed.setFld (rgA 0 0) 0 4 0

theorem meets_RingLines : Ready l0 {} calm ∧ Ready l0 {} ringed ∧ Ready l0 { locked := false } ringed ∧ 1 < calm.member.rings ∧
    calm.fenced (ringUn 0) = false ∧ calm.fenced .shadow = false ∧ calm.ringSt 0 = 0 ∧ calm.badSlot 1 = some 0 ∧
    (calm.setFld (rgA 1 0) 0 4 5).ringSt 1 = 5 ∧ (calm.setFld (rgA 1 0) 0 4 5).badSlot 1 = some 0 ∧
    (∀ q ∈ [qu 20 .us, qu 10 .s], qBad q .us = false ∧ 20 ≤ qSteps q .us 1 1000 ∧ qSteps q .us 1 1000 ≤ 10000000) ∧
    calm.mapBad 0 1 0 .value = false ∧ calm.mapBad 0 1 7 .host = false ∧ calm.mapBad 0 1 6 .count = false ∧
    (∀ q ∈ [qu 0 .ns, { num := 65535, dec := 1, unit := some .ns }], qBad q .ns = false ∧ 0 ≤ qSteps q .ns 10 1 ∧
      qSteps q .ns 10 1 ≤ 65535) ∧
    ringed.fillOk 0 1 = true ∧ (ringed.slot 0 1).len = 8 ∧ (ringed.slot 0 1).kind = 2 ∧
    ringed.bindOk 0 3 7 = true ∧ isOut (ringed.mode (c0 2).n) = true ∧ ringed.sup.armed = false ∧
    (ringed.rxSlots 0).contains 3 = true := by decide +kernel

/-- The ROUND frame of node 12.00. -/
abbrev fr : Frame := frame 0 1 ⟨0x12, 0⟩ [0, 0, 0, 0, 0, 0]

theorem meets_Hunt :
    (ringIn 1 0x1200 id).ringRuns 0 = true ∧ (ringIn 1 0x1200 id).ringSt 0 = 1 ∧ (ringIn 1 0x1200 id).role 0 ≠ 1 ∧
    (ringIn 7 0x1206 id).ringSt 0 = 7 ∧ (ringIn 1 0x1201 id).role 0 = 1 ∧ ((ringIn 1 0x1201 id).rg 0).wake = none ∧
    ((ringIn 1 0x1201 fun a => { a with wake := some (9, 4, 4000) }).rg 0).wake = some (9, 4, 4000) ∧
    (∀ s ∈ [ringIn 1 0x1200 id, ringIn 1 0x1201 id, ringIn 7 0x1206 id, ringIn 2 0x1200 fun a => { a with cands := 3 }],
      s.portRuns 0 fr.port = true ∧ fr.port = s.inPort 0 ∧ s.engineFree 0 = true ∧ (s.rg 0).cands < 4 ∧
      (checkFrame 0 fr s).role 0 = s.role 0) ∧
    (ringIn 1 0x1200 fun a => { a with huntAt := some 0 }).engineFree 0 = false ∧
    hchkOk fr = true ∧ frameOk fr = true ∧ hchkOk { fr with hchk := ~~~fr.hchk } = false ∧ hchkOk { fr with crc := ~~~fr.crc } = true ∧
    frameOk { fr with crc := ~~~fr.crc } = false ∧
    (let t := checkFrame 0 fr (ringIn 2 0x1200 fun a => { a with cands := 3 })
     fr.slot = 0 ∧ t.frameValid 0 fr = true ∧ (t.rg 0).wake = none ∧ 1 < (t.rg 0).cands) ∧
    ((checkFrame 0 fr (ringIn 2 0x1200 fun a => { a with wake := some (9, 4, 4000) })).rg 0).wake = some (9, 4, 4000) ∧
    fr.cells.getD 4 0 ≠ 9 ∧ (frame 0 1 ⟨0x12, 0⟩ [0, 0, 0, 0, 9, 0]).cells.getD 4 0 = 9 ∧
    ((checkFrame 0 fr (ringIn 2 0x1200 fun a => { a with cands := 1 })).rg 0).cands ≤ 1 := by decide +kernel

theorem meets_RingJoin :
    (let s := ringIn 3 0x1200 fun a => { a with probe := 1 }
     let t := ringSend 0 (s.probeFrame 0 1) s
     s.ringSt 0 = 3 ∧ (s.rg 0).fixed = false ∧ s.byHop 0 = true ∧ s.flag (rgA 0 0x2C) 0 = false ∧
     (t.followers 0).find? (fun p => decide (1 < p) && !([] : List Nat).contains p) = some 5 ∧
     (t.followers 0).find? (fun p => decide (1 < p) && !([5] : List Nat).contains p) = none) ∧
    (let s := ringIn 3 0x1210 fun a => { a with fixed := true }
     s.ringSt 0 = 3 ∧ (s.rg 0).fixed = true ∧ s.byHop 0 = false) ∧
    (let s := ringIn 3 0x1200 fun a => { a with fixed := true }
     (s.rg 0).fixed = true ∧ s.role 0 ≠ 1 ∧ s.byHop 0 = true) ∧
    ringed.sendsMarks 0 = true ∧ ringed.role 0 = 1 ∧
    (let s := (ringIn 4 0x1206 id).setFlag (rgA 0 0x44) 4 true
     s.ringRuns 0 = true ∧ s.ringSt 0 = 4 ∧ s.sendsMarks 0 = true ∧ s.role 0 ≠ 1 ∧ s.rank 0 = 1) ∧
    (let s := ringIn 7 0x1206 fun a => { a with pos := 1, fixed := true }
     s.role 0 = 2 ∧ s.rank 0 ≠ 0 ∧ s.ringPos 0 = some (s.rank 0) ∧ s.ringSt 0 = 7 ∧ s.ringRuns 0 = true) ∧
    (∀ p ∈ [0, 1], ringed.flag (rgA 0 0x44) (wrapBit p) = false ∧ ringed.portRuns 0 p = true) ∧ ringed.ringSt 0 ≠ 6 ∧
    (let s := ((ringIn 1 0x1200 id).setFlag (rgA 0 0x44) (wrapBit 0) true).setFlag (rpA 0 0 0) 0 true
     s.portRuns 0 0 = true ∧ s.flag (rgA 0 0x44) (wrapBit 0) = true ∧ s.ringSt 0 ≠ 4 ∧ s.flag (rpA 0 0 0) 0 = true) := by decide +kernel

theorem meets_CocoonSleep :
    (let s := ringIn 4 0x1201 fun a => { a with sleep := some (9, 4), round := 9 }
     Memory.wf s = true ∧ s.ringRuns 0 = true ∧ s.ringSt 0 = 4 ∧ (s.rg 0).sleep = some (9, 4) ∧ (s.rg 0).round = 9 ∧
     s.powered 0 = true ∧ (s.gr 0).vf = true ∧ (s.gr 0).acts = false) ∧
    (ringIn 6 0x1201 id).ringSt 0 = 6 ∧ (ringIn 6 0x1201 id).dead = false ∧ Memory.wf (ringIn 6 0x1201 id) = true ∧
    1 ≠ (ringIn 6 0x1201 id).eOpen 0 ((((ringIn 6 0x1201 id).rg 0).sleep.map (·.2)).getD 0) ∧
    (let s := ringIn 1 0x1200 fun a => { a with wake := some (9, 4, 4000) }
     s.ringRuns 0 = true ∧ s.ringSt 0 = 1 ∧ s.role 0 ≠ 1 ∧ (s.rg 0).wake = some (9, 4, 4000)) ∧
    Ready l0 {} ringed ∧ qBad (qu 60 .s) .s = false ∧ ringed.sup.armed = false ∧ ringed.ringSt (1 - 0) = 0 ∧
    (∀ d ∈ [1, 65535], 1 ≤ (word d - (ringed.rg 0).round).toNat ∧ (word d - (ringed.rg 0).round).toNat ≤ 65535) ∧
    ringed.sleepRounds 0 (qu 60 .s) * ringed.period 0 ≤ 604800000000 ∧
    ringed.guard 0 (ringed.sleepRounds 0 (qu 60 .s)) + ringed.lead 0 < ringed.sleepRounds 0 (qu 60 .s) * ringed.period 0 := by
  decide +kernel

theorem meets_RingSetup : Ready l0 {} calm ∧ Ready l0 { locked := false } calm ∧ calm.member.rings = 2 ∧ calm.fenced .shadow = false ∧
    calm.fenced (ringUn 0) = false ∧ calm.ringSt 0 = 0 ∧ calm.ringSt 1 = 0 ∧
    (∀ q ∈ [qu 2 .ppm, { num := 995, dec := 1, unit := some .ppm }], qBad q .ppm = false ∧ 2 ≤ qSteps q .ppm 1 1 ∧
      qSteps q .ppm 1 1 ≤ 100) ∧
    (let s := { calm with member := .g1 }
     Ready l0 {} s ∧ s.member.rings < 2 ∧ s.ringSt 0 = 0 ∧ s.ringSt 1 = 0) := by decide +kernel

/-! ### Witnesses: the flashes and Chrysalis -/

theorem meets_FlashSequences : Ready l0 { secret := (taken l0 base).pwSecret 0xA48 } base ∧ aligned 0xA48 = true ∧
    base.pfBusy (pfBank 0xA48) = false ∧ base.pfWho (pfBank 0xA48) = none ∧ base.pwBlocked 0xA48 = false ∧
    Ready l0 { secret := (taken l0 base).pwSecret (pfBase true) } base ∧ base.pfBusy 1 = false ∧ base.pfWho 1 = none ∧
    base.pwBlocked (pfBase true + 0xA48) = false ∧ base.flashRuns = true ∧ ((setPfSeq 1 { step := 2 } base).pfSeq 1).step ≠ 0 ∧
    Memory.wf base = true ∧ base.pfSeq 1 = {} ∧ base.pfOp 1 = none ∧
    (let a := 0x200000
     let s := setPfWord a { data := 0xFF, f1 := true } base
     a % 8 = 0 ∧ pfFixed a = false ∧ s.guarded a = false ∧ Memory.wf s = true ∧ progCode (s.pfWord a) 0x0F = 0 ∧
     ((s.pfWord a).f1 && (s.pfWord a).f2) = false ∧ (0x100 : BitVec 64).getLsbD 8 = true ∧ (s.pfWord a).data.getLsbD 8 = false) ∧
    pfFixed 0x3FFFF8 = true ∧
    (let s := setPfWord (protWord (protGroup 0)) { data := 0, f1 := true } locked
     pfFixed 0 = false ∧ s.guarded 0 = true ∧ Memory.wf s = true ∧ s.pfSeq 0 = {} ∧ s.pfOp 0 = none) ∧
    pfBank 0x200000 = 1 ∧ 0x200000 % 0x200000 ≠ 0xA48 := by decide +kernel

theorem meets_FlashEnds :
    (let s := setPfOp 1 (some (.program 0x200000 5)) base
     invB s = true ∧ s.flashRuns = true ∧ s.pfOp 1 = some (.program 0x200000 5) ∧ progCode (s.pfWord 0x200000) 5 = 0 ∧
     s.pfWho 1 = none ∧ (PfKind.program 0x200000 5).isSnap = false) ∧
    (let k := PfKind.eraseSector 0x1000 [] false
     invB (setPfOp 0 (some k) base) = true ∧ (setPfOp 0 (some k) base).pfOp 0 = some k ∧ 0x1000 % 4096 = 0) ∧
    (let s := { base with pf := { base.pf with queue := [(1, 7)] } }
     s.pf.queue = (1, 7) :: [] ∧ s.replaying = false ∧ s.tallyNow = none ∧ s.fenced .pflash = false ∧ invB s = true ∧
     (s.setFlag 0x30 15 true).fenced .pflash = true ∧ (s.setFlag 0x30 15 true).flashRuns = true) ∧
    (let s := setPfOp 0 (some (.tally 1 7 0x100000 0)) base
     s.pfOp 0 = some (.tally 1 7 0x100000 0) ∧ s.pfOp (1 - 0) = none ∧ invB s = true) := by decide +kernel

theorem meets_ProfileLines : Ready l0 { locked := false } base ∧ Ready l0 {} base ∧ Ready l0 { secret := true } base ∧
    base.pfBusy 0 = false ∧ base.pfBusy 1 = false ∧ cvuNum .cvuC0 = some 4 ∧ base.hasUnit .cvuC0 = true ∧ base.fenced .pflash = false ∧
    (∀ x ∈ [0, 0x200000], pfFixed (x / 4096 * 4096) = false ∧ base.guarded (x / 4096 * 4096) = false ∧
      base.pfBusy (pfBank x) = false ∧ (base.pfSeq (pfBank x)).step = 0 ∧ progCode (base.pfWord x) 5 = 0 ∧ x % 8 = 0) ∧
    base.bestSlot ≠ some 1 ∧ base.guarded (slotA 1) = false ∧ base.sealed 0 = false ∧ base.newGen ≤ 0xFFFFFFFE ∧
    base.guarded (sealA 0) = false ∧ base.guarded (sealA 1) = false ∧ base.pwSet = false ∧ (5 : BitVec 64) ≠ 0xFFFFFFFFFFFFFFFF ∧
    (∀ k ∈ [0, 7], locked.pwSet = true ∧ locked.pfBusy (k / 4) = false ∧ (locked.pfSeq (k / 4)).step = 0 ∧
      progCode (locked.pfWord (protWord k)) 0 = 0) ∧
    (let s := { locked with cp0 := { unlocked := true } }
     Ready l0 {} s ∧ s.pwSet = true) := by decide +kernel

/-- An operation of the record flash. -/
abbrev rop (er : Bool) (o : Owner) : RfOp := { erase := er, block := 5, page := 3, owner := o }

theorem meets_RecordFlashEnds : base.flashRuns = true ∧
    (∀ o ∈ [rop true .host, rop false .host, rop false .table, rop true .chrys, rop false .chrys],
      (setRfOp 7 (some o) base).rfOp 7 = some o ∧ (setRfOp 7 (some o) base).flashRuns = true) ∧
    (tableDue base).tableReady = true ∧ (tableDue base).replaying = false ∧ base.fenced .trail = false ∧
    8 * 1 < ((base.setReg 0x70F08 16).reg 0x70F08).toNat ∧ 8 * 1 < base.member.trailSize := by decide +kernel

theorem meets_PageRules : Memory.wf base = true ∧ sget 0 base.rf.nextPg (rfBlock 0 2) ≤ 0 ∧ rfBlock 7 63 < 512 ∧
    base.rfBad (rfBlock 7 63) = false ∧
    (let s := rfPrograms 0 2 9 {} base
     8 < sget 0 s.rf.nextPg (rfBlock 0 2) ∧ Memory.wf s = true) := by decide +kernel

theorem meets_RecordFlashLines : Ready l0 { locked := false } base ∧ Ready l0 {} base ∧ base.fenced .rflash = false ∧
    base.rfBusy 7 = false ∧ base.rfBad (rfBlock 7 63) = false ∧ base.rfBad (rfBlock 0 2) = false ∧
    (base.setReg 0x80104 0).flag 0x80104 7 = false ∧ base.sup.holdupLow = false ∧ 18400 % 32 = 0 ∧ 7 < base.member.banks := by
  decide +kernel

/-- base in replay of the capsule r, at state k. -/
def replay (id : Option Nat) (nostop : Bool) (k : Nat) : State :=
  { base with chrys := { base.chrys with replay := some { id := id, from_ := 0, fast := false, nostop := nostop, raw := 0, wdRun := 0 } }
  }.setFld aRecStat 0 3 k

/-- A divergence. -/
abbrev dvg : Divergence := { kind := .mark, t := 0, rec_ := 0, exp := 1, got := 2 }

theorem meets_ChrysalisEvents : base.dead = false ∧ base.asleep = false ∧
    ({ base with chrys := { base.chrys with run := true } } : State).chrys.run = true ∧
    (let s := { base with chrys := { base.chrys with pend := some { kind := 1, obj := 0, ts := 0, raw := 0 } } }
     s.chrys.pend ≠ none ∧ s.chrys.cap = none) ∧
    (∀ id ∈ [none, some 3], (replay id false 1).chrys.replay.map (·.id) = some id ∧ (replay id false 1).fld aRecStat 0 3 = 1 ∧
      (replay id false 1).dead = false ∧ Memory.wf (replay id false 1) = true) ∧
    (∀ ns ∈ [true, false], (replay none ns 2).chrys.replay.map (·.nostop) = some ns ∧ (replay none ns 2).fld aRecStat 0 3 = 2) ∧
    (∀ x : Replay, x = { id := none, from_ := 0, fast := true, nostop := false, raw := 0, wdRun := 0 } →
      base.injects x = true ∧ base.atGap x = false ∧ base.atLast x = true) ∧
    ({ last := true } : Inject).divs = [] ∧ ({ divs := [dvg] } : Inject).divs = dvg :: [] ∧
    (replay none false 4).fld aRecStat 0 3 = 4 := by
  refine ⟨by decide +kernel, by decide +kernel, by decide +kernel, by decide +kernel, by decide +kernel, by decide +kernel, ?_, rfl, rfl,
    by decide +kernel⟩
  rintro x rfl
  decide +kernel

/-- base with three records on the first line of the trail from word 1 on: a PINS record 7 cycles later than the one before, a GAP, and
an END. -/
def recorded : State :=
  { base with chrys := { base.chrys with
    trail := [(1, 0x0000000700000005), (2, 0x000000000000002E), (3, 0x000000000000002F)]
    trailCap := some { id := 1, trig := 1, trigObj := 0, ttrig := 0, tstart := 0, tend := 0, win := 0, epoch := 0, first := 0, flseq := 0, lines := 1 } } }

/-- A replay of that capsule which stands at a word, its pipeline at cycle c. -/
abbrev at_ (w c : Nat) (fast : Bool) : Replay :=
  { id := none, from_ := 0, fast := fast, nostop := false, raw := 0, wdRun := 0, next := 8 * w, cyc := c }

theorem meets_RecordInject : recorded.injects (at_ 1 6 false) = false ∧ recorded.injects (at_ 1 7 false) = true ∧
    recorded.injects (at_ 1 0 true) = true ∧ (recorded.recAt 1).isInput = true ∧ recorded.atGap (at_ 1 7 false) = false ∧
    recorded.atLast (at_ 1 7 false) = false ∧ recorded.atGap (at_ 2 7 false) = true ∧ recorded.due (at_ 1 7 false) ≤
      (at_ 1 7 false).cycle recorded.clk.raw := by decide +kernel

theorem meets_RecLines : Ready l0 {} base ∧ Ready l0 { replay := false } base ∧ Ready l0 { locked := false, replay := false } base ∧
    (∀ n ∈ [(100 : Int), 10000], qBad (qu n .ms) .ms = false ∧ 100 ≤ qSteps (qu n .ms) .ms 1 1000000 ∧
      qSteps (qu n .ms) .ms 1 1000000 ≤ 10000 ∧ 100 ≤ qSteps (qu n .us) .us 1 1000 ∧ qSteps (qu n .us) .us 1 1000 ≤ 10000) ∧
    (∀ p ∈ [(1, 0), (3600, 600)], 1 ≤ qSteps (qu p.1 .s) .s 1 1000000000 ∧ qSteps (qu p.1 .s) .s 1 1000000000 ≤ 3600 ∧
      0 ≤ qSteps (qu p.2 .s) .s 1 1000000000 ∧ qSteps (qu p.2 .s) .s 1 1000000000 ≤ 600) ∧
    base.fenced .chrys = false ∧ base.fenced .trail = false ∧ base.fenced .rflash = false ∧ base.fenced .cvuF = false ∧
    (let d : DirEnt := { id := 3, st := .durable, kfs := 2, groups := 8, step := base.member.sysId.extractLsb' 0 8 }
     let s := { base with chrys := { base.chrys with dir := [d] } }
     d ∈ s.chrys.dir ∧ Ready l0 {} s ∧ (accepted l0 {} s).chrys.cap = none ∧ s.sup.armed = false ∧ s.ringLive = false ∧
     s.replayable (.id 3) = some (d.step, d.groups, d.kfs) ∧ d.step = s.member.sysId.extractLsb' 0 8 ∧
     d.groups ≤ s.member.groups ∧ 1 < d.kfs ∧ (s.capFlds (.id 3)).isSome = true) ∧
    (∀ k ∈ [2, 3], Ready l0 { replay := false } (replay none false k) ∧ (replay none false k).fld aRecStat 0 3 = k) := by decide +kernel

theorem meets_IdleCycle : base.pending = [] ∧ State.reset.dead = true ∧ (ringIn 6 0x1201 id).asleep = true ∧ base.dead = false ∧
    base.asleep = false ∧ base.sup.pllLock = true ∧ base.clk.slewing = false ∧ base.clk.disc = false ∧
    (base.reg 0x10010).toInt < 2 ^ 32 ∧ -(2 ^ 32) < (base.reg 0x10010).toInt ∧
    (let s := { base with sup := { base.sup with pllLock := false } }
     s.dead = false ∧ s.asleep = false ∧ s.sup.pllLock = false) := by decide +kernel

theorem meets_StepRunsFront : ({ base with pending := [.vfLow 0, .arm l0] } : State).pending = .vfLow 0 :: [.arm l0] := rfl

theorem meets_StepKeepsInv : Inv base ∧ ∃ t, step base = .next t := ⟨inv_of_invB (by decide +kernel), _, rfl⟩

/-! ### Results that the spec works out -/

/-- The response that CP0 sends to a command. -/
def ans (c : Instr) (s : State) : Option Resp :=
  match exec c s with
  | .next t => t.cp0.tx.findSome? fun x => match x with | .resp _ (.loc r) _ _ => some r | _ => none
  | _ => none

/-- A register after a command. -/
def after (c : Instr) (k : Nat) (s : State) : Option Word :=
  match exec c s with
  | .next t => some (t.reg k)
  | _ => none

/-- The ASCII digits of Table 14.2. -/
def digits : List Byte := [0x31, 0x32, 0x33, 0x34, 0x35, 0x36, 0x37, 0x38, 0x39]

/-- Table 14.2. -/
theorem test_crc_values : crc8 digits = 0x20 ∧ crc16 digits = 0x29B1 ∧ crc32 digits = 0xCBF43926 ∧ crc32c digits = 0xE3069283 := by
  decide +kernel

/-- The example of chapter 3.4.1: a running ring refuses time set, a stopped one does not. -/
theorem test_time_set_ring : ans (.timeSet l0 1735600000000) ringed = some (.err .notstopped) ∧
    ans (.timeSet l0 1735600000000) calm = some .ok := by decide +kernel

/-- R84: -1.250 ppm is -5368.7 steps of 2^-32, stored as -5369. -/
theorem test_time_trim : after (.timeTrim l0 { num := -1250, dec := 3, unit := some .ppm }) 0x10010 base = some (BitVec.ofInt 32 (-5369)) := by
  decide +kernel

/-- Table 3.2: the host trim is held to 50 ppm, 214748 steps. -/
theorem test_time_trim_limit : after (.timeTrim l0 (qu 80 .ppm)) 0x10010 base = some 214748 := by decide +kernel

/-- The example of chapter 5.4.1: the neighbour of a four-wire RTD takes no mode. -/
theorem test_fourwire_pair : ans (.chMode l0 (c0 5) .di false) (storeMode 4 7 true base) = some (.err .mode) := by decide +kernel

/-- R162: an armed part refuses ch mode. -/
theorem test_mode_armed : ans (.chMode l0 (c0 5) .di false) armed = some (.err .armed) := by decide +kernel

/-- Table 6.5: 5 ms are 100000 steps of 50 ns; THR below 20 is stored as 20 with CFGERR. -/
theorem test_debounce : after (.diDebounce l0 (c0 1) (qu 5 .ms)) (chA 1 0x44) base = some 100000 ∧
    ((writeDiCfg 1 2 base).fld (chA 1 0x40) 16 9 = 20 ∧ (writeDiCfg 1 2 base).flag (aStat 1) 2 = true) := by decide +kernel

/-- The example of chapter 6.4.2: the count of 4187302 pulses reads as 0x003FE4A6. -/
theorem test_count_read : ans (.rd l0 0x10001048 2) (base.setPair (chA 1 0x48) 4187302) =
    some (.vals [{ val := .hex 0x003FE4A6 }, { val := .hex 0 }]) := by decide +kernel

/-- R183: a read of the high half alone is torn. -/
theorem test_torn : after (.rd l0 0x1000104C 1) (aStat 1) base = some (setBit (base.reg (aStat 1)) 18 true) := by decide +kernel

/-- Table 1.5: SYS.ID reads in every stage from S2. -/
theorem test_rd_id : ans (.rd l0 0 1) (stage 2 0) = some (.vals [{ val := .hex 0x504C8421 }]) ∧
    ans (.rd l0 0x10000000 1) (stage 2 0) = some (.err .starting) := by decide +kernel

/-- R137: an address that is not aligned. -/
theorem test_rd_align : ans (.rd l0 2 1) base = some (.err .align) := by decide +kernel

/-- R138: a read-only register refuses wr. -/
theorem test_wr_readonly : ans (.wr l0 0 0) base = some (.err .readonly) := by decide +kernel

/-- R144: ev get on an empty queue. -/
theorem test_ev_get_none : ans (.evGet l0) base = some (.vals [{ val := .w "none" }]) := by decide +kernel

/-- The example of chapter 4.4: ev ack answers how many it removed. -/
theorem test_ev_ack : ans (.evAck l0 412) { base with evq := [ent 412] } = some (.vals [{ key := "acked", val := .n 1 }]) := by
  decide +kernel

/-- R132: a watchdog period below 10 ms is refused. -/
theorem test_wdog_range : ans (.wdogSet l0 (qu 9 .ms)) base = some (.err .range) := by decide +kernel

/-- R104: a unit of another dimension is refused. -/
theorem test_unit : ans (.wdogSet l0 (qu 9 .mA)) base = some (.err .unit) := by decide +kernel

/-- R406, R407: the word of the first program; a 1 over a 0 is refused with PROG_RISE. -/
theorem test_program : (pfProgram 0 0xFF00 base).1 = 0 ∧ ((pfProgram 0 0xFF00 base).2.pfWord 0).f1 = true ∧
    (pfProgram 0 0x00FF (pfProgram 0 0xFF00 base).2).1 = 2 := by decide +kernel

/-- R406: a third program is refused with PROG_3RD. -/
theorem test_program_third : (pfProgram 0 0 (pfProgram 0 0xFF (pfProgram 0 0xFFFF base).2).2).1 = 1 := by decide +kernel

/-- R439: a page programmed against the order leaves every page of its block undefined. -/
theorem test_page_order : ((rfPrograms 0 2 3 {} (rfPrograms 0 2 9 {} base)).rfPage 0 2 200).fill = .undef (base.freeIdx + 1 + 200) := by
  decide +kernel

/-- R136: the third wrong password locks. -/
theorem test_lockout : (match exec (.unlock l0 (some 1)) { locked with pwFails := 2 } with | .next t => t.pwFails | _ => 0) = 3 ∧
    ans (.unlock l0 (some 0x55)) { locked with pwFails := 3 } = some (.err .pwlock) := by decide +kernel

/-- Table 7.7 and the example of chapter 7.4: 2 µs of confirmation are 40 steps of 50 ns. -/
theorem test_skip_confirm : after (.skipConfirm l0 0 (qu 2 .us)) (chA 0 0x44) base = some 40 := by decide +kernel

/-! ### Terms that are not commands -/

theorem wf_accepts : (Instr.arm l7).wf = true ∧ (Instr.chGet l0 (c0 200)).wf = true ∧ (Instr.wirebreak 127).wf = true := by decide

theorem wf_refuses_origin : (Instr.arm { ep := .mail }).wf = false ∧
    (Instr.arm { ep := .cp0, origin := some { node := ⟨0, 3⟩, port := .cp0, bcast := false } }).wf = false := by decide

theorem wf_refuses_number : (Instr.rd l0 (2 ^ 64) 1).wf = false ∧ (Instr.chGet l0 { g := 0, c := 2 ^ 64 }).wf = false ∧
    (Instr.wdogSet l0 (qu (2 ^ 64) .ms)).wf = false ∧ (Instr.ringBridge { l0 with intOk := false } true none).wf = true := by decide

theorem wf_refuses_event : (Instr.wirebreak 128).wf = false ∧ (Instr.vfLow 8).wf = false ∧ (Instr.tkTakeover 2).wf = false ∧
    (Instr.ringWrap 0 2).wf = false ∧ (Instr.pflashSeqTimeout 2).wf = false ∧ (Instr.rflashOpComplete 8 true).wf = false ∧
    (Instr.slotLaunch 0 4096).wf = false ∧ (Instr.modFail 0 17).wf = false ∧ (Instr.trailScrub 1040384 .ok).wf = false := by decide

theorem wf_refuses_operand : (Instr.unitFenced (.grp 8 .sar)).wf = false ∧ (Instr.rxByte .mail 0).wf = false ∧
    (Instr.linkItemReceive (.bad 8)).wf = false ∧ (Instr.linkItemReceive (.scan 0 40 0)).wf = false ∧
    (Instr.splitLowRead l0 (.mark 2)).wf = false ∧ (Instr.splitLowRead l0 (.count 128)).wf = false ∧
    (Instr.directoryScan [131072]).wf = false ∧ (Instr.remoteResponseArrival .cp0 0 [13]).wf = false ∧
    (Instr.s6GroupBringup 0 [(8, {})]).wf = false ∧ (Instr.groupBringupComplete 0 { high := [16] }).wf = false ∧
    (Instr.replayEnd [(128, 0)]).wf = false ∧ (Instr.frameReceive 0 ⟨2, 0, []⟩).wf = false ∧
    (Instr.huntCandidate ⟨0, { frame 0 1 ⟨0, 0⟩ [] with port := 2 }⟩).wf = false ∧
    (Instr.rflashRead l0 0 0 0 { rt := 8 }).wf = false ∧ (Instr.safeGet l0 (.grp (2 ^ 64))).wf = false := by decide +kernel

/-! ### The text of lines: examples of the manual's transcripts -/

/-- The part with a line in the FIFO of CP0. -/
def withText (t : String) : State := { State.reset with cp0 := { rx := (textBytes t).map .b ++ [.b 13] } }

/-- Whether a text spells a form, with its tag, and whether it carries a suffix. The fingerprint is that of its header. -/
def spells (t : String) (tag : Option (BitVec 16)) (crc : Bool) (f : Line → Spelling) : Bool :=
  decide ((withText t).spelt .cp0 = some (f { l0 with
    tag := tag, crc := crc, fp := BitVec.ofNat 16 (crc16 (headerOf ((textBytes t).takeWhile (· ≠ 0x2A))).print) }))

/-- Chapter 3: a tag, a signed fraction with its unit. -/
theorem test_spelt_trim : spells "#3C5 time trim -1.250ppm" (some 0x3C5) false
    (.timeTrim · { num := -1250, dec := 3, unit := some .ppm }) = true := by decide +kernel

/-- The worked example of R117. -/
theorem test_spelt_suffix : spells "kick *7F03" none true .kick = true ∧
    (match (withText "kick *7F04").spelt .cp0 with | some (.lineRefused ln x) => ln.crc && decide (x = .crc) | _ => false) = true := by
  decide +kernel

/-- R118: the fingerprint leaves out the tag token and the separator after it. -/
theorem test_fingerprint : (headerOf (textBytes "@1A.07 #3C1 kick ")).print = textBytes "@1A.07 kick " := by decide +kernel

/-- Chapters 6 and 7: an optional argument, an action with its target and release. -/
theorem test_spelt_forms : spells "ch g0.c09 persist 900s step 100" none false
      (.dicPersist · (c0 9) (some ({ num := 900, unit := some .s }, some 100))) = true ∧
    spells "skip k04 act clear g5.c10 follow" none false (.skipAct · 4 .clear { g := 5, c := 10 } .follow { num := 0 }) = true ∧
    spells "rflash read 5.22.131" none false (.rflashRead · 5 22 131) = true ∧
    spells "ring ring0 rx 3 2 1" none false (.ringRx · 0 3 (some 2) (some 1)) = true := by decide +kernel

/-- R102: a register by number and by name, in any case. -/
theorem test_spelt_registers : spells "rd 0x1000_9048 2" none false (.rd · 0x10009048 2) = true ∧
    spells "RD G0.C9.DI.CountLo 2" none false (.rd · 0x10009048 2) = true ∧
    spells "rd ring.state" none false (.rd · 0x50000 1) = true := by decide +kernel

/-- R134: the places of a password's hyphens. -/
theorem test_password : passOf (textBytes "7A3F-9C21-0E55-B8D4") = some 0x7A3F9C210E55B8D4 ∧
    passOf (textBytes "7A3F9C210E55-B8D4") = some 0x7A3F9C210E55B8D4 ∧ passOf (textBytes "7A-3F9C210E55B8D4") = none := by decide +kernel

/-- R100, R123, R141: a token out of place, an unknown verb, another node. -/
theorem test_spelt_refused : spells "kick #1" none false (.lineRefused · .syntx) = true ∧
    spells "jump" none false (.lineRefused · .verb) = true ∧
    spells "@1A.07 kick" none false (fun ln => .remoteLineForward { ln with addr := some ⟨0x1A, 7⟩ } ⟨0x1A, 7⟩ (textBytes "kick")) = true := by decide +kernel

/-- R117: the worked example of a response's suffix; Table 2.5: a boot line. -/
theorem test_wire : TxItem.bytes base (.resp none (.loc .ok) false true) = textBytes "ok *8874" ++ [13, 10] ∧
    TxItem.bytes base (.boot (.s6 2 8 true) false) = textBytes "! ev boot s6 groups=2/8 armed=yes" ++ [13, 10] := by decide +kernel

/-- A command that its text spells, and one that no text gives. -/
theorem test_from_text : FromText (.kick { l0 with fp := BitVec.ofNat 16 (crc16 (textBytes "kick")) }) (withText "kick") ∧
    FromText .brownOutVio base := by
  have a : spellingOf (.kick { l0 with fp := BitVec.ofNat 16 (crc16 (textBytes "kick")) }) =
      some (.kick { l0 with fp := BitVec.ofNat 16 (crc16 (textBytes "kick")) }) := by decide +kernel
  have b : spellingOf .brownOutVio = none := by decide +kernel
  refine ⟨fun x h => ⟨.cp0, ?_⟩, fun x h => ?_⟩
  · rw [← h, a]; decide +kernel
  · rw [b] at h; exact absurd h (by simp)

/-! ### The queue and the table -/

/-- The command at the front runs, and the rest of the queue stays. -/
theorem test_queue : (match step { base with pending := [.wdogOff l0, .kick l0] } with | .next t => t.pending | _ => []) = [.kick l0] := by
  rfl

/-- The table gives its rows no bits. -/
theorem test_no_words : decodeTableWord 32 0 = none ∧ State.reset.withFetchWord 32 0 = State.reset := ⟨rfl, rfl⟩

end Sys2Proof.Tests
end

section
/-!
PROOFS. Bytes at a port (R98, R99, R112, R113): the FIFO's bound, and the state in which each byte of generated and typed mode
leaves the port.
-/
namespace Sys2Proof.Machine

/-! ### The receive FIFO -/

theorem symBytes_append (a b : List RxSym) : symBytes (a ++ b) = symBytes a ++ symBytes b := by
  induction a with
  | nil => rfl
  | cons x a ih => cases x <;> simp [symBytes, ih]

theorem fifoBytes_append (a b : List RxSym) : fifoBytes (a ++ b) = fifoBytes a + fifoBytes b := by
  simp [fifoBytes, symBytes_append]

theorem fifoBytes_append_lost (l : List RxSym) : fifoBytes (l ++ [.lost]) = fifoBytes l := fifoBytes_append l [.lost]

theorem fifoBytes_append_byte (l : List RxSym) (b : Byte) : fifoBytes (l ++ [.b b]) = fifoBytes l + 1 := fifoBytes_append l [.b b]

/-- A FIFO is its completed lines and the line that is not complete. -/
theorem closedLines_append_openLine (l : List RxSym) : closedLines l ++ openLine l = l := by
  rw [closedLines, openLine, ← List.reverse_append, List.takeWhile_append_dropWhile, List.reverse_reverse]

theorem fifoBytes_closedLines_le (l : List RxSym) : fifoBytes (closedLines l) ≤ fifoBytes l := by
  have h := congrArg fifoBytes (closedLines_append_openLine l)
  rw [fifoBytes_append] at h
  omega

/-- A FIFO of 1024 bytes takes no byte more (R98). -/
theorem fifoBytes_fifoByte_le (b : Byte) (p : Port) (h : fifoBytes p.rx ≤ 1024) : fifoBytes (fifoByte b p).1.rx ≤ 1024 := by
  have hclosed := fifoBytes_closedLines_le p.rx
  unfold fifoByte
  dsimp only
  split
  · exact h -- the LF of a CR LF
  split
  · exact h -- a byte past the 256th of its line
  split
  · split -- a full FIFO takes the mark of what is lost, which is no byte
    · exact h
    · rw [fifoBytes_append_lost]; exact h
  · rename_i hfull
    have hroom : fifoBytes (p.rx ++ [.b b]) ≤ 1024 := by
      rw [fifoBytes_append_byte]
      simp only [decide_eq_true_eq] at hfull
      omega
    split
    · split
      · exact hclosed.trans h
      · exact hroom
    · split
      · exact h
      · exact hroom

/-! ### Ports -/

/-- Of two writes of a port the second stands. -/
@[simp] theorem State.setPort_setPort (s : State) (e : Ep) (p q : Port) : (s.setPort e p).setPort e q = s.setPort e q := by
  cases e <;> rfl

/-! ### The meanings of the port commands -/

theorem exec_rxByte (ep : Ep) (b : Byte) (s : State) : exec (.rxByte ep b) s = execRxByte ep b s := rfl
theorem exec_linegap (ep : Ep) (s : State) : exec (.linegap ep) s = execLinegap ep s := rfl
theorem exec_typedByte (ep : Ep) (b : Byte) (s : State) : exec (.typedByte ep b) s = execTypedByte ep b s := rfl
theorem exec_typedHoldTimeout (ep : Ep) (s : State) : exec (.typedHoldTimeout ep) s = execTypedHoldTimeout ep s := rfl

/-- A printable byte neither edits nor ends a line (R112). -/
theorem printable_not_control {b : Byte} (hlo : 0x20 ≤ b) (hhi : b ≤ 0x7E) : b ∉ [8, 10, 13, 0x15, 0x7F] := by
  simp only [List.mem_cons, List.not_mem_nil, or_false, not_or]
  refine ⟨?_, ?_, ?_, ?_, ?_⟩ <;> bv_omega

section
variable {ep : Ep} {s : State} (hm : ep ≠ .mail) (hs : s.serves ep = true)
include hm hs

/-! ### Generated mode -/

theorem exec_rxByte_generated (hg : s.generated ep = true) (b : Byte) : exec (.rxByte ep b) s =
    done (if (fifoByte b (s.port ep)).2 then (s.setPort ep (fifoByte b (s.port ep)).1).setFlag (aPstat ep) 1 true
      else s.setPort ep (fifoByte b (s.port ep)).1) := by
  rw [exec_rxByte, execRxByte, if_neg (by simp [hm, hs, hg])]

theorem exec_linegap_generated (hg : s.generated ep = true) (ho : openLine (s.port ep).rx ≠ []) : exec (.linegap ep) s =
    done ((s.setPort ep { s.port ep with rx := closedLines (s.port ep).rx, dropping := false }).setFlag (aPstat ep) 2 true) := by
  rw [exec_linegap, execLinegap, if_neg (by simp [hm, hs, hg])]
  dsimp only
  rw [if_neg ho]

/-! ### Typed mode -/

omit hm hs in
theorem exec_linegap_typed (hg : s.generated ep = false) : exec (.linegap ep) s = done s := by
  rw [exec_linegap, execLinegap, if_pos (by simp [hg])]

theorem exec_typedHoldTimeout_typed (hg : s.generated ep = false) (ht : (s.port ep).typed ≠ []) : exec (.typedHoldTimeout ep) s =
    done (State.send ep (.echo (echoLine (s.port ep).typed))
      (State.send ep .prompt (sendEvents ep (State.send ep (.echo crlf) s)))) := by
  rw [exec_typedHoldTimeout, execTypedHoldTimeout, if_neg (by simp [hm, hs, hg, ht])]

variable (hg : s.generated ep = false)
include hg

/-- A byte that neither edits nor ends the line. -/
theorem exec_typedByte_plain {b : Byte} (hctl : b ∉ [8, 10, 13, 0x15, 0x7F]) : exec (.typedByte ep b) s =
    done (if (b = 9 ∨ (0x20 ≤ b ∧ b ≤ 0x7E)) ∧ (s.port ep).typed.length < 255 then
      State.send ep (.echo [if masked (s.port ep).typed then 0x2A else b])
        (s.setPort ep { s.port ep with crSeen := false, typed := (s.port ep).typed ++ [b] })
    else State.send ep (.echo [7]) (s.setPort ep { s.port ep with crSeen := false })) := by
  simp only [List.mem_cons, List.not_mem_nil, or_false, not_or] at hctl
  obtain ⟨hbs, hlf, hcr, hnak, hdel⟩ := hctl
  simp only [exec_typedByte, execTypedByte, hm, hs, hg, isEol, hbs, hlf, hcr, hnak, hdel, State.port_setPort_same,
    State.setPort_setPort, false_and, or_self, decide_false, Bool.or_self, Bool.not_true,
    Bool.false_eq_true, if_false]

theorem exec_typedByte_printable {b : Byte} (hlo : 0x20 ≤ b) (hhi : b ≤ 0x7E) (hroom : (s.port ep).typed.length < 255) :
    exec (.typedByte ep b) s = done (State.send ep (.echo [if masked (s.port ep).typed then 0x2A else b])
      (s.setPort ep { s.port ep with crSeen := false, typed := (s.port ep).typed ++ [b] })) := by
  rw [exec_typedByte_plain hm hs hg (printable_not_control hlo hhi), if_pos ⟨.inr ⟨hlo, hhi⟩, hroom⟩]

theorem exec_typedByte_full {b : Byte} (hlo : 0x20 ≤ b) (hhi : b ≤ 0x7E) (hfull : 255 ≤ (s.port ep).typed.length) :
    exec (.typedByte ep b) s = done (State.send ep (.echo [7]) (s.setPort ep { s.port ep with crSeen := false })) := by
  rw [exec_typedByte_plain hm hs hg (printable_not_control hlo hhi), if_neg (fun h => absurd h.2 (Nat.not_lt.2 hfull))]

theorem exec_typedByte_backspace_empty {b : Byte} (hb : b = 8 ∨ b = 0x7F) (ht : (s.port ep).typed = []) :
    exec (.typedByte ep b) s = done (State.send ep (.echo [7]) (s.setPort ep { s.port ep with crSeen := false })) := by
  rcases hb with rfl | rfl <;> simp [exec_typedByte, execTypedByte, hm, hs, hg, isEol, ht]

theorem exec_typedByte_backspace {b : Byte} (hb : b = 8 ∨ b = 0x7F) (ht : (s.port ep).typed ≠ []) :
    exec (.typedByte ep b) s = done (State.send ep (.echo [8, 0x20, 8])
      (s.setPort ep { s.port ep with crSeen := false, typed := (s.port ep).typed.dropLast })) := by
  rcases hb with rfl | rfl <;> simp [exec_typedByte, execTypedByte, hm, hs, hg, isEol, ht]

theorem exec_typedByte_ctrlU : exec (.typedByte ep 0x15) s = done (State.send ep .prompt
    (State.send ep (.echo [0x5E, 0x55, 13, 10]) (s.setPort ep { s.port ep with crSeen := false, typed := [] }))) := by
  simp [exec_typedByte, execTypedByte, hm, hs, hg, isEol, crlf]

theorem exec_typedByte_cr :
    exec (.typedByte ep 13) s = done (typedEol ep (s.setPort ep { s.port ep with crSeen := true })) := by
  simp [exec_typedByte, execTypedByte, hm, hs, hg, isEol]

theorem exec_typedByte_lf (hc : (s.port ep).crSeen = false) :
    exec (.typedByte ep 10) s = done (typedEol ep (s.setPort ep { s.port ep with crSeen := false })) := by
  simp [exec_typedByte, execTypedByte, hm, hs, hg, isEol, hc]

theorem exec_typedByte_lf_after_cr (hc : (s.port ep).crSeen = true) :
    exec (.typedByte ep 10) s = done (s.setPort ep { s.port ep with crSeen := false }) := by
  simp [exec_typedByte, execTypedByte, hm, hs, hg, hc]

end

end Sys2Proof.Machine

open Sys2Proof Sys2Proof.Machine

/-- Settles O10: each clause is the branch of the port's meaning that its byte takes, and exec ends there. -/
theorem portBytes : Obligations.PortBytes := by
  refine ⟨fifoBytes_fifoByte_le, fun ep s hm hs => ⟨fun hg => ?generated, fun hg => ?typed⟩⟩
  case generated =>
    have hrx := exec_rxByte_generated hm hs hg
    refine ⟨fun b hfits => becomes_done ?_, fun b hlost => becomes_done ?_,
      fun ho => becomes_done (exec_linegap_generated hm hs hg ho)⟩
    · rw [hrx, hfits, if_neg Bool.false_ne_true]
    · rw [hrx, hlost, if_pos rfl]
  case typed =>
    refine ⟨becomes_done (exec_linegap_typed hg),
      fun b hlo hhi hroom => becomes_done (exec_typedByte_printable hm hs hg hlo hhi hroom),
      fun b hb => becomes_done ?bell,
      fun b hb ht => becomes_done (exec_typedByte_backspace hm hs hg hb ht),
      becomes_done (exec_typedByte_ctrlU hm hs hg),
      becomes_done (exec_typedByte_cr hm hs hg),
      fun hc => becomes_done (exec_typedByte_lf hm hs hg hc),
      fun hc => becomes_done (exec_typedByte_lf_after_cr hm hs hg hc),
      fun ht => becomes_done (exec_typedHoldTimeout_typed hm hs hg ht)⟩
    case bell =>
      rcases hb with ⟨hlo, hhi, hfull⟩ | ⟨hb, ht⟩
      · exact exec_typedByte_full hm hs hg hlo hhi hfull
      · exact exec_typedByte_backspace_empty hm hs hg hb ht
end

section
/-!
PROOFS. The watchdog and the lock (R132, R135, R136, Table 11.1): what their lines do, what a reset leaves of the count of failed
attempts, and the lock that S2 sets.
-/
namespace Sys2Proof.Machine

/-! ### Lines -/

/-- A line that passes: its answer r, and the state s' that its effect reaches but for the carrying of the line. -/
theorem line_answers {ln : Line} {f : Form} {s s' : State} {r : Resp} (hp : Passes ln f s) (hi : Inv s)
    (checks : State → List (Code × Bool)) (eff : State → State × Resp)
    (hc : ∀ u, Stays (some ln.ep) noReg s u → ∀ p ∈ checks u, p.2 = false)
    (hg : ∀ u, Stays (some ln.ep) noReg s u →
      (eff u).2 = r ∧ Stays (some ln.ep) noReg s' (eff u).1 ∧ ((eff u).1.port ln.ep).tx = (u.port ln.ep).tx) :
    ∃ t, done (runLine ln f checks eff s) = .next t ∧ Answered ln r s t ∧ Stays (some ln.ep) noReg s' t := by
  obtain ⟨u, t, _, hu, _, hrun, hans, hst, _⟩ := line_acts hp hi checks eff noReg s' hc fun u hu _ => (hg u hu).2
  exact ⟨t, hrun, (hg u hu).1 ▸ hans, hst⟩

theorem Stays.wdPeriod {e : Option Ep} {w : Nat → Prop} {s t : State} (h : Stays e w s t) (hw : ¬ w 0x20030) :
    t.wdPeriod = s.wdPeriod :=
  State.fld_of_reg (h.reg _ hw (by unfold ioKey; simp)) _ _

theorem Stays.pwMatches {e : Option Ep} {w : Nat → Prop} {s t : State} (h : Stays e w s t) (v : BitVec 64) :
    t.pwMatches v = s.pwMatches v := by
  unfold State.pwMatches State.pfWord
  rw [h.pf]

/-! ### The cause of the watchdog -/

/-- A bit written with what it holds. -/
theorem setBit_bit (x : Word) (i : Nat) : setBit x i (bit x i) = x := by
  apply BitVec.eq_of_getLsbD_eq
  intro j _
  rw [setBit, getLsbD_setBits]
  split
  · obtain rfl : j = i := by omega
    cases hb : bit x j <;> simpa [bit] using hb.symm
  · rfl

section
variable (k b : Nat) (o : Obj)

theorem clearCause_absent {s : State} (h : s.flag k (16 + b) = false) : clearCause k b o s = s := by
  simp [clearCause, h]

theorem clearCause_present {s : State} (hf : s.fenced .safe = false) (h : s.flag k (16 + b) = true) :
    clearCause k b o s = (s.setFlag k (16 + b) false).emit .safeClear o [fcause b] := by
  simp [clearCause, hf, h]

theorem clearCause_reg {s : State} (hw : swf resetWord s.regs = true) :
    (clearCause k b o s).reg k = if s.fenced .safe then s.reg k else setBit (s.reg k) (16 + b) false := by
  cases hf : s.fenced .safe
  · cases hb : s.flag k (16 + b)
    · have hbit : setBit (s.reg k) (16 + b) false = s.reg k := hb ▸ setBit_bit (s.reg k) (16 + b)
      rw [clearCause_absent k b o hb, hbit, if_neg Bool.false_ne_true]
    · rw [clearCause_present k b o hf hb, State.reg_emit, State.reg_setFlag_same _ _ _ _ hw, if_neg Bool.false_ne_true]
  · simp [clearCause, hf]

theorem clearCause_port (s : State) (e : Ep) : (clearCause k b o s).port e = s.port e := by
  unfold clearCause
  split
  · rfl
  · rw [State.port_emit, State.port_setFlag]

/-- Against a step that raises events, those of t are free. -/
theorem Stays.raised {e : Option Ep} {w : Nat → Prop} {s t : State} (c : Ev) (d : List Fld) (h : Stays e w s t) :
    Stays e w (s.emit c o d) t :=
  { h with events := fun a => absurd a (by simp [State.emit]) }

/-- The end of a cause changes its register alone, in a step that raises events. -/
theorem Stays.clearCause {e : Option Ep} {w : Nat → Prop} {s t : State} (h : Stays e w s t) (hk : w k) (hr : k ≠ aRecStat)
    (hs : s.evNew ≠ []) : Stays e w s (clearCause k b o t) := by
  unfold Machine.clearCause
  split
  · exact h
  · exact (h.setFlag k (16 + b) false (.inl hk) (.inl (.inl hr))).emit _ _ _ hs

end

/-! ### The watchdog -/

/-- The watchdog as a reload leaves it. -/
def State.reloaded (s : State) : Wdog := { running := decide (s.wdPeriod ≠ 0), reload := s.clk.raw }

theorem kickWdog_eq (s : State) : kickWdog s = { s with wdog := s.reloaded } := rfl

theorem Stays.reloaded {e : Option Ep} {w : Nat → Prop} {s t : State} (h : Stays e w s t) (hw : ¬ w 0x20030) :
    t.reloaded = s.reloaded := by
  rw [State.reloaded, State.reloaded, h.wdPeriod hw, h.clk]

theorem Stays.kickWdog {e : Option Ep} {w : Nat → Prop} {s t : State} (h : Stays e w s t) (hw : ¬ w 0x20030) :
    Stays e w (kickWdog s) (kickWdog t) := by
  rw [kickWdog_eq, kickWdog_eq, h.reloaded hw]
  exact h.withWdog _

theorem setWdog_wdog {s : State} {ms : Nat} (hw : swf resetWord s.regs = true) (hms : ms < 2 ^ 20) :
    (setWdog ms s).wdog = { running := decide (ms ≠ 0), reload := s.clk.raw } := by
  have hp : (s.setReg 0x20030 (word ms)).wdPeriod = ms := by
    rw [State.wdPeriod, State.fld, State.reg_setReg_same _ _ _ hw, bits, word, BitVec.toNat_ofNat]
    omega
  rw [setWdog, kickWdog_eq, State.reloaded, hp]
  rfl

theorem setWdog_reg {s : State} {ms : Nat} (hw : swf resetWord s.regs = true) : (setWdog ms s).reg 0x20030 = word ms :=
  State.reg_setReg_same s _ _ hw

theorem kickWdog_port (s : State) (e : Ep) : (kickWdog s).port e = s.port e := by cases e <;> rfl

/-- A line that sets the period: the period is stored and the watchdog runs from its instant, where it is not 0. -/
theorem setWdog_line {ln : Line} {s : State} {ms : Nat} (hp : Passes ln {} s) (hi : Inv s) (hms : ms < 2 ^ 20)
    (checks : State → List (Code × Bool)) (hc : ∀ u, ∀ p ∈ checks u, p.2 = false) :
    ∃ t, done (runLine ln {} checks (okay (setWdog ms)) s) = .next t ∧ Answered ln .ok s t ∧ t.reg 0x20030 = word ms ∧
      t.wdog = { running := decide (ms ≠ 0), reload := s.clk.raw } ∧
      Stays (some ln.ep) (· = 0x20030) { s with wdog := t.wdog } t := by
  obtain ⟨u, t, hu, hw, hrun, hans, hst, hgt, _⟩ := okay_acts hp hi checks (setWdog ms) (· = 0x20030)
    { s with wdog := { running := decide (ms ≠ 0), reload := s.clk.raw } } (fun u _ => hc u) fun u hu hw => by
      refine ⟨?_, by rw [setWdog, kickWdog_port, State.port_setReg]⟩
      have hset : setWdog ms u = { u.setReg 0x20030 (word ms) with wdog := (setWdog ms u).wdog } := rfl
      rw [hset, setWdog_wdog hw hms, hu.clk]
      exact (Stays.setReg (w := (· = 0x20030)) 0x20030 (word ms) (hu.mono fun _ => False.elim) (.inl rfl)
        (.inl (by decide))).withWdog _
  have hreg : t.reg 0x20030 = word ms := (hgt.reg _ id (by unfold ioKey; simp)).trans (setWdog_reg hw)
  exact ⟨t, hrun, hans, hreg, hst.wdog, hst.wdog ▸ hst⟩

/-- kick reloads the watchdog and ends the condition of WDOG (R132, Table 11.1). -/
theorem exec_kick {ln : Line} {s : State} (hi : Inv s) (hp : Passes ln { locked := false } s) :
    ∃ t, exec (.kick ln) s = .next t ∧ Answered ln .ok s t ∧ t.wdog = s.reloaded ∧
      t.reg 0x30004 = (if s.fenced .safe then s.reg 0x30004 else setBit (s.reg 0x30004) 19 false) ∧
      (s.fenced .safe = false → s.flag 0x30004 19 = true → s.evNew = [] → Queued .safeClear .dev [fcause 3] t) ∧
      (s.flag 0x30004 19 = false → Stays (some ln.ep) noReg { s with wdog := t.wdog } t) ∧
      Stays (some ln.ep) (· = 0x30004) ({ s with wdog := t.wdog }.emit .safeClear .dev []) t := by
  have hkey : ¬ ioKey (some ln.ep) 0x30004 := by unfold ioKey; simp
  obtain ⟨u, t, hu, hw, hrun, hans, hst, hgt, hev⟩ := okay_acts hp hi (fun _ => [])
    (fun u => clearCause 0x30004 3 .dev (kickWdog u)) (· = 0x30004) ((kickWdog s).emit .safeClear .dev [])
    (fun _ _ _ h => absurd h List.not_mem_nil) fun u hu _ => by
      refine ⟨?_, by rw [clearCause_port, kickWdog_port]⟩
      have hk : Stays (some ln.ep) (· = 0x30004) (kickWdog s) (kickWdog u) := (hu.kickWdog id).mono fun _ => False.elim
      exact (hk.raised .dev .safeClear []).clearCause _ _ _ rfl (by decide) (by simp [State.emit])
  have hk := hu.kickWdog id
  have hflag : (kickWdog u).flag 0x30004 19 = s.flag 0x30004 19 := State.flag_of_reg (hu.reg _ id hkey) _
  have hfen : (kickWdog u).fenced .safe = s.fenced .safe := hk.fenced .safe (fun _ _ _ => id) (by simp)
  have hwd : t.wdog = s.reloaded := hst.wdog
  refine ⟨t, hrun, hans, hwd, ?_, fun hf hb hn => ?_, fun hb => ?_, hwd ▸ hst⟩
  · have hreg : (kickWdog u).reg 0x30004 = s.reg 0x30004 := hu.reg _ id hkey
    have hcw : swf resetWord (kickWdog u).regs = true := hw
    rw [hgt.reg _ id hkey, clearCause_reg _ _ _ hcw, hfen, hreg]
  · have hcl := clearCause_present 0x30004 3 .dev (hfen.trans hf) (hflag.trans hb)
    have hnew : (clearCause 0x30004 3 .dev (kickWdog u)).evNew = [{ cls := .safeClear, obj := .dev, det := [fcause 3] }] := by
      rw [hcl]
      exact congrArg (· ++ [_]) (hu.events hn).1
    obtain ⟨x, hx, he⟩ := hev _ (by rw [hnew]; exact List.mem_singleton.2 rfl) (by rw [hnew]; decide)
    exact ⟨x, hx, by rw [he]; exact ⟨rfl, rfl, rfl⟩⟩
  · rw [hwd]
    exact hk.trans (clearCause_absent 0x30004 3 .dev (hflag.trans hb) ▸ hgt)

/-! ### The lock -/

theorem setUnlocked_port_same (e : Ep) (b : Bool) (s : State) : (setUnlocked e b s).port e = { s.port e with unlocked := b } :=
  State.port_setPort_same ..

theorem Stays.setUnlocked {e : Ep} {w : Nat → Prop} {s t : State} (b : Bool) (h : Stays (some e) w s t) :
    Stays (some e) w (setUnlocked e b s) (setUnlocked e b t) := by
  have hport : ∀ x, some e ≠ some x → (Machine.setUnlocked e b t).port x = (Machine.setUnlocked e b s).port x := by
    intro x hx
    have hne : x ≠ e := fun hxe => hx (hxe ▸ rfl)
    simpa [Machine.setUnlocked, State.port_setPort_other _ _ _ _ hne] using h.port x hx
  obtain ⟨_, hown⟩ := h.own e rfl
  cases e <;> exact { h with port := hport, own := fun x hx => by obtain rfl := Option.some.inj hx; exact ⟨rfl, hown⟩ }

/-- The same count of failures and the same session on both sides. -/
theorem Stays.withAttempts {e : Option Ep} {w : Nat → Prop} {s t : State} (n : Nat) (b : Bool) (h : Stays e w s t) :
    Stays e w { s with pwFails := n, session := b } { t with pwFails := n, session := b } :=
  { h with pwFails := rfl, session := rfl }

/-- The count of failures and the session belong to no entry point. -/
theorem port_withAttempts (s : State) (n : Nat) (b : Bool) (e : Ep) :
    State.port { s with pwFails := n, session := b } e = s.port e := by
  cases e <;> rfl

theorem setUnlocked_withAttempts (s : State) (n : Nat) (b c : Bool) (e : Ep) :
    setUnlocked e c { s with pwFails := n, session := b } = { setUnlocked e c s with pwFails := n, session := b } := by
  cases e <;> rfl

/-- What unlock with a token of the password's shape does and answers. -/
def unlockEffect (ln : Line) (pw : BitVec 64) (s : State) : State × Resp :=
  let r := tryPassword ln.ep pw s
  match r.1 with
  | 0 => (setUnlocked ln.ep true r.2, .ok)
  | 8 => (r.2, .err .pwlock)
  | _ => (r.2, .err (if s.pwSet then .password else .nopassword))

theorem exec_unlock_some (ln : Line) (pw : BitVec 64) (s : State) : exec (.unlock ln (some pw)) s =
    done (runLine ln { locked := false, secret := true } (fun _ => [(.arg, false)]) (unlockEffect ln pw) s) := rfl

/-- The UNLOCK mark of an attempt (Table 17.2). -/
def State.unlockMark (s : State) (e : Ep) (outcome : Nat) : State := s.record 0x2B 0 0 [word (epCode e), word outcome]

section
variable {ln : Line} {pw : BitVec 64} {s : State}

theorem unlockEffect_lockout (h : 3 ≤ s.pwFails) : unlockEffect ln pw s = (s.unlockMark ln.ep 8, .err .pwlock) := by
  rw [unlockEffect, tryPassword, if_pos h]
  rfl

theorem unlockEffect_match (hn : s.pwFails < 3) (hset : s.pwSet = true) (hm : s.pwMatches pw = true) :
    unlockEffect ln pw s =
      (setUnlocked ln.ep true (State.unlockMark { s with pwFails := 0, session := true } ln.ep 0), .ok) := by
  rw [unlockEffect, tryPassword, if_neg (Nat.not_le.2 hn), if_neg (by simp [hset]), if_pos hm]
  rfl

theorem unlockEffect_wrong (hn : s.pwFails < 3) (hset : s.pwSet = true) (hm : s.pwMatches pw = false) :
    unlockEffect ln pw s =
      (State.unlockMark { s with pwFails := s.pwFails + 1 } ln.ep 7, .err .password) := by
  rw [unlockEffect, tryPassword, if_neg (Nat.not_le.2 hn), if_neg (by simp [hset]), if_neg (by simp [hm]), if_pos hset]
  rfl

end

/-- A line unlock that passes: its answer, and what its effect leaves. -/
theorem unlock_answers {ln : Line} {pw : BitVec 64} {s s' : State} {r : Resp} (hi : Inv s)
    (hp : Passes ln { locked := false, secret := true } s)
    (hg : ∀ u, Stays (some ln.ep) noReg s u → ∃ v, unlockEffect ln pw u = (v, r) ∧
      Stays (some ln.ep) noReg s' v ∧ (v.port ln.ep).tx = (u.port ln.ep).tx) :
    ∃ t, exec (.unlock ln (some pw)) s = .next t ∧ Answered ln r s t ∧ Stays (some ln.ep) noReg s' t := by
  rw [exec_unlock_some]
  refine line_answers hp hi _ _ (fun _ _ => by simp) fun u hu => ?_
  obtain ⟨v, hv, hst, htx⟩ := hg u hu
  rw [hv]
  exact ⟨rfl, hst, htx⟩

section
variable {ln : Line} {s : State} (hi : Inv s) (hset : s.pwSet = true)
include hi hset

/-- lock locks its entry point (R135). -/
theorem exec_lock (hp : Passes ln { locked := false } s) : ∃ t, exec (.lock ln) s = .next t ∧ Answered ln .ok s t ∧
    (t.port ln.ep).unlocked = false ∧ Stays (some ln.ep) noReg (setUnlocked ln.ep false s) t := by
  obtain ⟨t, hrun, hans, hst⟩ := line_answers (s' := setUnlocked ln.ep false s) hp hi
    (fun u => [(.nopassword, !u.pwSet)]) (okay (setUnlocked ln.ep false)) (fun u hu => by simp [hu.pwSet, hset])
    fun u hu => ⟨rfl, hu.setUnlocked false, by rw [okay, setUnlocked_port_same]⟩
  obtain ⟨hunl, _⟩ := hst.own ln.ep rfl
  exact ⟨t, hrun, hans, by rw [hunl, setUnlocked_port_same], hst⟩

variable {pw : BitVec 64} (hp : Passes ln { locked := false, secret := true } s)
include hp

/-- The password unlocks the entry point, clears the count and opens the session (R136, R413). -/
theorem exec_unlock_match (hn : s.pwFails < 3) (hm : s.pwMatches pw = true) :
    ∃ t, exec (.unlock ln (some pw)) s = .next t ∧ Answered ln .ok s t ∧
      (t.port ln.ep).unlocked = true ∧ t.pwFails = 0 ∧ t.session = true ∧
      Stays (some ln.ep) noReg { setUnlocked ln.ep true s with pwFails := 0, session := true } t := by
  obtain ⟨t, hrun, hans, hst⟩ := unlock_answers (pw := pw) (r := .ok)
    (s' := { setUnlocked ln.ep true s with pwFails := 0, session := true }) hi hp fun u hu => by
      refine ⟨_, unlockEffect_match (hu.pwFails ▸ hn) (hu.pwSet.trans hset) ((hu.pwMatches pw).trans hm), ?_, ?_⟩
      · have hmark := ((hu.withAttempts 0 true).record 0x2B 0 0 [word (epCode ln.ep), word 0]).setUnlocked true
        rw [setUnlocked_withAttempts s] at hmark
        exact hmark
      · rw [setUnlocked_port_same, State.unlockMark, State.record_port, port_withAttempts]
  obtain ⟨hunl, _⟩ := hst.own ln.ep rfl
  have hport := (port_withAttempts (setUnlocked ln.ep true s) 0 true ln.ep).trans (setUnlocked_port_same ..)
  exact ⟨t, hrun, hans, hunl.trans (congrArg Port.unlocked hport), hst.pwFails, hst.session, hst⟩

/-- Another password is counted (R136). -/
theorem exec_unlock_wrong (hn : s.pwFails < 3) (hm : s.pwMatches pw = false) :
    ∃ t, exec (.unlock ln (some pw)) s = .next t ∧ Answered ln (.err .password) s t ∧ t.pwFails = s.pwFails + 1 ∧
      Stays (some ln.ep) noReg { s with pwFails := s.pwFails + 1 } t := by
  obtain ⟨t, hrun, hans, hst⟩ := unlock_answers (pw := pw) (r := .err .password)
    (s' := { s with pwFails := s.pwFails + 1 }) hi hp fun u hu => by
      refine ⟨_, unlockEffect_wrong (hu.pwFails ▸ hn) (hu.pwSet.trans hset) ((hu.pwMatches pw).trans hm), ?_, ?_⟩
      · rw [hu.pwFails]; exact (hu.withPwFails _).record ..
      · rw [State.unlockMark, State.record_port]
        exact congrArg Port.tx (port_withAttempts u _ u.session ln.ep)
  exact ⟨t, hrun, hans, hst.pwFails, hst⟩

omit hset in
/-- After three failures nothing is compared (R136). -/
theorem exec_unlock_lockout (hn : s.pwFails = 3) : ∃ t, exec (.unlock ln (some pw)) s = .next t ∧
    Answered ln (.err .pwlock) s t ∧ Stays (some ln.ep) noReg s t :=
  unlock_answers hi hp fun u hu =>
    ⟨_, unlockEffect_lockout (hu.pwFails ▸ hn.ge), hu.record .., by rw [State.unlockMark, State.record_port]⟩

end

/-- S2 locks every entry point where a password is set (R135). -/
theorem lockPoints_unlocked (s : State) (e : Ep) : ((lockPoints s).port e).unlocked = !s.pwSet := by
  cases e <;> rfl

theorem send_port_unlocked (s : State) (e x : Ep) (i : TxItem) : ((s.send x i).port e).unlocked = (s.port e).unlocked := by
  by_cases h : e = x
  · subst h; rw [State.send, State.port_setPort_same]
  · rw [State.send, State.port_setPort_other _ _ _ _ h]

theorem exec_xoQualified_unlocked (e : Ep) (late : Bool) {s : State} (h : s.atStage 1 = true) :
    ∃ t, exec (.xoQualified late) s = .next t ∧ (t.port e).unlocked = !s.pwSet := by
  refine ⟨_, rfl, ?_⟩
  rw [flush_port, if_pos h]
  have hl := lockPoints_unlocked (toStage 2 { s with sup := { s.sup with xoLate := late } }) e
  dsimp only
  split
  · exact hl
  · rw [State.boot, send_port_unlocked]; exact hl

/-! ### The count of failed attempts over a reset -/

/-- What the output selector and a latch that acts alone change: registers, the implied state of channels and groups, and the
events of the step. -/
def Regated (s t : State) : Prop := ∃ r c g e, t = { s with regs := r, chn := c, grp := g, evNew := e }

theorem Regated.refl (s : State) : Regated s s := ⟨_, _, _, _, rfl⟩

theorem Regated.trans {s t u : State} (h : Regated s t) (g : Regated t u) : Regated s u := by
  obtain ⟨_, _, _, _, rfl⟩ := h
  obtain ⟨_, _, _, _, rfl⟩ := g
  exact ⟨_, _, _, _, rfl⟩

theorem Regated.pwFails {s t : State} (h : Regated s t) : t.pwFails = s.pwFails := by
  obtain ⟨_, _, _, _, rfl⟩ := h
  rfl

theorem Regated.forAll {s t : State} {f : Nat → State → State} (l : List Nat) (h : Regated s t)
    (hf : ∀ n u, Regated u (f n u)) : Regated s (forAll l f t) := by
  unfold Machine.forAll
  induction l generalizing t with
  | nil => exact h
  | cons n l ih => exact ih (h.trans (hf n t))

theorem regated_setFlag (s : State) (k i : Nat) (b : Bool) : Regated s (s.setFlag k i b) := ⟨_, _, _, _, rfl⟩
theorem regated_setCh (s : State) (n : Nat) (a : ChanAux) : Regated s (s.setCh n a) := ⟨_, _, _, _, rfl⟩
theorem regated_setGr (s : State) (g : Nat) (a : GrpAux) : Regated s (s.setGr g a) := ⟨_, _, _, _, rfl⟩
theorem regated_emit (s : State) (c : Ev) (o : Obj) (d : List Fld) : Regated s (s.emit c o d) := ⟨_, _, _, _, rfl⟩

theorem regated_clearCause (k b : Nat) (o : Obj) (s : State) : Regated s (clearCause k b o s) := by
  unfold clearCause
  split
  · exact Regated.refl s
  · exact (regated_setFlag ..).trans (regated_emit ..)

theorem regated_devOff (s : State) (n : Nat) : Regated s (s.devOff n) := by
  have hclear := regated_setFlag s (aStat n) 16 false
  unfold State.devOff
  split
  · dsimp only
    split
    · exact hclear
    · exact hclear.trans (regated_clearCause ..)
  · exact Regated.refl s

theorem regated_codeMoved (s : State) (n : Nat) : Regated s (s.codeMoved n) := (regated_setCh ..).trans (regated_setFlag ..)

theorem regated_gateMoved (s t : State) (n : Nat) : Regated t (s.gateMoved t n) := by
  unfold State.gateMoved
  split
  · split
    · exact regated_devOff t n
    · exact (regated_codeMoved t n).trans (regated_devOff ..)
  · split
    · exact regated_setFlag ..
    · split
      · exact (regated_setFlag ..).trans (regated_setFlag ..)
      · exact Regated.refl t

theorem regated_withGates {f : State → State} (l : List Nat) (s : State) (hf : Regated s (f s)) : Regated s (withGates l f s) :=
  hf.forAll l fun n u => regated_gateMoved s u n

theorem regated_latchAlone (g : Nat) (s : State) : Regated s (latchAlone g s) := by
  unfold latchAlone
  split
  · exact Regated.refl s
  · refine regated_withGates _ _ (Regated.trans ?held ((regated_setGr ..).trans (regated_setFlag ..)))
    case held => exact (Regated.refl s).forAll _ fun n u => regated_setCh u n _

/-- A reset other than power-on keeps the count of failed attempts (R136). -/
theorem takeReset_pwFails {b : Nat} (hb : b ≠ 0) (s : State) : (takeReset b s).pwFails = s.pwFails := by
  have hrec : ∀ (c : Prop) [Decidable c] kind src p (u : State), (if c then u.record kind src 0 p else u).pwFails = u.pwFails :=
    fun c _ kind src p u => by
      obtain ⟨_, _, h⟩ := recorded_record kind src 0 p u
      split
      · rw [h]
      · rfl
  have hlatch : ∀ u : State, (forAll u.groups latchAlone u).pwFails = u.pwFails := fun u =>
    ((Regated.refl u).forAll u.groups regated_latchAlone).pwFails
  unfold takeReset
  dsimp only
  rw [if_neg hb, hlatch, hrec, hrec]

theorem takeReset_powerOn_pwFails (s : State) : (takeReset 0 s).pwFails = 0 := rfl

theorem exec_powerOnReset_pwFails {s : State} (h : ¬(s.sup.inReset = true ∧ s.sup.porHeld = true)) :
    ∃ t, exec .powerOnReset s = .next t ∧ t.pwFails = 0 := by
  refine ⟨_, rfl, ?_⟩
  rw [(Stays.refl none noReg _).flush.pwFails, if_neg (by simpa using h)]
  exact takeReset_powerOn_pwFails s

end Sys2Proof.Machine

open Sys2Proof Sys2Proof.Machine

/-- Settles O4: a line that passes runs its effect on a state that differs from s by the carrying of the line alone; a reset's
latches and records leave the count of failures. -/
theorem watchdogAndLock : Obligations.WatchdogAndLock := by
  refine ⟨fun ln s hi => ⟨exec_kick hi, fun hp => ⟨fun q hunit hlo hhi => ?set, ?off⟩⟩, rfl,
    fun b s hb => takeReset_pwFails hb s, fun s => exec_powerOnReset_pwFails, fun e late s => exec_xoQualified_unlocked e late,
    fun ln s hi hset => ⟨exec_lock hi hset, fun pw hp => ⟨exec_unlock_match hi hset hp, exec_unlock_wrong hi hset hp,
      exec_unlock_lockout hi hp⟩⟩⟩
  case set =>
    obtain ⟨t, hrun, hans, hreg, hwd, hst⟩ := setWdog_line hp hi (ms := (qSteps q .ms 1 1000000).toNat) (by omega)
      (fun _ => [(.unit, qBad q .ms), (.range, outside (qSteps q .ms 1 1000000) 10 600000)])
      (fun _ => by simp [hunit, outside, hlo, hhi])
    refine ⟨t, hrun, hans, hreg, ?_, hst⟩
    rw [hwd, decide_eq_true (by omega)]
  case off =>
    obtain ⟨t, hrun, hans, hreg, hwd, hst⟩ := setWdog_line hp hi (ms := 0) (by decide) (fun _ => [])
      (fun _ _ h => absurd h List.not_mem_nil)
    exact ⟨t, hrun, hans, hreg, congrArg Wdog.running hwd, hst⟩
end

section
/-!
PROOFS. The sequences of the profile flash (R404, R406, R407, R415, R416, Table 15.3): what a write into a bank leaves of an entry
point, the state after each write of the sequence of a program, and the results that a program ends with before any pulse.
-/
namespace Sys2Proof.Machine

/-! ### Sparse stores written again -/

section
variable {α : Type} [DecidableEq α] (d : Nat → α) {m : Sparse α} (k : Nat) (h : swf d m = true)
include h

/-- The last write of a key is what a canonical store holds. -/
theorem sset_sset_same (v w : α) : sset (d k) (sset (d k) m k v) k w = sset (d k) m k w := by
  have hv := swf_sset d m k v h
  refine swf_ext d _ _ (swf_sset d _ k w hv) (swf_sset d m k w h) fun j => ?_
  by_cases hj : j = k
  · rw [hj, sget_sset_same d _ k w hv, sget_sset_same d _ k w h]
  · rw [sget_sset_other _ _ _ _ _ _ hj, sget_sset_other _ _ _ _ _ _ hj, sget_sset_other _ _ _ _ _ _ hj]

/-- A canonical store written with what it holds. -/
theorem sset_sget_same : sset (d k) m k (sget (d k) m k) = m := by
  refine swf_ext d _ _ (swf_sset d m k _ h) h fun j => ?_
  by_cases hj : j = k
  · rw [hj, sget_sset_same d _ k _ h]
  · rw [sget_sset_other _ _ _ _ _ _ hj]

end

/-- What a store holds beside its default stands in one of its cells. -/
theorem mem_of_sget_ne {α : Type} {d : α} {m : Sparse α} {k : Nat} (h : sget d m k ≠ d) : (k, sget d m k) ∈ m := by
  induction m with
  | nil => exact absurd rfl h
  | cons p m ih =>
    obtain ⟨i, v⟩ := p
    rw [sget] at h ⊢
    split at h
    next hi => simp [hi]
    next hi => rw [if_neg hi]; exact List.mem_cons_of_mem _ (ih h)

/-! ### The tables of the profile flash -/

theorem Memory.wf_pfWords {s : State} (h : Memory.wf s = true) : swf (fun _ => ({} : PWord)) s.pf.words = true := by
  simp only [Memory.wf, Bool.and_eq_true] at h
  obtain ⟨⟨⟨⟨_, hwords⟩, _⟩, _⟩, _⟩ := h
  exact hwords

theorem Memory.wf_pfOps {s : State} (h : Memory.wf s = true) : swf (fun _ => (none : Option PfKind)) s.pf.ops = true := by
  simp only [Memory.wf, PFlash.tables, Bool.and_eq_true] at h
  obtain ⟨⟨⟨_, ⟨⟨_, hops⟩, _⟩, _⟩, _⟩, _⟩ := h
  exact hops

theorem Memory.wf_pfSeqs {s : State} (h : Memory.wf s = true) : swf (fun _ => ({} : PfSeq)) s.pf.seqs = true := by
  simp only [Memory.wf, PFlash.tables, Bool.and_eq_true] at h
  obtain ⟨⟨⟨_, ⟨⟨_, _⟩, hseqs⟩, _⟩, _⟩, _⟩ := h
  exact hseqs

section
variable {b : Nat} {s : State} (hw : Memory.wf s = true)
include hw

theorem pfSeq_setPfSeq_same (q : PfSeq) : (setPfSeq b q s).pfSeq b = q :=
  sget_sset_same _ _ _ _ (Memory.wf_pfSeqs hw)

theorem setPfSeq_setPfSeq (p q : PfSeq) : setPfSeq b q (setPfSeq b p s) = setPfSeq b q s :=
  congrArg (fun l => { s with pf := { s.pf with seqs := l } }) (sset_sset_same _ b (Memory.wf_pfSeqs hw) p q)

theorem setPfSeq_pfSeq {q : PfSeq} (hq : s.pfSeq b = q) : setPfSeq b q s = s := by
  subst hq
  exact congrArg (fun l => { s with pf := { s.pf with seqs := l } }) (sset_sget_same _ b (Memory.wf_pfSeqs hw))

theorem pfOp_setPfOp_same (k : Option PfKind) : (setPfOp b k s).pfOp b = k :=
  sget_sset_same _ _ _ _ (Memory.wf_pfOps hw)

theorem pfWord_setPfWord_same (a : Nat) (w : PWord) : (setPfWord a w s).pfWord a = w :=
  sget_sset_same _ _ _ _ (Memory.wf_pfWords hw)

end

@[simp] theorem setPfOp_port (b : Nat) (k : Option PfKind) (s : State) (x : Ep) : (setPfOp b k s).port x = s.port x := by
  cases x <;> rfl

@[simp] theorem setPfSeq_port (b : Nat) (q : PfSeq) (s : State) (x : Ep) : (setPfSeq b q s).port x = s.port x := by
  cases x <;> rfl

@[simp] theorem seqAbandon_port (b : Nat) (s : State) (x : Ep) : (seqAbandon b s).port x = s.port x := by
  simp [seqAbandon]

theorem not_ioKey_aPst (e : Option Ep) (b : Nat) : ¬ ioKey e (aPst b) := by
  unfold ioKey aPst
  omega

theorem aPst_ne_recStat (b : Nat) : aPst b ≠ aRecStat := by
  unfold aPst aRecStat
  omega

/-! ### The end of an operation -/

theorem waiting_of_pfWho {b : Nat} {ln : Line} {s : State} (h : s.pfWho b = some ln) : s.waiting ln.ep = true := by
  have hmem : (b, some ln) ∈ s.pf.who := h ▸ mem_of_sget_ne (d := none) (by rw [← State.pfWho, h]; simp)
  exact List.any_eq_true.2 ⟨_, hmem, by simp⟩

theorem Stays.finishLine {w : Nat → Prop} {s t : State} (ln : Line) (r : Resp) (h : Stays (some ln.ep) w s t) :
    Stays (some ln.ep) w s (finishLine ln r t) := by
  unfold Machine.finishLine
  exact Stays.respond _ _ _ (h.setPort _ _ ⟨rfl, rfl, rfl, rfl, rfl, rfl, rfl, rfl⟩)

/-- The state with other lines that wait for the banks. -/
def State.withWho (s : State) (l : Sparse (Option Line)) : State := { s with pf := { s.pf with who := l } }

theorem Stays.withWho {e : Option Ep} {w : Nat → Prop} {s t : State} (l : Sparse (Option Line)) (h : Stays e w s t) :
    Stays e w (s.withWho l) (t.withWho l) :=
  { h with pf := congrArg (fun p => { p with who := l }) h.pf }

theorem State.waiting_congr {s t : State} (h : t.pf = s.pf) (x : Ep) : t.waiting x = s.waiting x :=
  congrArg (fun p => p.who.any fun c => decide (c.2.map (·.ep) = some x)) h

/-- The answer to the line that waits for a bank is carried out at an entry point that waits; beside it only the lines that wait
for a bank change. -/
theorem pfAnswer_stays (b : Nat) (r : Resp) (s : State) : ∃ e l,
    Stays e noReg (s.withWho l) (pfAnswer b r s) ∧ ∀ x, s.waiting x = false → e ≠ some x := by
  unfold pfAnswer
  split
  next => exact ⟨none, s.pf.who, Stays.refl .., fun _ _ => nofun⟩
  next ln hln =>
    refine ⟨some ln.ep, _, (Stays.refl _ _ (setPfWho b none s)).finishLine ln r, fun x hx he => ?_⟩
    obtain rfl := Option.some.inj he
    exact Bool.false_ne_true (hx.symm.trans (waiting_of_pfWho hln))

theorem pfEnd_stays (b code : Nat) (s : State) : Stays none (· = aPst b) s (pfEnd b code s) := by
  have hne := aPst_ne_recStat b
  exact (((Stays.refl none (· = aPst b) s).setFld _ 8 4 code (.inl rfl) (.inl (.inl hne))).setFlag _ 4 true (.inl rfl)
    (.inl (.inl hne))).record ..

theorem pfEnd_reg (b code : Nat) (s : State) :
    (pfEnd b code s).reg (aPst b) = ((s.setFld (aPst b) 8 4 code).setFlag (aPst b) 4 true).reg (aPst b) :=
  ((Stays.refl none noReg _).record 0x09 b code []).reg _ id (not_ioKey_aPst _ _)

/-- The operation of a bank ends with its result in the status of the bank: what else changes belongs to the line that waits. -/
theorem pfFinish_stays (b code : Nat) (s : State) : ∃ e l,
    Stays e (· = aPst b) ((setPfOp b none s).withWho l) (pfFinish b code s) ∧
    (pfFinish b code s).reg (aPst b) = (pfEnd b code (setPfOp b none s)).reg (aPst b) ∧
    ∀ x, s.waiting x = false → e ≠ some x := by
  have hend := pfEnd_stays b code (setPfOp b none s)
  obtain ⟨e, l, hans, hx⟩ := pfAnswer_stays b (resultResp code) (pfEnd b code (setPfOp b none s))
  exact ⟨e, l, ((hend.line e).withWho l).trans (hans.mono fun _ => False.elim), hans.reg _ id (not_ioKey_aPst _ _),
    fun x hwait => hx x ((State.waiting_congr hend.pf x).trans hwait)⟩

theorem pfFinish_port {b code : Nat} {s : State} {x : Ep} (h : s.waiting x = false) : (pfFinish b code s).port x = s.port x := by
  obtain ⟨e, l, hst, _, hx⟩ := pfFinish_stays b code s
  rw [hst.port x (hx x h)]
  cases x <;> rfl

theorem pfFinish_pfSeq (b c code : Nat) (s : State) : (pfFinish b code s).pfSeq c = s.pfSeq c := by
  obtain ⟨e, l, hst, _⟩ := pfFinish_stays b code s
  rw [State.pfSeq, hst.pf]
  rfl

theorem pfFinish_result {b code : Nat} {s : State} (hw : Memory.wf s = true) (hc : code < 16) :
    (pfFinish b code s).pfOp b = none ∧ (pfFinish b code s).fld (aPst b) 8 4 = code ∧
    (pfFinish b code s).flag (aPst b) 4 = true ∧ (pfFinish b code s).pf.words = s.pf.words := by
  obtain ⟨e, l, hst, hreg, _⟩ := pfFinish_stays b code s
  have hend := hreg.trans (pfEnd_reg b code _)
  have hregs : swf resetWord (setPfOp b none s).regs = true := Memory.wf_regs (s := s) hw
  have hset : swf resetWord ((setPfOp b none s).setFld (aPst b) 8 4 code).regs = true := State.swf_setReg _ _ _ hregs
  refine ⟨?_, ?_, ?_, ?_⟩
  · rw [State.pfOp, hst.pf]
    exact pfOp_setPfOp_same hw none
  · calc
      (pfFinish b code s).fld (aPst b) 8 4
        = (((setPfOp b none s).setFld (aPst b) 8 4 code).setFlag (aPst b) 4 true).fld (aPst b) 8 4 := State.fld_of_reg hend ..
      _ = ((setPfOp b none s).setFld (aPst b) 8 4 code).fld (aPst b) 8 4 :=
        State.fld_setFld_beside _ _ _ _ _ _ _ hset (.inr (by decide))
      _ = code % 2 ^ 4 := State.fld_setFld_same _ _ _ _ _ hregs (by decide)
      _ = code := Nat.mod_eq_of_lt hc
  · rw [State.flag_of_reg hend]
    exact State.flag_setFlag_same _ _ _ _ hset (by decide)
  · rw [hst.pf]
    rfl

/-! ### What a write leaves of an entry point -/

section
variable {s : State} {x : Ep} (h : s.waiting x = false)
include h

theorem pfStart_port (b code : Nat) (k : PfKind) : (pfStart b code k s).port x = s.port x := by
  unfold pfStart
  split
  · exact setPfOp_port ..
  · exact pfFinish_port h

theorem pfStartPassword_port (b : Nat) (v : BitVec 64) : (pfStartPassword b v s).port x = s.port x := by
  unfold pfStartPassword
  split
  · exact pfFinish_port h
  · split
    · exact pfFinish_port h
    · rw [setPfOp_port, setPfOp_port]

end

theorem pfEnd_port (b code : Nat) (s : State) (x : Ep) : (pfEnd b code s).port x = s.port x :=
  (pfEnd_stays b code s).port x nofun

theorem tryPassword_port (e : Ep) (v : BitVec 64) (s : State) (x : Ep) : (tryPassword e v s).2.port x = s.port x := by
  unfold tryPassword
  rw [State.record_port]
  split
  · rfl
  · split
    · rfl
    · split
      · exact port_withAttempts s 0 true x
      · exact port_withAttempts s (s.pwFails + 1) s.session x

/-- A write into a bank leaves every entry point that does not wait for an operation. -/
theorem pfWrite_port (e : Ep) (off : Nat) (v : Word) {s : State} {x : Ep} (h : s.waiting x = false) :
    (pfWrite e off v s).port x = s.port x := by
  have hidle : (setPfSeq (pfBank off) {} s).waiting x = false := h
  have hstart := fun b code k => (pfStart_port hidle b code k).trans (setPfSeq_port ..)
  unfold pfWrite
  dsimp only
  split
  next => split <;> simp -- IDLE
  next => split <;> simp -- the second unlock write
  next => -- the command
    split
    · simp
    · split
      · simp
      · split <;> simp
  next => -- the writes of a command
    split
    next => -- program
      split
      · split <;> simp
      · split
        · exact hstart ..
        · simp
    next => -- erase sector
      split
      · exact hstart ..
      · simp
    next => split <;> simp -- erase bank
    next => -- protect
      split
      · exact hstart ..
      · simp
    next => -- a password
      split
      · simp
      · split
        · simp
        · split
          · rw [pfEnd_port, tryPassword_port, setPfSeq_port]
          · exact (pfStartPassword_port hidle ..).trans (setPfSeq_port ..)

/-! ### Writes as lines -/

theorem pfBank_pfBase (pb1 : Bool) : pfBank (pfBase pb1) = if pb1 then 1 else 0 := by cases pb1 <;> rfl
theorem pfBank_pfBase_command (pb1 : Bool) : pfBank (pfBase pb1 + 0xA48) = if pb1 then 1 else 0 := by cases pb1 <;> rfl
theorem aligned_pfBase (pb1 : Bool) : aligned (pfBase pb1) = true := by cases pb1 <;> rfl
theorem aligned_pfBase_command (pb1 : Bool) : aligned (pfBase pb1 + 0xA48) = true := by cases pb1 <;> rfl

/-- A line that writes a word into a bank that is not busy moves the sequencer of the bank. -/
theorem pfLine_does {c : Instr} {ln : Line} {off : Nat} {v : Word} {s : State} (hi : Inv s)
    (hp : Passes ln { secret := (taken ln s).pwSecret off } s) (ha : aligned off = true) (hb : s.pfBusy (pfBank off) = false)
    (hblk : s.pwBlocked off = false) (he : exec c s = done (pfLine ln off v s)) :
    Does c ln .ok s (pfWrite ln.ep off v (accepted ln { secret := (taken ln s).pwSecret off } s)) := by
  refine does_passes he hp hi (fun u hu => ?checks) (congrArg Port.tx (pfWrite_port _ _ _ ?free))
  case checks =>
    have hbusy : u.pfBusy (pfBank off) = s.pfBusy (pfBank off) := by
      unfold State.pfBusy State.pfOp
      rw [hu.pf]
    have hblocked : u.pwBlocked off = s.pwBlocked off := by
      unfold State.pwBlocked State.pfSeq State.pfBusy State.pfOp
      rw [hu.pf]
    simp [ha, hbusy, hblocked, hb, hblk]
  case free =>
    exact (State.waiting_congr (Stays.accepted noReg ln _ s).pf ln.ep).trans hp.free

/-- 100 ms out of IDLE abandon a sequence (R404). -/
theorem exec_pflashSeqTimeout {b : Nat} {s : State} (hr : s.flashRuns = true) (hb : b < 2) (hs : (s.pfSeq b).step ≠ 0) :
    exec (.pflashSeqTimeout b) s = done (seqAbandon b s) :=
  congrArg done (if_pos (by simp [hr, hb, hs]))

/-! ### The writes of the sequence of a program -/

section
variable {e : Ep} {b : Nat} {s : State}

theorem pfBank_of_range {a : Nat} (hb : b < 2) (hlo : 0x200000 * b ≤ a) (hhi : a < 0x200000 * b + 0x200000) : pfBank a = b := by
  unfold pfBank
  omega

theorem pfWrite_firstUnlock (hb : b < 2) (hq : s.pfSeq b = {}) :
    pfWrite e (0x200000 * b + 0xA48) 0x4F s = setPfSeq b { step := 1 } s := by
  have hbank := pfBank_of_range (a := 0x200000 * b + 0xA48) hb (by omega) (by omega)
  have hoff : (0x200000 * b + 0xA48) % 0x200000 = 0xA48 := by omega
  unfold pfWrite
  simp only [hbank, hq]
  exact if_pos ⟨hoff, by decide⟩

variable (hw : Memory.wf s = true)
include hw

theorem pfWrite_secondUnlock (hb : b < 2) :
    pfWrite e (0x200000 * b + 0x152C) 0xB0 (setPfSeq b { step := 1 } s) = setPfSeq b { step := 2 } s := by
  have hbank := pfBank_of_range (a := 0x200000 * b + 0x152C) hb (by omega) (by omega)
  have hoff : (0x200000 * b + 0x152C) % 0x200000 = 0x152C := by omega
  unfold pfWrite
  simp only [hbank, pfSeq_setPfSeq_same hw]
  rw [if_pos ⟨hoff, by decide⟩, setPfSeq_setPfSeq hw]

theorem pfWrite_programCommand (hb : b < 2) :
    pfWrite e (0x200000 * b + 0xA48) 0x30 (setPfSeq b { step := 2 } s) = setPfSeq b { step := 3, cmd := 0x30 } s := by
  have hbank := pfBank_of_range (a := 0x200000 * b + 0xA48) hb (by omega) (by omega)
  have hoff : (0x200000 * b + 0xA48) % 0x200000 = 0xA48 := by omega
  have hcmd : bits 0x30 0 8 = 0x30 := by decide
  unfold pfWrite
  simp only [hbank, pfSeq_setPfSeq_same hw, hcmd]
  rw [if_neg (by simp [hoff]), if_neg (by decide), if_pos (by decide), setPfSeq_setPfSeq hw]

theorem pfWrite_lowWord {a : Nat} (l : Word) (ha : a % 8 = 0) (hbank : pfBank a = b) :
    pfWrite e a l (setPfSeq b { step := 3, cmd := 0x30 } s) = setPfSeq b { step := 3, cmd := 0x30, addr := a, low := some l } s := by
  unfold pfWrite
  simp only [hbank, pfSeq_setPfSeq_same hw]
  rw [if_pos ha, setPfSeq_setPfSeq hw]

theorem pfWrite_highWord {a : Nat} (h l : Word) (hbank : pfBank (a + 4) = b) :
    pfWrite e (a + 4) h (setPfSeq b { step := 3, cmd := 0x30, addr := a, low := some l } s) =
      pfStartProgram a (h ++ l) (setPfSeq b {} s) := by
  unfold pfWrite
  simp only [hbank, pfSeq_setPfSeq_same hw]
  rw [if_pos trivial, setPfSeq_setPfSeq hw]

theorem pfWrite_noCommand {off : Nat} (v : Word) (hbank : pfBank off = b) (ho : off % 0x200000 ≠ 0xA48) :
    pfWrite e off v (setPfSeq b { step := 2 } s) = seqAbandon b s := by
  unfold pfWrite
  simp only [hbank, pfSeq_setPfSeq_same hw]
  rw [if_pos ho, seqAbandon, setPfSeq_setPfSeq hw, seqAbandon]

variable (hb : b < 2) (hq : s.pfSeq b = {})
include hb hq

/-- The two unlock writes into a bank in IDLE. -/
theorem pfWrite_unlock : pfWrite e (0x200000 * b + 0x152C) 0xB0 (pfWrite e (0x200000 * b + 0xA48) 0x4F s) =
    setPfSeq b { step := 2 } s := by
  rw [pfWrite_firstUnlock hb hq, pfWrite_secondUnlock hw hb]

/-- The three writes after them start the program of the word, with the sequencer in IDLE again. -/
theorem pfWrite_program {a : Nat} (l h : Word) (ha : a % 8 = 0) (hlo : 0x200000 * b ≤ a) (hhi : a < 0x200000 * b + 0x200000) :
    pfWrite e (a + 4) h (pfWrite e a l (pfWrite e (0x200000 * b + 0xA48) 0x30 (setPfSeq b { step := 2 } s))) =
      pfStartProgram a (h ++ l) s := by
  rw [pfWrite_programCommand hw hb, pfWrite_lowWord hw l ha (pfBank_of_range hb hlo hhi),
    pfWrite_highWord hw h l (pfBank_of_range hb (by omega) (by omega)), setPfSeq_pfSeq hw hq]

end

theorem seqAbandon_result {b : Nat} {s : State} (hw : Memory.wf s = true) : ((seqAbandon b s).pfSeq b).step = 0 ∧
    (seqAbandon b s).fld (aPst b) 8 4 = 5 ∧ (seqAbandon b s).pf.words = s.pf.words := by
  refine ⟨?_, State.fld_setFld_same _ _ _ _ _ (Memory.wf_regs (s := s) hw) (by decide), rfl⟩
  exact congrArg PfSeq.step (pfSeq_setPfSeq_same hw {})

/-! ### The start of a program -/

section
variable {a : Nat} {v : BitVec 64} {s : State}

theorem pfStartProgram_fixed (hf : pfFixed a = true) : pfStartProgram a v s = pfFinish (pfBank a) 6 s := by
  rw [pfStartProgram, if_pos hf]
  rfl

theorem pfStartProgram_guarded (hf : pfFixed a = false) (hg : s.guarded a = true) :
    pfStartProgram a v s = pfFinish (pfBank a) 4 s := by
  rw [pfStartProgram, if_neg (by simp [hf]), if_pos hg]
  rfl

/-- Off the fixed and the guarded words the word itself decides. -/
theorem pfStartProgram_open (hf : pfFixed a = false) (hg : s.guarded a = false) :
    pfStartProgram a v s = pfStart (pfBank a) (progCode (s.pfWord a) v) (.program a v) s := by
  rw [pfStartProgram, if_neg (by simp [hf]), if_neg (by simp [hg])]

theorem pfStart_pfSeq (b c code : Nat) (k : PfKind) : (pfStart b code k s).pfSeq c = s.pfSeq c := by
  unfold pfStart
  split
  · rfl
  · exact pfFinish_pfSeq ..

/-- A word with a field left refuses a 1 over a stored 0 (R407). -/
theorem progCode_rise {w : PWord} (hfull : (w.f1 && w.f2) = false)
    (hrise : ∃ i, v.getLsbD i = true ∧ w.data.getLsbD i = false) : progCode w v = 2 := by
  have hne : v &&& ~~~w.data ≠ 0 := by
    obtain ⟨i, hv, hd⟩ := hrise
    have hone : (v &&& ~~~w.data).getLsbD i = true := by
      rw [BitVec.getLsbD_and, BitVec.getLsbD_not, hv, hd, decide_eq_true (BitVec.lt_of_getLsbD hv)]
      rfl
    intro h0
    simp [h0] at hone
  rw [progCode, if_neg (by simp [hfull]), if_pos hne]

/-- A word with a field left takes the stored data again. -/
theorem progCode_data {w : PWord} (hfull : (w.f1 && w.f2) = false) : progCode w w.data = 0 := by
  rw [progCode, if_neg (by simp [hfull]), if_neg (by simp)]

/-- A program of the stored data fills the next field of the word (R406). -/
theorem pfProgram_data (hw : Memory.wf s = true) (hfull : ((s.pfWord a).f1 && (s.pfWord a).f2) = false) :
    (pfProgram a (s.pfWord a).data s).1 = 0 ∧ ((pfProgram a (s.pfWord a).data s).2.pfWord a).f1 = true ∧
    ((pfProgram a (s.pfWord a).data s).2.pfWord a).f2 = (s.pfWord a).f1 := by
  have hcode := progCode_data hfull
  have hword : (pfProgram a (s.pfWord a).data s).2.pfWord a = (s.pfWord a).programmed (s.pfWord a).data := by
    rw [pfProgram, if_pos hcode]
    exact pfWord_setPfWord_same hw a _
  exact ⟨hcode, congrArg PWord.f1 hword, congrArg PWord.f2 hword⟩

end

end Sys2Proof.Machine

open Sys2Proof Sys2Proof.Machine

/-- Settles O47: a line that writes runs pfWrite and leaves its entry point to the answer, and in a canonical state the five writes of
a program come to the start of the program, whose refusals come in the model's order (assumption 61): RANGE, PROTECTED, then those
of the word. -/
theorem flashSequences : Obligations.FlashSequences := by
  refine ⟨fun ln s hi => ⟨fun off v hp ha hb _ hblk => ?writes, fun pb1 hp hb _ hblk => ?eraseBank,
    fun pb1 v k hp hb _ hblk => ?commands, fun b hr hb hs => becomes_done (exec_pflashSeqTimeout hr hb hs)⟩,
    fun e b s hw hb hq _ => ?sequence⟩
  case writes => exact ⟨pfLine_does hi hp ha hb hblk rfl, pfLine_does hi hp ha hb hblk rfl, pfLine_does hi hp ha hb hblk rfl⟩
  case eraseBank => exact pfLine_does hi hp (aligned_pfBase pb1) (pfBank_pfBase pb1 ▸ hb) hblk rfl
  case commands =>
    have hwrite := fun c v' => pfLine_does (c := c) (v := v') hi hp (aligned_pfBase_command pb1)
      (pfBank_pfBase_command pb1 ▸ hb) hblk
    exact ⟨hwrite _ _ rfl, hwrite _ _ rfl, hwrite _ _ rfl, hwrite _ _ rfl⟩
  case sequence =>
    dsimp only
    rw [pfWrite_unlock hw hb hq]
    refine ⟨congrArg PfSeq.step (pfSeq_setPfSeq_same hw _), rfl, fun a l h ha hlo hhi => ?program, fun off v hbank ho => ?wrong⟩
    case wrong =>
      rw [pfWrite_noCommand hw v hbank ho]
      exact seqAbandon_result hw
    case program =>
      have hbank := pfBank_of_range hb hlo hhi
      rw [pfWrite_program hw hb hq l h ha hlo hhi, ← hbank]
      refine ⟨(pfStart_pfSeq ..).trans (hbank ▸ hq), fun hf hg hc => ?_, fun hf => ?_, fun hf hg => ?_,
        fun hf hg hfull hrise => ?_, pfProgram_data hw⟩
      · rw [pfStartProgram_open hf hg, hc]
        exact ⟨pfOp_setPfOp_same hw _, rfl⟩
      · rw [pfStartProgram_fixed hf]
        exact pfFinish_result hw (by decide)
      · rw [pfStartProgram_guarded hf hg]
        exact pfFinish_result hw (by decide)
      · rw [pfStartProgram_open hf hg, progCode_rise hfull hrise]
        exact pfFinish_result hw (by decide)
end

section
/-!
PROOFS. Every command completes (R312) and every step keeps the invariant (R118, R124, R129, R136): each meaning ends in `done` of
a state that follows from its state with the queue of commands, the identity and the invariant kept.
-/
namespace Sys2Proof.Machine

/-! ### One field of the state written -/

section
variable {s t : State} (h : Tame s t)
include h

theorem Tame.withSup (c : Sup) (hc : t.sup.stage ≤ 8 → c.stage ≤ 8 := by exact id) : Tame s { t with sup := c } :=
  h.trans ⟨rfl, rfl, rfl, fun ⟨hw, hq, ht, hp, hs⟩ => ⟨hw, hq, ht, hp, hc hs⟩⟩

theorem Tame.withClk (c : Clk) : Tame s { t with clk := c } := h.trans ⟨rfl, rfl, rfl, id⟩

theorem Tame.withWdog (c : Wdog) : Tame s { t with wdog := c } := h.trans ⟨rfl, rfl, rfl, id⟩

theorem Tame.withSyncs (l : List (Nat × Nat)) : Tame s { t with syncs := l } := h.trans ⟨rfl, rfl, rfl, id⟩

theorem Tame.withS5regs (c : Sparse Word) : Tame s { t with s5regs := c } := h.trans ⟨rfl, rfl, rfl, id⟩

theorem Tame.withEvq (q : List EvEntry) (hq : q.length ≤ t.evq.length) : Tame s { t with evq := q } :=
  h.trans ⟨rfl, rfl, rfl, fun ⟨hw, hl, hr⟩ => ⟨hw, hq.trans hl, hr⟩⟩

/-- Chrysalis written but for the trail. -/
theorem Tame.withChrys (c : Chrys) (hc : c.trail = t.chrys.trail := by rfl) : Tame s { t with chrys := c } := by
  refine h.trans ⟨rfl, rfl, rfl, fun ⟨hw, hr⟩ => ⟨?_, hr⟩⟩
  rw [← hw]
  simp only [Memory.wf, hc]

theorem Tame.setKat (i v : Nat) : Tame s { t with kat := sset 0 t.kat i v } := by
  refine h.trans ⟨rfl, rfl, rfl, fun ⟨hw, hr⟩ => ⟨?_, hr⟩⟩
  simp only [Memory.wf, Bool.and_eq_true] at hw ⊢
  obtain ⟨⟨⟨⟨⟨hstores, hkat⟩, hwords⟩, htables⟩, hpages⟩, htrail⟩ := hw
  exact ⟨⟨⟨⟨⟨hstores, swf_sset (fun _ => 0) _ i v hkat⟩, hwords⟩, htables⟩, hpages⟩, htrail⟩

/-- A port written but for its tag cache. -/
theorem Tame.setPortOf (e : Ep) (p : Port) (hp : p.tags = (t.port e).tags) : Tame s (t.setPort e p) :=
  h.setPort e p fun hl => hp ▸ hl

end

theorem fifoByte_tags (b : Byte) (p : Port) : (fifoByte b p).1.tags = p.tags := by
  unfold fifoByte
  dsimp only
  repeat' split
  all_goals rfl

theorem markFirst_length (e : Ep) (l : List EvEntry) : (markFirst e l).length = l.length := by
  induction l with
  | nil => rfl
  | cons x l ih =>
    rw [markFirst]
    split
    · rw [List.length_cons, ih, List.length_cons]
    · rfl

/-! ### What a meaning is -/

/-- The outcome is the end of a step in a state that follows from s. -/
def Runs (s : State) (o : Host.Outcome State Fault Refusal) : Prop := ∃ u, o = done u ∧ Tame s u

section
variable {s : State}

theorem Runs.done {u : State} (h : Tame s u) : Runs s (Machine.done u) := ⟨u, rfl, h⟩

variable {ln : Line} {f : Form} {checks : State → List (Code × Bool)}

theorem Runs.line {eff : State → State × Resp} (h : ∀ u, Tame s u → Tame s (eff u).1) :
    Runs s (Machine.done (runLine ln f checks eff s)) :=
  .done ((Tame.refl s).runLine _ _ _ _ _ h fun _ hu => hu.noPost)

theorem Runs.okay {g : State → State} (h : ∀ u, Tame s u → Tame s (g u)) :
    Runs s (Machine.done (runLine ln f checks (Machine.okay g) s)) := .line h

theorem Runs.value {g : State → List Fld} : Runs s (Machine.done (runLine ln f checks (Machine.value g) s)) :=
  .line fun _ hu => hu

theorem Runs.portLine {l : List (Code × Bool)} {eff : State → State × Resp} {post : State → State}
    (h : ∀ u, Tame s u → Tame s (eff u).1) (hpost : ∀ u, Tame s u → Tame s (post u)) :
    Runs s (Machine.done (portLine ln f l eff s post)) :=
  .done ((Tame.refl s).portLine _ _ _ _ _ h hpost)

end

/-! ### Meanings with a case split of their own -/

section
variable {s : State}

theorem powerOnReset_runs : Runs s (exec .powerOnReset s) :=
  .done (.withSup (.ite (.refl s) ((Tame.refl s).takeReset 0)) _ id)

theorem xoQualified_runs (late : Bool) : Runs s (exec (.xoQualified late) s) := by
  refine .done (.ite ?_ (.refl s))
  extract_lets _ t
  have ht : Tame s t := (((Tame.refl s).withSup _).toStage 2 (by decide)).lockPoints
  exact .ite (ht.withSup _) (ht.boot ..)

theorem pllLock_runs : Runs s (exec .pllLock s) := by
  refine .done (.ite ?_ (.refl s))
  extract_lets _ t
  have ht : Tame s t := ((Tame.refl s).withSup _).toStage 3 (by decide)
  exact .ite ((ht.boot ..).withSup _) ht

theorem selfTestComplete_runs (r : SelfTest) : Runs s (exec (.selfTestComplete r) s) := by
  refine .done (.ite ?_ (.refl s))
  extract_lets t u v w
  have hv : Tame s v := .forAll _ ((((Tame.refl s).setReg ..).toStage _ (by decide)).loadTable ..).checkKept
    fun _ _ h => h.setKat ..
  have hw : Tame s w := hv.boot ..
  exact .ite hv.enterFloor (.ite (hw.enterCrawl ..) (.ite (hw.enterCrawl ..) (.ite (hw.enterCrawl ..) hw)))

theorem s5ProfileLoad_runs : Runs s (exec .s5ProfileLoad s) := by
  refine .done (.ite ?_ (.refl s))
  extract_lets t k u
  have ht : Tame s t := (Tame.refl s).toStage 5 (by decide)
  have hu : Tame s u := by
    unfold u
    cases k with
    | some slot => exact ht.loadProfile ..
    | none => exact ht.strapDefaults
  exact (hu.boot ..).withS5regs _

theorem s6GroupBringup_runs (powered : BitVec 8) (r : List (Nat × BringUp)) : Runs s (exec (.s6GroupBringup powered r) s) := by
  refine .done (.ite ?_ (.refl s))
  extract_lets t u v
  have hu : Tame s u := .forAll _ ((Tame.refl s).toStage _ (by decide)) fun _ _ h => h.groupS6 ..
  exact .boot _ (.ite hu.armPart hu)

theorem s8Run_runs : Runs s (exec .s8Run s) := by
  refine .done (.ite ?_ (.refl s))
  extract_lets t u v w
  have hu : Tame s u := ((Tame.refl s).toStage _ (by decide)).setWdog ..
  have hw : Tame s w := .boot _ (.startEpoch (.ite hu.freezePrev hu))
  exact .ite hw (hw.send ..)

theorem holdupLow_runs : Runs s (exec .holdupLow s) := by
  refine .done (.ite (.refl s) ?_)
  extract_lets _ t
  have ht : Tame s t := ((Tame.refl s).withSup _).setFlag ..
  exact .ite ht (.forAll _ ((ht.record ..).emit ..) fun _ _ h => h.persist ..)

theorem holdupLowClear_runs : Runs s (exec .holdupLowClear s) := by
  refine .done (.ite ?_ (.refl s))
  have ht := (Tame.refl s).withSup { s.sup with holdupLow := false } id
  exact .ite ht (ht.record ..).copyOn

theorem rxByte_runs (ep : Ep) (b : Byte) : Runs s (exec (.rxByte ep b) s) := by
  refine .done (.ite (.refl s) ?_)
  have ht := (Tame.refl s).setPortOf ep _ (fifoByte_tags b (s.port ep))
  exact .ite (ht.setFlag ..) ht

theorem typedByte_runs (ep : Ep) (b : Byte) : Runs s (exec (.typedByte ep b) s) := by
  refine .done (.ite (.refl s) ?_)
  extract_lets p bel t q
  have ht : Tame s t := (Tame.refl s).setPortOf ep _ rfl
  have hbel : Tame s (bel t) := ht.send ..
  have hq (l : List Byte) : Tame s (t.setPort ep { q with typed := l }) := ht.setPortOf ep _ rfl
  exact .ite ((Tame.refl s).setPortOf ep _ rfl) (.ite (ht.typedEol ep) (.ite (.ite hbel ((hq _).send ..))
    (.ite (((hq _).send ..).send ..) (.ite ((hq _).send ..) hbel))))

theorem linegap_runs (ep : Ep) : Runs s (exec (.linegap ep) s) := by
  refine .done (.ite (.refl s) (.ite (.refl s) (.setFlag _ _ _ ?_)))
  exact (Tame.refl s).setPortOf ep _ rfl

theorem eventLineSend_runs (ep : Ep) : Runs s (exec (.eventLineSend ep) s) := by
  refine .done (.ite (.refl s) ?_)
  split
  · exact .refl s
  · exact ((Tame.refl s).withEvq _ (markFirst_length ..).le).send ..

theorem tagEntryExpiry_runs (ep : Ep) (tag : BitVec 16) : Runs s (exec (.tagEntryExpiry ep tag) s) := by
  refine .done (.ite (.refl s) ?_)
  extract_lets p
  split
  · exact .refl s
  · exact (Tame.refl s).setPort ep _ List.length_erase_le.trans

theorem remoteResponseArrival_runs (ep : Ep) (id : Nat) (text : List Byte) :
    Runs s (exec (.remoteResponseArrival ep id text) s) := by
  refine .done (.ite (.refl s) ?_)
  split
  · exact .refl s
  · exact (Tame.refl s).remoteResponse ..

theorem noreply_runs (ep : Ep) (id : Nat) : Runs s (exec (.noreply ep id) s) := by
  refine .done (.ite (.refl s) ?_)
  split
  · exact .refl s
  · exact ((Tame.refl s).setPort ep _ (List.length_filter_le ..).trans).remoteResponse ..

theorem unlock_runs (ln : Line) (pw : Option (BitVec 64)) : Runs s (exec (.unlock ln pw) s) := by
  refine .line fun u hu => ?_
  have hr : Tame s (tryPassword ln.ep (pw.getD 0) u).2 := hu.tryPassword ..
  dsimp only
  split
  · exact hr.setUnlocked ..
  · exact hr
  · exact hr

theorem lineRefused_runs (ln : Line) (e : LineErr) : Runs s (exec (.lineRefused ln e) s) := by
  refine .done (.ite ((Tame.refl s).gateLine _ _ _ _ fun _ h => h) (.ite (.refl s) ?_))
  extract_lets bs t u
  have ht : Tame s t := ((Tame.refl s).taken ..).recLine ..
  exact .respond _ _ _ (.ite ht (.ite (ht.crcFailed ..) (.ite (ht.countSuffix ..) ht)))

theorem linkItemReceive_runs (it : LinkItem) : Runs s (exec (.linkItemReceive it) s) := by
  refine .done ?_
  have h := Tame.refl s
  cases it with
  | bad g => exact .ite (h.linkErr ..) h
  | downBad g => exact .ite (h.setGr ..) h
  | heartbeat g act =>
    refine .ite ?_ h
    extract_lets t u _ v
    have hv : Tame s v := ((h.recordFree ..).linkErr ..).setGr ..
    exact .ite ((hv.latchAlone ..).linkLost ..) hv
  | scan g e code => exact .ite ((h.recordFree ..).scanItem ..) h

theorem chSafe_runs (ln : Line) (ch : ChRef) (a : SafeArg) : Runs s (exec (.chSafe ln ch a) s) := by
  refine .okay fun u hu => hu.withSafe _ _ fun v hv => ?_
  have ht : Tame s (v.setFld (chA ch.n 4) 0 2 (SafeArg.kindOf a)) := hv.setFld ..
  cases a with
  | off => exact ht
  | on => exact ht
  | value v => exact ht.setFld ..
  | hold h => exact ht.setFld ..

theorem dicPersist_runs (ln : Line) (ch : ChRef) (a : Option (Qty × Option Nat)) : Runs s (exec (.dicPersist ln ch a) s) := by
  rcases a with _ | ⟨q, _ | n⟩
  · exact .okay fun _ hu => hu.writePersist ..
  · exact .okay fun _ hu => hu.writePersist ..
  · exact .okay fun _ hu => (hu.writePersist ..).setReg ..

theorem reflexHoldTimeout_runs (n : Nat) : Runs s (exec (.reflexHoldTimeout n) s) := by
  refine .done ?_
  split
  · exact .ite ((Tame.refl s).endHold n) (.refl s)
  · exact .refl s

theorem pulseEnd_runs (n : Nat) : Runs s (exec (.pulseEnd n) s) := by
  refine .done ?_
  split
  · exact .ite ((Tame.refl s).endHold n) (.refl s)
  · exact .refl s

theorem syncEdge_runs : Runs s (exec .syncEdge s) := by
  refine .done (.ite ?_ (.refl s))
  split
  · exact .refl s
  · exact .forAll _ (((Tame.refl s).withSyncs _).record ..) fun _ _ h => h.syncGroup ..

/-- A rotation step begins at the next channel that takes part, where one does (R276). -/
theorem rotationStep_tame {t : State} (h : Tame s t) (g : Nat) :
    Tame s (match t.stepFrom g 16 (t.gr g).conv.next with
      | some c => (t.setFld (aRot g) 8 4 c).setGr g { t.gr g with conv := { (t.gr g).conv with next := (c + 1) % 16 } }
      | none => t) := by
  cases t.stepFrom g 16 (t.gr g).conv.next with
  | some c => exact (h.setFld ..).setGr ..
  | none => exact h

theorem rotationStepStart_runs (g : Nat) : Runs s (exec (.rotationStepStart g) s) := by
  refine .done (.ite ?_ (.refl s))
  have ht := rotationStep_tame (.setFld (aRot g) 0 3 1 (.refl s)) g
  generalize s.setFld (aRot g) 0 3 1 = t at ht ⊢
  exact ht

theorem convWindowFault_runs (ln : Line) (ch : ChRef) (out : Option ChRef) : Runs s (exec (.convWindowFault ln ch out) s) := by
  cases out with
  | none => exact .okay fun _ hu => hu.winTarget ..
  | some o => exact .okay fun _ hu => hu.winTarget ..

theorem safePin_runs : Runs s (exec .safePin s) := by
  refine .done (.ite ?_ (.refl s))
  extract_lets t _ u v
  have hu : Tame s u := ((Tame.refl s).record ..).withSup _
  exact .holdDev _ (.ite hu (hu.emit ..))

theorem markMissed_runs (c port : Nat) (nonIdle : Bool) (e : RoundEnd) : Runs s (exec (.markMissed c port nonIdle e) s) := by
  refine .done (.ite ?_ (.refl s))
  extract_lets t u _ v w k x _ y
  have ht : Tame s t := (Tame.refl s).roundEnd ..
  have hv : Tame s v := .setRg _ _ (.ite (ht.bumpPort ..) ht)
  have hw : Tame s w := .ageBad _ _ (.forAll _ hv fun _ _ h => h.ageSlot ..)
  exact .ite (hw.setFld ..) (((hw.ringTo ..).setRg ..).emit ..)

theorem frameReceive_runs (c : Nat) (x : RxLine) : Runs s (exec (.frameReceive c x) s) := by
  refine .done (.ite ?_ (.refl s))
  split
  · exact .refl s
  · exact .ite ((Tame.refl s).passOn ..) (((Tame.refl s).passOn ..).takeFrame ..)

theorem slotLaunch_runs (c slot : Nat) : Runs s (exec (.slotLaunch c slot) s) := by
  refine .done (.ite ?_ (.refl s))
  extract_lets a x
  split
  · exact .refl s
  · refine .ite ((Tame.refl s).setReady ..) ?_
    exact .ite (.takeReset _ (.ringSend _ _ (.setRg _ _ (.refl s)))) (.ringSend _ _ (.setRg _ _ (.refl s)))

theorem mailFrameReceive_runs (c : Nat) (f : Frame) : Runs s (exec (.mailFrameReceive c f) s) := by
  refine .done (.ite ?_ (.refl s))
  extract_lets m
  have hm := (Tame.refl s).mailFrag c m
  split
  · exact hm.bridgeMail ..
  · exact .ite hm ((Tame.refl s).bridgeMail ..)

theorem ringRoundev_runs (ln : Line) (c : Nat) (n : Option Nat) : Runs s (exec (.ringRoundev ln c n) s) := by
  cases n with
  | none => exact .okay fun _ hu => hu.setFlag ..
  | some v => exact .okay fun _ hu => (hu.setFlag ..).setFld ..

theorem candidateConfirm_runs (c : Nat) (r : Confirm) : Runs s (exec (.candidateConfirm c r) s) := by
  refine .done (.ite ?_ (.refl s))
  extract_lets t a
  have ht : Tame s t := (Tame.refl s).checkFrame ..
  refine .ite (.ite ((ht.setRg ..).ringTo ..) (ht.setRg ..)) ?_
  split
  · exact .ite (((ht.wakeOk ..).enterJoin ..).takeRound ..) (ht.wakeMissed ..)
  · exact (ht.enterJoin ..).takeRound ..

theorem joinProbe_runs (c : Nat) (dup : Bool) (busy : List Nat) : Runs s (exec (.joinProbe c dup busy) s) := by
  refine .done (.ite ?_ (.refl s))
  extract_lets a t
  have ht : Tame s t := (Tame.refl s).ringSend ..
  refine .ite (((ht.joinFlag ..).fixPos ..).setRg ..) ?_
  split
  · exact ht.setRg ..
  · exact ((ht.joinFlag ..).emit ..).setRg ..

theorem tkListenEnd_runs (c : Nat) : Runs s (exec (.tkListenEnd c) s) := by
  refine .done (.ite ?_ (.refl s))
  extract_lets a t
  have ht : Tame s t := by
    unfold t
    split
    · exact (Tame.refl s).setRg ..
    · exact .refl s
  exact (ht.enterRun ..).sendMark ..

theorem cocoonEnter_runs (c : Nat) : Runs s (exec (.cocoonEnter c) s) := by
  refine .done (.ite ?_ (.refl s))
  extract_lets m t u
  have hu : Tame s u := .forAll _ ((Tame.refl s).record ..) fun _ _ h => ((h.latchAlone ..).setFlag ..).groupLost ..
  exact (hu.withClk _).ringTo ..

theorem sleepTimerFire_runs (c e : Nat) (r : List (Nat × BringUp)) : Runs s (exec (.sleepTimerFire c e r) s) := by
  refine .done (.ite ?_ (.refl s))
  exact .forAll _ (((((((Tame.refl s).record ..).withClk _).ringTo ..).setRg ..).setFld ..).emit ..)
    fun _ _ h => .ite (h.bringUp ..) (h.groupUnpowered ..)

theorem wakeMiss_runs (c : Nat) : Runs s (exec (.wakeMiss c) s) := by
  refine .done (.ite ?_ (.refl s))
  split
  · exact (Tame.refl s).wakeMissed ..
  · exact .refl s

theorem ringRole_runs (ln : Line) (c : Nat) (r : Role) : Runs s (exec (.ringRole ln c r) s) := by
  cases r with
  | tk => exact .okay fun _ hu => hu.setFld ..
  | follower => exact .okay fun _ hu => hu.setFld ..
  | backup k => exact .okay fun _ hu => hu.setFld ..

theorem ringPostab_runs (ln : Line) (c e : Nat) (v : Option (BitVec 128 × Nat)) : Runs s (exec (.ringPostab ln c e v) s) := by
  cases v with
  | none => exact .okay fun _ hu => hu.writePostab ..
  | some x => exact .okay fun _ hu => hu.writePostab ..

theorem ringBridge_runs (ln : Line) (on : Bool) (b : Option Bool) : Runs s (exec (.ringBridge ln on b) s) := by
  cases b with
  | none => exact .okay fun _ hu => .ite hu (hu.setFlag ..)
  | some b => exact .okay fun _ hu => .ite hu ((hu.setFlag ..).setFlag ..)

theorem knownAnswerTest_runs (u : Un) (pass : Bool) : Runs s (exec (.knownAnswerTest u pass) s) := by
  refine .done ?_
  split
  · exact .refl s
  · exact .ite (.refl s) (.ite ((Tame.refl s).setKat ..) ((Tame.refl s).fenceUnit ..))

theorem pflashOpComplete_runs (b : Nat) (bod : Bool) : Runs s (exec (.pflashOpComplete b bod) s) := by
  refine .done ?_
  split
  · exact .refl s
  · exact .ite (.refl s) (.ite ((Tame.refl s).pfAbort ..) ((Tame.refl s).pfComplete ..))

theorem tallySnapshotStart_runs : Runs s (exec .tallySnapshotStart s) := by
  refine .done ?_
  split
  · exact .refl s
  · exact .ite (.refl s) (.ite ((Tame.refl s).popSnap.tallyFail ..) ((Tame.refl s).startSnap ..))

theorem tallySnapshotDone_runs (bod : Bool) : Runs s (exec (.tallySnapshotDone bod) s) := by
  refine .done (.ite (.refl s) (.foldl _ (.refl s) fun u b hu => ?_))
  split
  · exact .ite (hu.pfAbort ..) (hu.pfComplete ..)
  · exact hu

theorem tallySave_runs (ln : Line) (ch : Option ChRef) : Runs s (exec (.tallySave ln ch) s) := by
  cases ch with
  | none => exact .okay fun _ hu => .forAll _ hu fun _ _ h => h.persist ..
  | some r => exact .okay fun _ hu => hu.persist ..

theorem rflashRetry_runs (ln : Line) (r : Option (BitVec 3)) : Runs s (exec (.rflashRetry ln r) s) := by
  cases r with
  | none => exact .okay fun _ hu => hu.setFlag ..
  | some r => exact .okay fun _ hu => (hu.setFlag ..).setFld ..

theorem rflashOpComplete_runs (bank : Nat) (fail : Bool) : Runs s (exec (.rflashOpComplete bank fail) s) := by
  refine .done ?_
  split
  · exact .refl s
  · rename_i o _
    refine .ite (.refl s) ?_
    extract_lets code t
    have ht : Tame s t := (Tame.refl s).rfEnd ..
    split
    · exact (ht.tableOpEnds ..).copyOn
    · exact .copyOn (.rfDone _ _ _ (.ite (ht.eraseEnds ..) (ht.programEnds ..)))
    · have hu := ht.capOpDone bank o fail
      exact .copyOn (.ite (hu.eraseEnds ..) (hu.programEnds ..))

theorem trailScrub_runs (w : Nat) (e : Ecc) : Runs s (exec (.trailScrub w e) s) := by
  refine .done (.ite (.refl s) ?_)
  cases e with
  | ok => exact .refl s
  | corrected => exact (Tame.refl s).count ..
  | bad => exact (Tame.refl s).trailEcc ..

theorem pendingCapsuleStart_runs : Runs s (exec .pendingCapsuleStart s) := by
  refine .done ?_
  split
  · exact .refl s
  · refine .ite (.refl s) ?_
    extract_lets t
    have ht : Tame s t := (Tame.refl s).clearPend.startCapsule ..
    exact .copyOn (.ite ht (ht.closeCap ..))

theorem replayStagingDone_runs (d : Option Nat) : Runs s (exec (.replayStagingDone d) s) := by
  refine .done (.ite (.refl s) ?_)
  split
  · exact (Tame.refl s).beginRun
  · rename_i id _
    have ht := (Tame.refl s).stagePages id d
    cases d with
    | none => exact ht.beginRun
    | some p =>
      dsimp only
      exact ((ht.withChrys _).setReg ..).endReplay ..

theorem recordInject_runs (r : Inject) : Runs s (exec (.recordInject r) s) := by
  refine .done ?_
  split
  · exact .refl s
  · refine .ite (.refl s) ?_
    extract_lets gap last _ t
    have ht : Tame s t := (Tame.refl s).withChrys _
    split
    · rename_i d l _
      refine .ite ?_ ((ht.diverge ..).endReplay ..)
      extract_lets u
      have hu : Tame s u := .foldl _ ht fun _ _ h => h.diverge ..
      exact .ite (hu.endReplay ..) (.ite (hu.endReplay ..) hu)
    · exact .ite (ht.endReplay ..) (.ite (ht.endReplay ..) ht)

theorem replayEnd_runs (counts : List (Nat × BitVec 16)) : Runs s (exec (.replayEnd counts) s) := by
  refine .done (.ite (.refl s) ?_)
  extract_lets t _ _ u
  have ht : Tame s t := (Tame.refl s).replayEvent ..
  split
  · exact ht.setReplay ..
  · extract_lets v w _ x y z z'
    have hv : Tame s v := .foldl _ ((ht.setReplay ..).withChrys _) fun _ _ h => h.queueEntry ..
    have hx : Tame s x := (((hv.dropTags ..).dropTags ..).dropTags ..).withWdog _
    have hz : Tame s z := .foldl _ (hx.setStale ..) fun _ _ h => h.setCh ..
    have hz' : Tame s z' := .forAll _ hz fun _ _ h => .ite ((h.takeCount ..).setFlag ..) h
    exact (hz'.clearCause ..).startEpoch.copyOn

end

/-! ### Every meaning -/

/-- Every command ends its step in a state that follows from its own. -/
theorem exec_runs (c : Instr) (s : State) : Runs s (exec c s) := by
  have h := Tame.refl s
  cases c with
  | powerOnReset => exact powerOnReset_runs
  | xoQualified => exact xoQualified_runs _
  | pllLock => exact pllLock_runs
  | selfTestComplete => exact selfTestComplete_runs _
  | s5ProfileLoad => exact s5ProfileLoad_runs
  | s6GroupBringup => exact s6GroupBringup_runs ..
  | s8Run => exact s8Run_runs
  | holdupLow => exact holdupLow_runs
  | holdupLowClear => exact holdupLowClear_runs
  | rxByte => exact rxByte_runs ..
  | typedByte => exact typedByte_runs ..
  | linegap => exact linegap_runs _
  | eventLineSend => exact eventLineSend_runs _
  | tagEntryExpiry => exact tagEntryExpiry_runs ..
  | remoteResponseArrival => exact remoteResponseArrival_runs ..
  | noreply => exact noreply_runs ..
  | unlock => exact unlock_runs ..
  | lineRefused => exact lineRefused_runs ..
  | linkItemReceive => exact linkItemReceive_runs _
  | chSafe => exact chSafe_runs ..
  | dicPersist => exact dicPersist_runs ..
  | reflexHoldTimeout => exact reflexHoldTimeout_runs _
  | pulseEnd => exact pulseEnd_runs _
  | syncEdge => exact syncEdge_runs
  | rotationStepStart => exact rotationStepStart_runs _
  | convWindowFault => exact convWindowFault_runs ..
  | safePin => exact safePin_runs
  | markMissed => exact markMissed_runs ..
  | frameReceive => exact frameReceive_runs ..
  | slotLaunch => exact slotLaunch_runs ..
  | mailFrameReceive => exact mailFrameReceive_runs ..
  | ringRoundev => exact ringRoundev_runs ..
  | candidateConfirm => exact candidateConfirm_runs ..
  | joinProbe => exact joinProbe_runs ..
  | tkListenEnd => exact tkListenEnd_runs _
  | cocoonEnter => exact cocoonEnter_runs _
  | sleepTimerFire => exact sleepTimerFire_runs ..
  | wakeMiss => exact wakeMiss_runs _
  | ringRole => exact ringRole_runs ..
  | ringPostab => exact ringPostab_runs ..
  | ringBridge => exact ringBridge_runs ..
  | knownAnswerTest => exact knownAnswerTest_runs ..
  | pflashOpComplete => exact pflashOpComplete_runs ..
  | tallySnapshotStart => exact tallySnapshotStart_runs
  | tallySnapshotDone => exact tallySnapshotDone_runs _
  | tallySave => exact tallySave_runs ..
  | rflashRetry => exact rflashRetry_runs ..
  | rflashOpComplete => exact rflashOpComplete_runs ..
  | trailScrub => exact trailScrub_runs ..
  | pendingCapsuleStart => exact pendingCapsuleStart_runs
  | replayStagingDone => exact replayStagingDone_runs _
  | recordInject => exact recordInject_runs _
  | replayEnd => exact replayEnd_runs _
  | resetRelease => exact .done (.ite (((h.withSup _).toStage 1 (by decide)).latchStraps ..) h)
  | s7RingStart => exact .done (.ite ((h.toStage 7 (by decide)).forAll _ (fun _ _ h => h.ringS7 ..)) h)
  | brownOutVcore | brownOutVio => exact .done (.ite ((h.withSup _).beginReset ..) h)
  | vanaOkChange | vdramOkChange => exact .done (.ite h ((h.withSup _).record ..))
  | resetPin => exact .done (.ite h ((h.withSup _).beginReset ..))
  | safePinHigh => exact .done (.ite (((h.record ..).withSup _).clearCause ..) h)
  | wdogExpire => exact .done (.ite (((h.withWdog _).emit ..).holdDev ..) h)
  | portMode => exact .portLine (fun _ h => h) fun _ h => h.setFlag ..
  | portBaud => exact .portLine (fun _ h => h) fun _ h => h.setFld ..
  | portCrc | portEvents | portEvstamp => exact .portLine (fun _ h => h.setFlag ..) fun _ h => h.noPost
  | portMailto => exact .portLine (fun _ h => h.setFld ..) fun _ h => h.noPost
  | portStatus => exact .portLine (fun _ h => h) fun _ h => h.noPost
  | evAck => exact .line fun _ h => h.withEvq _ (List.length_drop.trans_le (Nat.sub_le ..))
  | evClear => exact .okay fun _ h => h.withEvq _ (Nat.zero_le _)
  | safeRelease => exact .line fun _ h => h.release ..
  | ringStart => exact .line fun _ h => h.ringStart ..
  | profWord => exact .line fun _ h => (h.pfRead ..).record ..
  | rflashRead => exact .line fun _ h => h.readPage ..
  | recFreeTrail => exact .okay fun _ h => ((h.withChrys _).setFlag ..).copyOn
  | recResult => exact .line fun _ h => h.withChrys _
  | pllLockTimeout | unitFenced | pflashFactoryCheck => exact .done (.ite (h.fenceUnit ..) h)
  | directoryScan => exact .done (.ite (h.scanDir ..).copyOn h)
  | xoLoss => exact .done (.ite h (h.takeReset ..))
  | devStatus | devFence | devUnit | evGet | wdogGet | timeGet | grpGet | chGet | dicCount | skipGet | dohFuse | chReadback
  | convGet | convRotateGet | convXchkGet | convScan | safeGet | ringRx | ringGet | chBindGet | ringSleepGet | ringPortGet
  | cvuGet | tallyGet | rflashGet | rflashBlockGet | recGet | recList | recCapGet => exact .value
  | devReset => exact .done (h.gateLine _ _ _ _ (fun _ h => .ite ((h.addTag ..).respond ..) (h.devReset ..)))
  | typedHoldTimeout => exact .done (.ite h ((((h.send ..).sendEvents ..).send ..).send ..))
  | remoteLineForward => exact .done (.ite h (h.gateLine _ _ _ _ (fun _ h => h.forwardLine ..)))
  | broadcastLine => exact .okay fun _ h => (h.castHere ..).castOut ..
  | kick => exact .okay fun _ h => h.kickWdog.clearCause ..
  | wdogSet | wdogOff => exact .okay fun _ h => h.setWdog ..
  | lock => exact .okay fun _ h => h.setUnlocked ..
  | rd | splitLowRead | splitHighRead => exact .done (h.rdLine ..)
  | wr | splitLowWrite | splitHighWrite => exact .done (h.wrLine ..)
  | timeSet => exact .okay fun _ h => h.stepTime ..
  | timeTrim | skipActGsafe | ringHop | recKeyframe | recOsum | recWindow | recClaim => exact .okay fun _ h => h.setReg ..
  | timeSlew => exact .okay fun _ h => h.startSlew ..
  | slewComplete => exact .done (.ite h.finishSlew h)
  | heartbeatSend => exact .done (.ite (h.setGr ..) h)
  | linkSilent => exact .done (.ite (h.latchAlone ..) h)
  | linkLost => exact .done (.ite (h.linkLost ..) h)
  | groupPowerFail => exact .done (.ite (.ite ((h.recordFree ..).groupUnpowered ..) (.ite (h.supplyLost ..) h)) h)
  | groupPowered =>
    exact .done (.ite (((((((h.recordFree ..).supplyBack ..).setFlag ..).emit ..).pulseCause ..).dropCause ..).setGr ..)
      (.ite (h.supplyBack ..) h))
  | groupBringupComplete => exact .done (.ite (h.bringUp ..) h)
  | retrainAttempt => exact .done (.ite (h.attempt ..) h)
  | trainingSuccess => exact .done (.ite (h.trainOk ..) h)
  | holdExpire => exact .done (.ite (.ite (.ite (h.withGates _ _ (fun _ h => h.setCh ..)) h) (.ite (h.expireHold ..) h)) h)
  | grpRetrain => exact .okay fun _ h => .ite (h.attempt ..) h
  | arm => exact .okay fun _ h => h.armPart
  | disarm => exact .okay fun _ h => h.disarmPart
  | chMode => exact .okay fun _ h => h.storeMode ..
  | modeActive => exact .done (.ite (h.modeOn ..) h)
  | chEts => exact .okay fun _ h => (h.setFlag ..).checkKind ..
  | chSource | skipNote | skipReportRevoked | dohRetry | dohOltest | convSyncBall | ringLine | ringReachDown | recTriggerCfg
  | recOverwrite => exact .okay fun _ h => h.setFlag ..
  | chSet => exact .okay fun _ h => h.setOut ..
  | diThrType | diThrProg | diInvert | diWirebreak | dicEdge => exact .okay fun _ h => h.writeDiCfg ..
  | diDebounce => exact .okay fun _ h => h.writeDebounce ..
  | dicCountSet | dicCountClear => exact .okay fun _ h => h.setCount ..
  | debounceConfirm => exact .done (.ite (((h.item ..).confirmEdge ..).confirmFire ..) h)
  | wirebreak | openLoad | undercurrent => exact .done (.ite ((((h.item ..).setFlag ..).setFlag ..).chEvent ..) h)
  | wireok | loopOff => exact .done (.ite (((h.item ..).setFlag ..).chEvent ..) h)
  | countItemSend | dicCountItem => exact .done (.ite ((h.item ..).takeCount ..) h)
  | persistInterval => exact .done (.ite (h.persist ..) h)
  | reflexFire => exact .done (.ite (.ite (h.setCh ..) ((h.setCh ..).fireAll ..)) h)
  | reflexRevoke => exact .done (.ite ((h.setCh ..).revokeFire ..) h)
  | skipSrc | dohInrush => exact .okay fun _ h => (h.setFld ..).setFld ..
  | skipConfirm => exact .okay fun _ h => .ite (h.setFlag ..) ((h.setFlag ..).setReg ..)
  | skipAct => exact .okay fun _ h => .ite ((h.setReg ..).setReg ..) (h.setReg ..)
  | skipActPulse | ringSlot | ringBridgeEntry | cvuClear => exact .okay fun _ h => (h.setReg ..).setReg ..
  | skipActStamp | dohRated | dohWire | dohLimit | dohUndercurrent | ringPeriod | ringSlots | ringMargin | ringSeg | ringPosm
  | ringRho => exact .okay fun _ h => h.setFld ..
  | skipEnable => exact .okay fun _ h => h.setEnable ..
  | skipRelease => exact .okay fun _ h => h.endHoldsOf ..
  | dofOverload => exact .done (.ite (((((h.item ..).setFlag ..).setFlag ..).chEvent ..).refreshFault ..) h)
  | overloadClear => exact .done (.ite (((h.item ..).setFlag ..).refreshFault ..) h)
  | dofMismatch => exact .done (.ite ((h.setFlag ..).chEvent ..) h)
  | dofMismatchClear => exact .done (.ite (h.setFlag ..) h)
  | shortTrip | limitTrip => exact .done (.ite ((h.item ..).trip ..) h)
  | currentLimit | inrushWindowClose | openLoadClear | undercurrentClear | aicInlim | aicInlimClear | loopOn | complySet
  | complyClear | currentLimitEnd => exact .done (.ite ((h.item ..).setFlag ..) h)
  | fuseTrip => exact .done (.ite (((h.item ..).setFld ..).fuseStep ..) h)
  | tripRetry => exact .done (.ite ((((h.item ..).setCh ..).endTrip ..).chEvent ..) h)
  | tripCleared => exact .done (.ite (((h.item ..).endTrip ..).chEvent ..) h)
  | dohWireCustom => exact .okay fun _ h => ((h.setFld ..).setFld ..).holdFence ..
  | tripClear => exact .okay fun _ h => h.tripClear ..
  | aoDeviation | aoReadback => exact .done (.ite ((((h.setFlag ..).setFlag ..).chEvent ..).refreshFault ..) h)
  | aoDeviationClear | aoReadbackClear => exact .done (.ite ((h.setFlag ..).refreshFault ..) h)
  | aicLoop | airRtd | airExc | airLeads => exact .okay fun _ h => h.writeAiCfg ..
  | aiRngt => exact .okay fun _ h => h.writeAiDiag ..
  | aoDevCfg => exact .okay fun _ h => h.writeAoDev ..
  | aoRbchkCfg => exact .okay fun _ h => h.writeAoRbchk ..
  | conversionResult => exact .done (.ite (h.convResult ..) h)
  | resultBoundaryMissed => exact .done (.ite ((((h.draw.boundary ..).ageUp ..).rangeIdle ..).periodEnd ..) h)
  | syncBallEdge => exact .done (.ite ((h.record ..).requestSync ..) h)
  | calComplete => exact .done (.ite (.ite (h.mismatch ..) (.ite ((h.calSpare ..).setFld ..) ((h.calSpare ..).setFld ..))) h)
  | rotConnect => exact .done (.ite (.ite (h.setFld ..) (.ite (.ite ((h.setFld ..).setGr ..) h) (h.swapSpare ..))) h)
  | rotSettleDone => exact .done (.ite ((h.setFld ..).setGr ..) h)
  | handover => exact .done (.ite (((((h.swapSpare ..).setCh ..).setFld ..).count ..).setGr ..) h)
  | recalComplete => exact .done (.ite ((h.calSpare ..).setFld ..) h)
  | modFail => exact .done (.ite (h.modFail ..) h)
  | xchkFail => exact .done (.ite (((((h.item ..).setFlag ..).setFlag ..).emit ..).forAll _ (fun _ _ h => h.refreshFault ..)) h)
  | xchkClear => exact .done (.ite (((h.item ..).setFlag ..).forAll _ (fun _ _ h => h.refreshFault ..)) h)
  | convRate => exact .okay fun _ h => h.writeConvCfg ..
  | convWindow => exact .okay fun _ h => (((((h.setReg ..).setReg ..).setReg ..).setFld ..).setFlag ..).winReset ..
  | convWindowOff => exact .okay fun _ h => (h.setFlag ..).winReset ..
  | convRotate => exact .okay fun _ h => .writeRotCfg _ _ (.ite ((h.setFlag ..).setFld ..) h)
  | convXchk => exact .okay fun _ h => h.writeXchkCfg ..
  | convSyncRing => exact .okay fun _ h => h.writeSync ..
  | sync => exact .okay fun _ h => h.requestSync ..
  | vfLow => exact .done (.ite ((h.emit ..).holdGrp ..) h)
  | vfOk => exact .done (.ite ((h.emit ..).clearCause ..) h)
  | vfHigh | vfHighEnd => exact .done (.ite ((h.setGr ..).emit ..) h)
  | tempWarn => exact .done (.ite ((h.setFlag ..).emit ..) h)
  | tempOk => exact .done (.ite ((((h.item ..).setFlag ..).emit ..).clearCause ..) (.ite ((h.setFlag ..).emit ..) h))
  | tempTrip =>
    exact .done (.ite (((((h.item ..).setFlag ..).emit ..).forAll _ (fun _ _ h => .ite (h.trip ..) h)).holdGrp ..) h)
  | safeCmd => exact .okay fun _ h => (h.holdDev ..).clearCause ..
  | safeReleaseAuto => exact .okay fun _ h => h.setAutorel ..
  | roundMarkSend => exact .done (.ite (((h.roundEnd ..).ageBad ..).sendMark ..) h)
  | roundMarkAccept =>
    exact .done (.ite (.ite ((((h.roundEnd ..).anchor ..).ageBad ..).countMark ..) (.ite
      (.ite ((h.anchor ..).joinRun ..) ((h.anchor ..).setRg ..)) (h.anchor ..))) h)
  | rxWindowClose => exact .done (.ite (.ite (.ageSlot _ _ _ (.ite (h.bumpPort ..) h)) (.ite (h.bumpPort ..) h)) h)
  | lageRoundTick => exact .done (.ite (h.ageAll ..) h)
  | slotAssembly => exact .done (.ite (h.assemble ..) h)
  | ringdlyMeasure => exact .done (.ite (h.setFld ..) h)
  | ringStopped => exact .done (.ite ((h.ringStopped ..).emit ..) h)
  | mailFragmentTimeout => exact .done (.ite ((h.setRg ..).mailDiscard ..) h)
  | ringStop => exact .okay fun _ h => h.forAll _ (fun _ _ h => h.ringStop ..)
  | ringMap => exact .okay fun _ h => h.writeMap ..
  | ringTx => exact .okay fun _ h => h.foldl _ (fun _ _ h => h.setReg ..)
  | ringCommit => exact .okay fun _ h => h.commitSlot ..
  | chBind => exact .okay fun _ h => h.writeBind ..
  | huntCandidate =>
    exact .done (.ite (.ite (h.checkFrame ..) (.ite (((h.checkFrame ..).setRg ..).tkConflict ..)
      (.ite ((h.checkFrame ..).setRg ..)
      (.ite (((h.checkFrame ..).setRg ..).setRg ..) ((((h.checkFrame ..).setRg ..).ringTo ..).setRg ..))))) h)
  | dupAddr =>
    exact .done (.ite
      (.ite (((((h.joinFlag ..).emit ..).ringTo ..).joinFlag ..).setRg ..) ((((h.joinFlag ..).emit ..).ringStopped
      ..).joinFlag ..)) h)
  | foreignMark =>
    exact .done (.ite (.ite (.ite (h.emit ..) (h.tkConflict ..))
      (.ite ((((h.ringTo ..).joinFlag ..).setRg ..).emit ..) (.ite (h.emit ..) h))) h)
  | tkTakeover => exact .done (.ite (((((h.fixPos ..).joinFlag ..).enterRun ..).emit ..).sendMark ..) h)
  | ringWrap => exact .done (.ite ((((h.setFlag ..).setFlag ..).joinFlag ..).emit ..) h)
  | portUp => exact .done (.ite (.ite ((h.setFlag ..).unwrap ..) (h.setFlag ..)) h)
  | ringUnwrap => exact .done (.ite (h.unwrap ..) h)
  | ringCocoon => exact .okay fun _ h => h.setRg ..
  | ringPortClear => exact .okay fun _ h => ((h.setReg ..).setReg ..).setReg ..
  | pflashSeqStep | programWord | eraseSector | eraseBank | enterPassword | setPassword | protectGroup | clearStatus =>
    exact .done (h.pfLine ..)
  | pflashSeqTimeout => exact .done (.ite (h.seqAbandon ..) h)
  | profGet => exact .line fun _ h => (h.readSlot ..).readSlot ..
  | profProgram => exact .done (h.startLine _ _ _ _ (fun _ h => h.profStart _ _ _ (fun _ h => h.pfStartProgram ..)))
  | profErase | profEraseSlot | profWipe => exact .okay fun _ h => h.profErase ..
  | profCrc => exact .line fun _ h => h.readSlot ..
  | profSwap => exact .done (h.startLine _ _ _ _ (fun _ h => h.profStart _ _ _ (fun _ h => (h.setPfOp ..).setPfOp ..)))
  | profProtect => exact .done (h.startLine _ _ _ _ (fun _ h => h.profStart _ _ _ (fun _ h => h.pfStartProtect ..)))
  | profPassword => exact .done (h.startLine _ _ _ _ (fun _ h => h.profStart _ _ _ (fun _ h => h.pfStartPassword ..)))
  | rflashHex => exact .line fun _ h => h.record ..
  | rflashProgram => exact .okay fun _ h => h.hostProgram ..
  | rflashErase => exact .okay fun _ h => h.hostErase ..
  | rflashBad => exact .okay fun _ h => h.markBad ..
  | rflashSync => exact .okay fun _ h => h.tableDue
  | tableWrite => exact .done (.ite h.writeTable h)
  | keyframe => exact .done (.ite h h.takeKeyframe.copyOn)
  | osum => exact .done (.ite h (h.recordFree ..).copyOn)
  | postWindowEnd => exact .done (.ite h (h.closeCap ..).copyOn)
  | recOnOff => exact .okay fun _ h => h.regWrite ..
  | recFreeze => exact .okay fun _ h => (h.trigger ..).copyOn
  | recCapErase => exact .okay fun _ h => (h.eraseCap ..).copyOn
  | recReplay => exact .okay fun _ h => h.enterReplay ..
  | recReplayPause => exact .done (h.replayForm _ _ _ (fun _ h => h.pauseReplay))
  | recReplayContinue => exact .done (h.replayForm _ _ _ (fun _ h => h.continueReplay))
  | recReplayStop => exact .done (h.replayForm _ _ _ (fun _ h => h.endReplay ..))
  | keyframeComplete => exact .done (.ite h h.endKeyframe.copyOn)

theorem pushEvent_evNew (s : State) (e : Event) : (s.pushEvent e).evNew = s.evNew := by
  unfold State.pushEvent
  dsimp only
  split <;> rfl

theorem foldl_pushEvent_evNew (l : List Event) (s : State) : (l.foldl State.pushEvent s).evNew = s.evNew := by
  induction l generalizing s with
  | nil => rfl
  | cons e l ih => exact (ih _).trans (pushEvent_evNew s e)

/-- A step ends with no event left to queue. -/
theorem flush_evNew (s : State) : s.flush.evNew = [] := by
  unfold State.flush
  split
  · assumption
  · exact foldl_pushEvent_evNew _ _

/-- The end of a meaning as the next state. -/
theorem Runs.next {s : State} {o : Host.Outcome State Fault Refusal} (h : Runs s o) :
    ∃ t, o = .next t ∧ t.evNew = [] ∧ Tame s t := by
  obtain ⟨u, rfl, hu⟩ := h
  exact ⟨u.flush, rfl, flush_evNew u, hu.flush⟩

/-- The commands that wait are no part of the invariant. -/
theorem inv_withPending (l : List Instr) (s : State) : Inv { s with pending := l } ↔ Inv s := .rfl

theorem step_runs (s : State) : ∃ t, step s = .next t ∧ (Inv s → Inv t) := by
  unfold step
  split
  · rename_i c l _
    obtain ⟨t, ht, _, hs⟩ := (exec_runs c { s with pending := l }).next
    exact ⟨t, ht, fun hi => hs.inv ((inv_withPending l s).2 hi)⟩
  · exact ⟨_, rfl, ((Tame.refl s).idleCycle.flush).inv⟩

end Sys2Proof.Machine

open Sys2Proof Sys2Proof.Machine

/-- Settles O59: a step runs the front command or one idle cycle, and each keeps what the invariant reads. -/
theorem stepKeepsInv : Obligations.StepKeepsInv := by
  intro s t hi hstep
  obtain ⟨u, hu, hinv⟩ := step_runs s
  rw [hu] at hstep
  cases hstep
  exact hinv hi

/-- Settles O60: every meaning ends in `done`, which queues what the step raised; an event that does not apply leaves the state
(assumption 11). -/
theorem everyCommandCompletes : Obligations.EveryCommandCompletes := by
  intro c s
  obtain ⟨t, ht, hnew, hs⟩ := (exec_runs c s).next
  exact ⟨t, ht, hnew, hs.pending, hs.member, hs.uid⟩
end

section
/-!
PROOFS. The reset state, the queue's front, and one cycle of the recording clock (R33, R70, R79, R82).
-/
namespace Sys2Proof.Machine

/-! ### What the output selector's operations change -/

theorem regated_count (s : State) (k : Nat) : Regated s (s.count k) := ⟨_, _, _, _, rfl⟩
theorem regated_setFld (s : State) (k lo w v : Nat) : Regated s (s.setFld k lo w v) := ⟨_, _, _, _, rfl⟩

theorem Regated.ite {s a b : State} {c : Prop} [Decidable c] (ha : Regated s a) (hb : Regated s b) :
    Regated s (if c then a else b) := by
  split
  · exact ha
  · exact hb

theorem regated_enterSafe (n : Nat) (s : State) : Regated s (enterSafe n s) := by
  unfold enterSafe
  refine .ite ?_ (.refl s)
  dsimp only
  split
  · exact (regated_setCh ..).trans ((regated_setFld ..).trans (regated_setFlag ..))
  · exact (regated_setFld ..).trans (regated_setFlag ..)

theorem regated_leaveSafe (n : Nat) (s : State) : Regated s (leaveSafe n s) :=
  .ite ((regated_setCh ..).trans ((regated_setFld ..).trans (regated_setFlag ..))) (.refl s)

theorem regated_holdCause (k b : Nat) (o : Obj) (l : List Nat) (s : State) : Regated s (holdCause k b o l s) := by
  unfold holdCause
  refine .ite (.refl s) (Regated.trans ?set (regated_withGates l _ ?enter))
  case set => exact (regated_setFlag ..).trans ((regated_setFlag ..).trans (regated_emit ..))
  case enter => exact (Regated.refl _).forAll l regated_enterSafe

theorem regated_dropCause (k b : Nat) (l : List Nat) (s : State) : Regated s (dropCause k b l s) := by
  unfold dropCause
  refine .ite (Regated.trans ?set (regated_withGates l _ ?leave)) (.refl s)
  case set => exact (regated_setFlag ..).trans (regated_setFlag ..)
  case leave => exact (Regated.refl _).forAll l regated_leaveSafe

theorem regated_holdCh (b n : Nat) (s : State) : Regated s (holdCh b n s) := .ite (regated_holdCause ..) (.refl s)

theorem regated_refreshFault (n : Nat) (s : State) : Regated s (refreshFault n s) :=
  .ite (regated_holdCh ..) (regated_clearCause ..)

theorem regated_trip (c : Nat) (ev : Ev) (latch : Bool) (n : Nat) (s : State) : Regated s (trip c ev latch n s) := by
  unfold trip
  refine Regated.trans (regated_withGates [n] s ?off) (.trans (regated_setCh ..) (.trans (regated_count ..)
    (.trans (regated_emit ..) (regated_refreshFault ..))))
  case off => exact (regated_setFlag ..).trans ((regated_setFld ..).trans ((regated_setFlag ..).trans (regated_setFlag ..)))

theorem regated_fuseStep (n mA : Nat) (s : State) : Regated s (fuseStep n mA s) := by
  unfold fuseStep
  have hheat : Regated s (match s.fuseRow n with
      | none => cfgErr n true s
      | some row => s.setCh n { s.ch n with heat := some (s.nextHeat n mA row) }) := by
    split
    · exact .ite (regated_setFlag ..) (.refl s)
    · exact regated_setCh ..
  exact .ite (hheat.trans (regated_trip ..)) hheat

theorem regated_fuseSteps (s : State) : Regated s (fuseSteps s) :=
  (Regated.refl s).forAll _ fun _ u => .ite (regated_fuseStep ..) (.refl u)

/-! ### One cycle of the recording clock -/

theorem Regated.clk {s t : State} (h : Regated s t) : t.clk = s.clk := by obtain ⟨_, _, _, _, rfl⟩ := h; rfl
theorem Regated.sup {s t : State} (h : Regated s t) : t.sup = s.sup := by obtain ⟨_, _, _, _, rfl⟩ := h; rfl
theorem Regated.member {s t : State} (h : Regated s t) : t.member = s.member := by obtain ⟨_, _, _, _, rfl⟩ := h; rfl
theorem Regated.pending {s t : State} (h : Regated s t) : t.pending = s.pending := by obtain ⟨_, _, _, _, rfl⟩ := h; rfl

/-- The steps of the fuse models move no clock. -/
theorem regated_idleCycle (s : State) : Regated s.tick (idleCycle s) := .ite (regated_fuseSteps _) (.refl _)

theorem step_idle {s : State} (h : s.pending = []) : step s = .next (idleCycle s).flush := by
  unfold step
  rw [h]
  rfl

theorem flush_clk (s : State) : s.flush.clk = s.clk := (Stays.refl none noReg s).flush.clk

/-- The clock after a cycle without a command is that of the tick. -/
theorem idle_clk (s : State) : (idleCycle s).flush.clk = s.tick.clk := (flush_clk _).trans (regated_idleCycle s).clk

theorem tick_same (s : State) : s.tick.pending = s.pending ∧ s.tick.member = s.member ∧ s.tick.sup = s.sup := by
  unfold State.tick
  dsimp only
  repeat' split
  all_goals exact ⟨rfl, rfl, rfl⟩

section
variable {s : State}

theorem tick_stopped (h : s.dead = true ∨ s.asleep = true) : s.tick = s := by
  unfold State.tick
  rcases h with h | h
  · rw [if_pos h]
  · rw [if_pos h, ite_self]

theorem tick_unlocked (hd : s.dead = false) (ha : s.asleep = false) (hp : s.sup.pllLock = false) :
    s.tick.clk = { s.clk with raw := s.clk.raw + 16, ts := s.clk.ts + 16 } := by
  unfold State.tick
  rw [if_neg (by simp [hd]), if_neg (by simp [ha]), if_pos (by simp [hp])]

/-- The carry of a fraction and a trim smaller than it is the floor of their sum (R82). -/
theorem carry_eq_fdiv (f : BitVec 32) {h : Int} (hlo : -(2 ^ 32) < h) (hhi : h < 2 ^ 32) :
    (if 2 ^ 32 ≤ (f.toNat : Int) + h then (1 : Int) else if (f.toNat : Int) + h < 0 then -1 else 0) =
      ((f.toNat : Int) + h).fdiv (2 ^ 32) := by
  have hf : (f.toNat : Int) < 2 ^ 32 := by exact_mod_cast f.isLt
  have hdiv : ((f.toNat : Int) + h).fdiv (2 ^ 32) = ((f.toNat : Int) + h) / 2 ^ 32 := Int.fdiv_eq_ediv_of_nonneg _ (by decide)
  rw [hdiv]
  split_ifs <;> omega

/-- At full speed without a slew the fraction takes the trim, and its carry goes into the timestamp (R82). -/
theorem tick_trimmed (hd : s.dead = false) (ha : s.asleep = false) (hp : s.sup.pllLock = true) (hs : s.clk.slewing = false)
    {h : Int} (hh : h = if s.clk.disc then s.clk.ringT else (s.reg 0x10010).toInt) (hhi : h < 2 ^ 32) (hlo : -(2 ^ 32) < h) :
    s.tick.clk.raw = s.clk.raw + 1 ∧ s.tick.clk.frac = BitVec.ofInt 32 (s.clk.frac.toNat + h) ∧
      s.tick.clk.ts = s.clk.ts + BitVec.ofInt 64 (1 + (s.clk.frac.toNat + h).fdiv (2 ^ 32)) := by
  have htick : s.tick = { s with clk := { s.clk with
      raw := s.clk.raw + 1, ts := s.clk.ts + BitVec.ofInt 64 (1 + (if 2 ^ 32 ≤ (s.clk.frac.toNat : Int) + h then (1 : Int)
        else if (s.clk.frac.toNat : Int) + h < 0 then -1 else 0)),
      frac := BitVec.ofInt 32 (s.clk.frac.toNat + h), slew := s.clk.slew - 0, slewing := false } } := by
    simp [State.tick, hd, ha, hp, hs, hh]
  rw [htick, carry_eq_fdiv _ hlo hhi]
  exact ⟨rfl, rfl, rfl⟩

end

end Sys2Proof.Machine

open Sys2Proof Sys2Proof.Machine

/-- Settles O55: the step takes the front command off the queue before it runs. -/
theorem stepRunsFront : Obligations.StepRunsFront := by
  intro c l s h
  unfold step
  rw [h]

/-- Settles O56: the cycle is the tick, and the fuse models' steps after it move no clock. -/
theorem idleCycle : Obligations.IdleCycle := by
  intro s hq
  obtain ⟨hpend, hmem, hsup⟩ := tick_same s
  have hflush := (Stays.refl none noReg (Machine.idleCycle s)).flush
  have hidle := regated_idleCycle s
  refine ⟨_, step_idle hq, hflush.pending.trans (hidle.pending.trans (hpend.trans hq)), hflush.member.trans (hidle.member.trans hmem),
    hflush.sup.trans (hidle.sup.trans hsup), fun h => ?stopped, fun hd ha hp => ?unlocked, fun hd ha hp hs hhi hlo => ?trimmed⟩
  case stopped => rw [idle_clk, tick_stopped h]
  case unlocked => rw [idle_clk, tick_unlocked hd ha hp]
  case trimmed => rw [idle_clk]; exact tick_trimmed hd ha hp hs rfl hhi hlo

/-- Settles O57: the store holds SYS.RSTCAUSE alone, so every other register reads as its table says. -/
theorem resetState : Obligations.ResetState := by
  have hreg : ∀ k, k ≠ 0x28 → State.reset.reg k = resetWord k := fun k hk => by
    simp [State.reg, State.reset, sget, hk.symm]
  refine ⟨rfl, rfl, rfl, rfl, rfl, rfl, rfl, rfl, rfl, rfl, rfl, rfl, rfl, rfl, rfl, rfl, rfl, ?channels, ?groups, hreg⟩
  case channels => decide
  case groups => decide

/-- Settles O58. -/
theorem resetInv : Obligations.ResetInv := by
  refine ⟨by decide, by decide, ⟨by decide, by decide, by decide⟩, by decide, by decide⟩
end

section
/-!
PROOFS. What the operations on causes, latches and the output selector change (R302 to R305, R148, R221, R252): the registers
and the channels that they may write, the order of the events that they raise, and nothing beside.
-/
namespace Sys2Proof.Machine

/-- From s to t the registers of K, the implied state of the channels of C and the events raised may have changed, and nothing else;
the events are raised after those that stand, and the stores keep their canonical form. -/
structure Moves (K C : Nat → Prop) (s t : State) : Prop where
  rest   : Regated s t
  grp    : t.grp = s.grp
  reg    : ∀ k, ¬ K k → t.reg k = s.reg k
  ch     : ∀ n, ¬ C n → t.ch n = s.ch n
  canon  : swf resetWord s.regs = true → swf resetWord t.regs = true
  chans  : swf (fun _ => ({} : ChanAux)) s.chn = true → swf (fun _ => ({} : ChanAux)) t.chn = true
  events : ∃ l, t.evNew = s.evNew ++ l

namespace Moves
variable {K C : Nat → Prop} {s t u : State}

theorem refl (s : State) : Moves K C s s := ⟨.refl s, rfl, fun _ _ => rfl, fun _ _ => rfl, id, id, [], (List.append_nil _).symm⟩

theorem trans (h : Moves K C s t) (g : Moves K C t u) : Moves K C s u where
  rest := h.rest.trans g.rest
  grp := g.grp.trans h.grp
  reg k hk := (g.reg k hk).trans (h.reg k hk)
  ch n hn := (g.ch n hn).trans (h.ch n hn)
  canon := g.canon ∘ h.canon
  chans := g.chans ∘ h.chans
  events := by
    obtain ⟨l, hl⟩ := h.events
    obtain ⟨m, hm⟩ := g.events
    exact ⟨l ++ m, by rw [hm, hl, List.append_assoc]⟩

theorem mono {K' C' : Nat → Prop} (h : Moves K C s t) (hK : ∀ k, K k → K' k) (hC : ∀ n, C n → C' n) : Moves K' C' s t :=
  { h with reg := fun k hk => h.reg k (hk ∘ hK k), ch := fun n hn => h.ch n (hn ∘ hC n) }

theorem ite {a b : State} {c : Prop} [Decidable c] (ha : Moves K C s a) (hb : Moves K C s b) : Moves K C s (if c then a else b) := by
  split
  · exact ha
  · exact hb

theorem foldl {β : Type _} {f : State → β → State} (l : List β) (h : Moves K C s t)
    (hf : ∀ x ∈ l, ∀ u, Moves K C u (f u x)) : Moves K C s (l.foldl f t) := by
  induction l generalizing t with
  | nil => exact h
  | cons x l ih => exact ih (h.trans (hf x List.mem_cons_self t)) fun y hy => hf y (List.mem_cons_of_mem x hy)

theorem forAll {f : Nat → State → State} (l : List Nat) (h : Moves K C s t) (hf : ∀ x ∈ l, ∀ u, Moves K C u (f x u)) :
    Moves K C s (forAll l f t) := h.foldl l fun x hx u => hf x hx u

theorem event {x : Event} (h : Moves K C s t) (hx : x ∈ s.evNew) : x ∈ t.evNew := by
  obtain ⟨l, hl⟩ := h.events
  exact hl ▸ List.mem_append_left l hx

theorem fld (h : Moves K C s t) {k : Nat} (hk : ¬ K k) (lo w : Nat) : t.fld k lo w = s.fld k lo w := State.fld_of_reg (h.reg k hk) ..
theorem flag (h : Moves K C s t) {k : Nat} (hk : ¬ K k) (i : Nat) : t.flag k i = s.flag k i := State.flag_of_reg (h.reg k hk) _

end Moves

section
variable {K C : Nat → Prop}

theorem moves_setReg (s : State) (k : Nat) (v : Word) (hk : K k) : Moves K C s (s.setReg k v) :=
  ⟨⟨_, _, _, _, rfl⟩, rfl, fun j hj => State.reg_setReg_other s k j v (by rintro rfl; exact hj hk), fun _ _ => rfl,
    State.swf_setReg s k v, id, [], (List.append_nil _).symm⟩

theorem moves_setFld (s : State) (k lo w v : Nat) (hk : K k) : Moves K C s (s.setFld k lo w v) := moves_setReg s k _ hk
theorem moves_setFlag (s : State) (k i : Nat) (b : Bool) (hk : K k) : Moves K C s (s.setFlag k i b) := moves_setReg s k _ hk
theorem moves_count (s : State) (k : Nat) (hk : K k) : Moves K C s (s.count k) := moves_setReg s k _ hk

theorem moves_emit (s : State) (c : Ev) (o : Obj) (d : List Fld) : Moves K C s (s.emit c o d) :=
  ⟨⟨_, _, _, _, rfl⟩, rfl, fun _ _ => rfl, fun _ _ => rfl, id, id, _, rfl⟩

theorem moves_setCh (s : State) (n : Nat) (a : ChanAux) (hn : C n) : Moves K C s (s.setCh n a) :=
  ⟨⟨_, _, _, _, rfl⟩, rfl, fun _ _ => rfl, fun m hm => State.ch_setCh_other s n m a (by rintro rfl; exact hm hn), id,
    swf_sset (fun _ => ({} : ChanAux)) s.chn n a, [], (List.append_nil _).symm⟩

theorem moves_clearCause (s : State) (k b : Nat) (o : Obj) (hk : K k) : Moves K C s (clearCause k b o s) :=
  .ite (.refl s) ((moves_setFlag s k _ _ hk).trans (moves_emit ..))

/-- The registers that follow the output selector of a channel: its status, and its causes for the fault that goes with the driver. -/
def gateReg (n k : Nat) : Prop := k = aStat n ∨ k = aSafeCh n

theorem moves_devOff (s : State) (n : Nat) (hK : ∀ k, gateReg n k → K k) : Moves K C s (s.devOff n) := by
  have hclear : Moves K C s (s.setFlag (aStat n) 16 false) := moves_setFlag s _ _ _ (hK _ (.inl rfl))
  exact .ite (.ite hclear (hclear.trans (moves_clearCause _ _ _ _ (hK _ (.inr rfl))))) (.refl s)

theorem moves_codeMoved (s : State) (n : Nat) (hK : ∀ k, gateReg n k → K k) (hC : C n) : Moves K C s (s.codeMoved n) :=
  (moves_setCh s n _ hC).trans (moves_setFlag _ _ _ _ (hK _ (.inl rfl)))

theorem moves_gateMoved (s t : State) (n : Nat) (hK : ∀ k, gateReg n k → K k) (hC : C n) : Moves K C t (s.gateMoved t n) := by
  have hstat : K (aStat n) := hK _ (.inl rfl)
  have hcode : Moves K C t (if (s.drive n).2 = (t.drive n).2 then t else t.codeMoved n) := .ite (.refl t) (moves_codeMoved t n hK hC)
  exact .ite (hcode.trans (moves_devOff _ n hK)) (.ite (moves_setFlag t _ _ _ hstat)
    (.ite ((moves_setFlag t _ _ _ hstat).trans (moves_setFlag _ _ _ _ hstat)) (.refl t)))

/-- What follows the output selector of the channels of a list, after f. -/
theorem moves_gates (f : State → State) (l : List Nat) (s : State) (hK : ∀ n ∈ l, ∀ k, gateReg n k → K k) (hC : ∀ n ∈ l, C n) :
    Moves K C (f s) (withGates l f s) :=
  (Moves.refl (f s)).foldl l fun n hn u => moves_gateMoved s u n (hK n hn) (hC n hn)

theorem moves_withGates {f : State → State} {l : List Nat} {s : State} (h : Moves K C s (f s)) (hK : ∀ n ∈ l, ∀ k, gateReg n k → K k)
    (hC : ∀ n ∈ l, C n) : Moves K C s (withGates l f s) := h.trans (moves_gates f l s hK hC)

theorem moves_enterSafe (n : Nat) (s : State) (hK : K (aChst n) ∧ K (aStat n)) (hC : C n) : Moves K C s (enterSafe n s) := by
  obtain ⟨hchst, hstat⟩ := hK
  have hcap : Moves K C s (if s.fld (chA n 4) 0 2 = 3 then s.capture n (s.drive n).2 else s) := .ite (moves_setCh s n _ hC) (.refl s)
  exact .ite ((hcap.trans (moves_setFld _ _ _ _ _ hchst)).trans (moves_setFlag _ _ _ _ hstat)) (.refl s)

theorem moves_leaveSafe (n : Nat) (s : State) (hK : K (aChst n) ∧ K (aStat n)) (hC : C n) : Moves K C s (leaveSafe n s) := by
  obtain ⟨hchst, hstat⟩ := hK
  exact .ite (((moves_setCh s n _ hC).trans (moves_setFld _ _ _ _ _ hchst)).trans (moves_setFlag _ _ _ _ hstat)) (.refl s)

/-- The registers that a cause writes in the channels of a list: the safe state, the status, and the causes of the channel. -/
def safeReg (l : List Nat) (k : Nat) : Prop := ∃ n ∈ l, k = aChst n ∨ k = aStat n ∨ k = aSafeCh n

theorem safeReg_gate {l : List Nat} {n : Nat} (hn : n ∈ l) {k : Nat} (h : gateReg n k) : safeReg l k := ⟨n, hn, .inr h⟩

theorem moves_holdCause (k b : Nat) (o : Obj) (l : List Nat) (s : State) :
    Moves (fun j => j = k ∨ safeReg l j) (· ∈ l) s (holdCause k b o l s) := by
  unfold holdCause
  refine .ite (.refl s) (Moves.trans ?set (moves_withGates ?enter (fun n hn j hj => .inr (safeReg_gate hn hj)) fun _ => id))
  case set => exact ((moves_setFlag s k b true (.inl rfl)).trans (moves_setFlag _ k _ true (.inl rfl))).trans (moves_emit ..)
  case enter => exact (Moves.refl _).forAll l fun n hn u =>
    moves_enterSafe n u ⟨.inr ⟨n, hn, .inl rfl⟩, .inr ⟨n, hn, .inr (.inl rfl)⟩⟩ hn

theorem moves_dropCause (k b : Nat) (l : List Nat) (s : State) :
    Moves (fun j => j = k ∨ safeReg l j) (· ∈ l) s (dropCause k b l s) := by
  unfold dropCause
  refine .ite (Moves.trans ?set (moves_withGates ?leave (fun n hn j hj => .inr (safeReg_gate hn hj)) fun _ => id)) (.refl s)
  case set => exact (moves_setFlag s k b false (.inl rfl)).trans (moves_setFlag _ k _ false (.inl rfl))
  case leave => exact (Moves.refl _).forAll l fun n hn u =>
    moves_leaveSafe n u ⟨.inr ⟨n, hn, .inl rfl⟩, .inr ⟨n, hn, .inr (.inl rfl)⟩⟩ hn

theorem moves_holdCh (b n : Nat) (s : State) : Moves (safeReg [n]) (· = n) s (holdCh b n s) :=
  .ite ((moves_holdCause ..).mono (fun _ hk => hk.elim (fun h => ⟨n, List.mem_singleton.2 rfl, .inr (.inr h)⟩) id)
    fun _ => List.mem_singleton.1) (.refl s)

theorem moves_refreshFault (n : Nat) (s : State) : Moves (safeReg [n]) (· = n) s (refreshFault n s) :=
  .ite (moves_holdCh ..) (moves_clearCause _ _ _ _ ⟨n, List.mem_singleton.2 rfl, .inr (.inr rfl)⟩)

end

/-! ### The addresses of the causes and of the status do not meet -/

section
variable (n m g k o : Nat)

theorem chA_ge : 0x10000000 ≤ chA n o := by unfold chA; omega
theorem grA_ge : 0x10000000 ≤ grA g o := by unfold grA; omega

theorem aStat_ge : 0x10000000 ≤ aStat n := chA_ge ..

theorem aStat_inj (h : aStat n = aStat m) : n = m := by
  unfold aStat chA at h
  omega

theorem aSafeCh_inj (h : aSafeCh n = aSafeCh m) : n = m := by unfold aSafeCh at h; omega
theorem aChst_inj (h : aChst n = aChst m) : n = m := by unfold aChst at h; omega

end

end Sys2Proof.Machine
end

section
/-!
PROOFS. Holding a cause of device or group scope (R302, R303): the cause is held and reported, every output of its scope enters
safe state, and nothing else changes.
-/
namespace Sys2Proof.Machine

/-- What a cause changes in the channels of its scope is no cause register of a wider scope. -/
theorem safeReg_ge {l : List Nat} {k : Nat} (h : safeReg l k) : 0x30100 ≤ k := by
  obtain ⟨n, _, rfl | rfl | rfl⟩ := h
  · unfold aChst; omega
  · have := aStat_ge n; omega
  · unfold aSafeCh; omega

/-- The registers that a channel's entry into safe state writes. -/
def enterReg (n k : Nat) : Prop := k = aChst n ∨ k = aStat n

theorem moves_enterSafe_own (n : Nat) (s : State) : Moves (enterReg n) (· = n) s (enterSafe n s) :=
  moves_enterSafe n s ⟨.inl rfl, .inr rfl⟩ rfl

section
variable {n m : Nat} (hn : n < 128)
include hn

theorem not_enterReg_aChst (h : m ≠ n) : ¬ enterReg m (aChst n) := by
  rintro (he | he)
  · exact h (aChst_inj _ _ he).symm
  · have := aStat_ge m
    unfold aChst at he
    omega

theorem not_enterReg_aSafeCh : ¬ enterReg m (aSafeCh n) := by
  rintro (he | he)
  · unfold aSafeCh aChst at he; omega
  · have := aStat_ge m
    unfold aSafeCh at he
    omega

omit hn in
theorem not_enterReg_low {k : Nat} (hk : k < 0x30300) : ¬ enterReg m k := by
  rintro (he | he)
  · unfold aChst at he; omega
  · have := aStat_ge m; omega

omit hn in
theorem not_enterReg_mode (hm : m < 128) : ¬ enterReg m (chA n 0) := by
  rintro (he | he)
  · have := chA_ge n 0
    unfold aChst at he
    omega
  · unfold aStat chA at he
    omega

theorem not_gateReg_aChst (hm : m < 128) : ¬ gateReg m (aChst n) := by
  rintro (h | h)
  · have := aStat_ge m
    unfold aChst at h
    omega
  · unfold aChst aSafeCh at h; omega

end

/-! ### Entering safe state -/

/-- An output channel that holds a cause. -/
def State.calls (s : State) (n : Nat) : Prop := isOut (s.mode n) = true ∧ s.heldOn n ≠ 0

section
variable {n : Nat} (hn : n < 128)
include hn

theorem Moves.calls {m : Nat} {C : Nat → Prop} {s t : State} (h : Moves (enterReg m) C s t) (hm : m < 128) (hs : s.calls n) :
    t.calls n := by
  obtain ⟨hout, hheld⟩ := hs
  refine ⟨?_, ?_⟩
  · rwa [State.mode, h.fld (not_enterReg_mode hm)]
  · rwa [State.heldOn, h.fld (not_enterReg_low (by decide)), h.fld (not_enterReg_low ?grp), h.fld (not_enterReg_aSafeCh hn)]
    case grp => unfold aSafeGrp; omega

/-- A channel that holds a cause is in safe state once it has entered. -/
theorem enterSafe_chst {s : State} (hw : swf resetWord s.regs = true) (hs : s.calls n) : (enterSafe n s).chst n ≠ 0 := by
  obtain ⟨hout, hheld⟩ := hs
  unfold enterSafe
  by_cases hst : s.chst n = 0
  · rw [if_pos (by simp [hout, hst, hheld])]
    have hcap : ∀ u : State, swf resetWord u.regs = true →
        ((u.setFld (aChst n) 0 2 1).setFlag (aStat n) 0 true).chst n = 1 := fun u hu => by
      have hne : aChst n ≠ aStat n := fun he => by have := aStat_ge n; unfold aChst at he; omega
      rw [State.chst, State.fld_of_reg (State.reg_setFlag_other _ _ _ _ _ hne)]
      exact State.fld_setFld_same _ _ _ _ _ hu (by decide)
    dsimp only
    rw [hcap _ (by split <;> exact hw)]
    decide
  · rwa [if_neg (by simp [hst])]

/-- A channel that holds a cause is in safe state once every channel of a list with it has entered. -/
theorem forAll_enterSafe_chst {l : List Nat} (hl : ∀ m ∈ l, m < 128) {s : State} (hw : swf resetWord s.regs = true)
    (hs : s.calls n) (h : n ∈ l ∨ s.chst n ≠ 0) : (forAll l enterSafe s).chst n ≠ 0 := by
  unfold forAll
  induction l generalizing s with
  | nil => exact h.resolve_left List.not_mem_nil
  | cons m l ih =>
    have hm := hl m List.mem_cons_self
    have hmove := moves_enterSafe_own m s
    refine ih (fun x hx => hl x (List.mem_cons_of_mem m hx)) (hmove.canon hw) (hmove.calls hn hm hs) ?_
    by_cases hmn : m = n
    · exact .inr (hmn ▸ enterSafe_chst (hmn ▸ hn) hw (hmn ▸ hs))
    · rcases h with h | h
      · exact .inl ((List.mem_cons.1 h).resolve_left (Ne.symm hmn))
      · refine .inr ?_
        rwa [State.chst, hmove.fld (not_enterReg_aChst hn hmn)]

end

/-! ### Holding a cause -/

section
variable {k b : Nat} {o : Obj} {l : List Nat} {s : State}

/-- The cause b of register k held and reported, before the channels of its scope enter safe state. -/
def causeSet (k b : Nat) (o : Obj) (s : State) : State :=
  ((s.setFlag k b true).setFlag k (16 + b) true).emit .safeEnter o [fcause b]

theorem holdCause_eq (hf : s.fenced .safe = false) (hp : s.flag k (16 + b) = false) :
    holdCause k b o l s = withGates l (forAll l enterSafe) (causeSet k b o s) := by
  unfold holdCause
  rw [if_neg (by simp [hf, hp])]
  rfl

theorem moves_scope (l : List Nat) (s : State) : Moves (safeReg l) (· ∈ l) s (withGates l (forAll l enterSafe) s) := by
  refine moves_withGates ((Moves.refl s).forAll l fun n hn u => ?_) (fun n hn j hj => safeReg_gate hn hj) fun _ => id
  exact moves_enterSafe n u ⟨⟨n, hn, .inl rfl⟩, n, hn, .inr (.inl rfl)⟩ hn

variable (hw : swf resetWord s.regs = true) (hb : b < 16)
include hw hb

theorem causeSet_flag : (causeSet k b o s).flag k b = true ∧ (causeSet k b o s).flag k (16 + b) = true := by
  have h1 : swf resetWord (s.setFlag k b true).regs = true := State.swf_setReg s _ _ hw
  have hemit (i : Nat) : (causeSet k b o s).flag k i = ((s.setFlag k b true).setFlag k (16 + b) true).flag k i :=
    State.flag_of_reg (State.reg_emit ..) i
  rw [hemit, hemit, State.flag_setFlag_same _ _ _ _ h1 (by omega), State.flag_setFlag_beside _ _ _ _ _ h1 (by omega),
    State.flag_setFlag_same s _ _ _ hw (by omega)]
  exact ⟨rfl, rfl⟩

/-- Holding a cause that is not present: what of the cause's register, of the event and of the outputs follows. -/
theorem holdCause_holds (hf : s.fenced .safe = false) (hp : s.flag k (16 + b) = false) (hl : ∀ m ∈ l, m < 128)
    (hk : k < 0x30100) (hmode : ∀ n, k ≠ chA n 0) (hheld : ∀ n ∈ l, ∀ u : State, u.flag k b = true → u.heldOn n ≠ 0) :
    let t := holdCause k b o l s
    t.flag k b = true ∧ t.flag k (16 + b) = true ∧ { cls := .safeEnter, obj := o, det := [fcause b] } ∈ t.evNew ∧
    ∀ n ∈ l, isOut (s.mode n) = true → t.chst n ≠ 0 := by
  rw [holdCause_eq hf hp]
  have hmoves := moves_scope l (causeSet k b o s)
  have hnot : ¬ safeReg l k := fun h => by have := safeReg_ge h; omega
  obtain ⟨hheldBit, hpresent⟩ := causeSet_flag (o := o) (k := k) hw hb
  have hset : swf resetWord (causeSet k b o s).regs = true := State.swf_setReg _ _ _ (State.swf_setReg s _ _ hw)
  refine ⟨(hmoves.flag hnot _).trans hheldBit, (hmoves.flag hnot _).trans hpresent, hmoves.event ?_, fun n hn hout => ?_⟩
  · exact List.mem_append_right _ (List.mem_singleton.2 rfl)
  · have hmodes : (causeSet k b o s).mode n = s.mode n :=
      State.fld_of_reg ((State.reg_setFlag_other _ k _ _ _ (hmode n).symm).trans (State.reg_setFlag_other s k _ _ _ (hmode n).symm)) ..
    have hcalls : (causeSet k b o s).calls n := ⟨by rw [hmodes]; exact hout, hheld n hn _ hheldBit⟩
    have henter := forAll_enterSafe_chst (hl n hn) hl hset hcalls (.inl hn)
    have hgates := (Moves.refl (K := fun j => ∃ m ∈ l, gateReg m j) (C := (· ∈ l)) (forAll l enterSafe (causeSet k b o s))).trans
      (moves_gates (forAll l enterSafe) l (causeSet k b o s) (fun m hm j hj => ⟨m, hm, hj⟩) fun _ => id)
    rw [State.chst, hgates.fld (fun ⟨m, hm, h⟩ => not_gateReg_aChst (hl n hn) (hl m hm) h)]
    exact henter

omit hw hb in
theorem fld_ne_zero_of_flag {u : State} {j i w : Nat} (hi : i < w) (h : u.flag j i = true) : u.fld j 0 w ≠ 0 := fun h0 => by
  have ht := testBit_bits (u.reg j) 0 w i
  rw [State.fld] at h0
  rw [h0, Nat.zero_testBit, decide_eq_true hi, Nat.zero_add, Bool.true_and] at ht
  rw [State.flag, bit] at h
  rw [h] at ht
  exact absurd ht (by decide)

end

theorem mem_grpChans {n g : Nat} : n ∈ grpChans g ↔ n / 16 = g := by
  simp only [grpChans, List.mem_map, List.mem_range]
  constructor
  · rintro ⟨i, hi, rfl⟩
    omega
  · intro h
    exact ⟨n % 16, by omega, by omega⟩

theorem mem_chans {s : State} {n : Nat} : n ∈ s.chans ↔ n < s.member.channels := List.mem_range

theorem channels_le (m : Member) : m.channels ≤ 128 := by
  have := groups_le m
  unfold Member.channels
  omega

end Sys2Proof.Machine

open Sys2Proof Sys2Proof.Machine

/-- Settles O15: the cause's bits and event stand before the channels enter, and what the channels' entry writes is their own. -/
theorem causesHeld : Obligations.CausesHeld := by
  intro b s hwf hf hb
  have hw := Memory.wf_regs hwf
  have hchans : ∀ m ∈ s.chans, m < 128 := fun m hm => (mem_chans.1 hm).trans_le (channels_le _)
  refine ⟨fun hp => ?dev, fun g hg hp => ?grp⟩
  case dev =>
    obtain ⟨hheld, hpres, hev, hsafe⟩ := holdCause_holds (o := .dev) hw hb hf hp hchans (by decide)
      (fun n he => absurd he (by have := chA_ge n 0; omega))
      (fun n _ u hu => fun h => fld_ne_zero_of_flag hb hu (by rw [State.heldOn] at h; exact (Nat.or_eq_zero_iff.1 (Nat.or_eq_zero_iff.1 h).1).1))
    refine ⟨hheld, hpres, hev, fun n hn => hsafe n (mem_chans.2 hn), fun k hk hrest => ?_⟩
    refine (moves_holdCause 0x30004 b .dev s.chans s).reg k ?_
    rintro (h | ⟨n, hn, h⟩)
    · exact hk h
    · obtain ⟨h1, h2, h3⟩ := hrest n (mem_chans.1 hn)
      exact h.elim h1 (·.elim h2 h3)
  case grp =>
    have hg8 : g < 8 := hg.trans_le (groups_le _)
    have hl : ∀ m ∈ grpChans g, m < 128 := fun m hm => by have := mem_grpChans.1 hm; omega
    obtain ⟨hheld, hpres, hev, hsafe⟩ := holdCause_holds (o := .grp g) hw hb hf hp hl (by unfold aSafeGrp; omega)
      (fun n he => absurd he (by have := chA_ge n 0; unfold aSafeGrp; omega))
      (fun n hn u hu => fun h => fld_ne_zero_of_flag hb (mem_grpChans.1 hn ▸ hu)
        (by rw [State.heldOn] at h; exact (Nat.or_eq_zero_iff.1 (Nat.or_eq_zero_iff.1 h).1).2))
    refine ⟨hheld, hpres, hev, fun n hn => hsafe n (mem_grpChans.2 hn), fun k hk hrest => ?_⟩
    refine (moves_holdCause (aSafeGrp g) b (.grp g) (grpChans g) s).reg k ?_
    rintro (h | ⟨n, hn, h⟩)
    · exact hk h
    · obtain ⟨h1, h2, h3⟩ := hrest n (mem_grpChans.1 hn)
      exact h.elim h1 (·.elim h2 h3)
end

section
/-!
PROOFS. The fencing of a unit (R45, R48, R309), and the reset sources and supplies (R34, R35, R55, R61, R70).
-/
namespace Sys2Proof.Machine

/-! ### Meanings of one condition -/

theorem becomes_if {c : Instr} {s a b : State} {p : Prop} [Decidable p] (he : exec c s = done (if p then a else b)) (h : p) :
    Becomes c s a := becomes_done (he.trans (congrArg done (if_pos h)))

theorem becomes_else {c : Instr} {s a b : State} {p : Prop} [Decidable p] (he : exec c s = done (if p then a else b)) (h : ¬ p) :
    Becomes c s b := becomes_done (he.trans (congrArg done (if_neg h)))

/-! ### What the fencing of a unit leaves -/

/-- From s to t the SYS registers, the timestamp and the floor stay, crawl mode is not left, and what was raised stands. -/
structure KeepsSys (s t : State) : Prop where
  reg    : ∀ k, k < 0x100 → t.reg k = s.reg k
  events : ∀ x ∈ s.evNew, x ∈ t.evNew
  ts     : t.clk.ts = s.clk.ts
  floor  : t.sup.floor = s.sup.floor
  crawl  : s.sup.crawl = true → t.sup.crawl = true

namespace KeepsSys
variable {s t : State}

theorem refl (s : State) : KeepsSys s s := ⟨fun _ _ => rfl, fun _ => id, rfl, rfl, id⟩

theorem trans {u : State} (h : KeepsSys s t) (g : KeepsSys t u) : KeepsSys s u :=
  ⟨fun k hk => (g.reg k hk).trans (h.reg k hk), fun x => g.events x ∘ h.events x, g.ts.trans h.ts, g.floor.trans h.floor,
    g.crawl ∘ h.crawl⟩

theorem ite {a b : State} {c : Prop} [Decidable c] (ha : KeepsSys s a) (hb : KeepsSys s b) :
    KeepsSys s (if c then a else b) := by
  split
  · exact ha
  · exact hb

theorem foldl {β : Type _} {f : State → β → State} (l : List β) (h : KeepsSys s t) (hf : ∀ x u, KeepsSys u (f u x)) :
    KeepsSys s (l.foldl f t) := by
  induction l generalizing t with
  | nil => exact h
  | cons x l ih => exact ih (h.trans (hf x t))

theorem forAll {f : Nat → State → State} (l : List Nat) (h : KeepsSys s t) (hf : ∀ n u, KeepsSys u (f n u)) :
    KeepsSys s (forAll l f t) := h.foldl l fun u n => hf u n

end KeepsSys

theorem Moves.keepsSys {K C : Nat → Prop} {s t : State} (h : Moves K C s t) (hK : ∀ k, K k → 0x100 ≤ k) : KeepsSys s t :=
  ⟨fun k hk => h.reg k fun hc => by have := hK k hc; omega, fun _ => h.event, congrArg Clk.ts h.rest.clk,
    congrArg Sup.floor h.rest.sup, fun hc => (congrArg Sup.crawl h.rest.sup).trans hc⟩

theorem gateReg_ge {n k : Nat} (h : gateReg n k) : 0x100 ≤ k := by
  rcases h with rfl | rfl
  · have := aStat_ge n; omega
  · unfold aSafeCh; omega

namespace KeepsSys

section
variable {s t : State} (h : KeepsSys s t)
include h

theorem setReg (k : Nat) (v : Word) (hk : 0x100 ≤ k) : KeepsSys s (t.setReg k v) :=
  h.trans ((moves_setReg (K := (· = k)) (C := noReg) t k v rfl).keepsSys fun _ hj => hj ▸ hk)

theorem setFlag (k i : Nat) (b : Bool) (hk : 0x100 ≤ k) : KeepsSys s (t.setFlag k i b) := h.setReg k _ hk

theorem stat (n i : Nat) (b : Bool) : KeepsSys s (t.setFlag (aStat n) i b) := h.setFlag _ _ _ (by have := aStat_ge n; omega)
theorem gstat (g i : Nat) (b : Bool) : KeepsSys s (t.setFlag (aGstat g) i b) :=
  h.setFlag _ _ _ (by have := grA_ge g 0; unfold aGstat; omega)

theorem emit (c : Ev) (o : Obj) (d : List Fld) : KeepsSys s (t.emit c o d) :=
  h.trans ⟨fun _ _ => rfl, fun _ hx => List.mem_append_left _ hx, rfl, rfl, id⟩

theorem setCh (n : Nat) (a : ChanAux) : KeepsSys s (t.setCh n a) := h.trans ⟨fun _ _ => rfl, fun _ => id, rfl, rfl, id⟩
theorem setGr (g : Nat) (a : GrpAux) : KeepsSys s (t.setGr g a) := h.trans ⟨fun _ _ => rfl, fun _ => id, rfl, rfl, id⟩
theorem withChrys (c : Chrys) : KeepsSys s { t with chrys := c } := h.trans ⟨fun _ _ => rfl, fun _ => id, rfl, rfl, id⟩
theorem endDisc : KeepsSys s t.endDisc := h.trans ⟨fun _ _ => rfl, fun _ => id, rfl, rfl, id⟩

theorem record (kind src flag : Nat) (p : List Word) : KeepsSys s (t.record kind src flag p) := by
  have hr := (Stays.refl none noReg t).record kind src flag p
  refine h.trans ⟨fun k hk => hr.reg k id (ioKey_sys _ _ (by omega)), fun x hx => ?_, congrArg Clk.ts hr.clk,
    congrArg Sup.floor hr.sup, fun hc => (congrArg Sup.crawl hr.sup).trans hc⟩
  rwa [record_evNew]

theorem send (e : Ep) (x : TxItem) : KeepsSys s (t.send e x) := by
  cases e <;> exact h.trans ⟨fun _ _ => rfl, fun _ => id, rfl, rfl, id⟩

theorem boot (b : Boot) : KeepsSys s (t.boot b) := h.send ..

theorem withSup (c : Sup) (hf : c.floor = t.sup.floor) (hc : t.sup.crawl = true → c.crawl = true) :
    KeepsSys s { t with sup := c } := h.trans ⟨fun _ _ => rfl, fun _ => id, rfl, hf, hc⟩

theorem ringOff (c : Nat) : KeepsSys s (ringOff c t) := by
  have hst : KeepsSys s (t.setFld (rgA c 0) 0 8 0) := h.setReg _ _ (by unfold rgA; omega)
  exact .ite hst.endDisc hst

theorem holdCh (b n : Nat) : KeepsSys s (holdCh b n t) :=
  h.trans ((moves_holdCh b n t).keepsSys fun _ hk => by have := safeReg_ge hk; omega)

end

variable {s t : State}

/-- A change and what follows the output selector after it. -/
theorem withGates {f : State → State} (l : List Nat) (h : KeepsSys s (f t)) : KeepsSys s (withGates l f t) :=
  h.trans ((moves_gates (K := fun k => ∃ n, gateReg n k) (C := fun _ => True) f l t (fun n _ _ hk => ⟨n, hk⟩)
    fun _ _ => trivial).keepsSys fun _ ⟨_, hk⟩ => gateReg_ge hk)

section
variable (h : KeepsSys s t)
include h

theorem endHold (n : Nat) : KeepsSys s (endHold n t) := withGates [n] (h.setCh n _)

theorem holdFence (l : List Nat) : KeepsSys s (holdFence l t) :=
  h.forAll l fun n u => .ite ((refl u).holdCh 13 n) (.refl u)

theorem latchAlone (g : Nat) : KeepsSys s (latchAlone g t) :=
  .ite h (withGates _ (KeepsSys.gstat (KeepsSys.setGr (h.forAll _ fun n u => (refl u).setCh n _) ..) ..))

theorem stopLinks : KeepsSys s (stopLinks t) :=
  ((h.forAll _ fun g u => ((refl u).latchAlone g).gstat ..).ringOff 0).ringOff 1

theorem setStale (l : List Nat) : KeepsSys s (setStale l t) := h.forAll l fun n u => by
  have hst := (refl u).setFlag (chA n 0x84) 16 true (by have := chA_ge n 0x84; omega)
  exact .ite (hst.stat ..) hst

theorem revokeFire (n : Nat) : KeepsSys s (revokeFire n t) := by
  unfold Machine.revokeFire
  split
  · exact h
  · refine .foldl _ ((h.setCh ..).setReg _ _ (by have := chA_ge n 0x64; omega)) fun x u => ?_
    extract_lets v w
    have hv : KeepsSys u v := ((refl u).setReg _ _ (by unfold skA; omega)).record ..
    have hw : KeepsSys u w := .ite (hv.emit ..) hv
    split
    · exact .ite (hw.endHold ..) hw
    · exact hw

theorem skipLost (g : Nat) : KeepsSys s (skipLost g t) :=
  (h.forAll _ fun n u => (refl u).revokeFire n).forAll _ fun n u => (refl u).endHold n

theorem loadLatch (g : Nat) : KeepsSys s (loadLatch g t) := .ite (h.forAll _ fun n u => (refl u).setCh n _) h

/-- What a fenced unit stops (Table 2.8). -/
theorem fenceStops (u : Un) : KeepsSys s (fenceStops u t) := by
  have ha (g o : Nat) (v : State) (hv : KeepsSys s v) (x : Word) : KeepsSys s (v.setReg (grA g o) x) :=
    hv.setReg _ _ (by have := grA_ge g o; omega)
  cases u with
  | skip =>
    refine KeepsSys.forAll _ (h.forAll _ fun n v => ?_) fun n v => (refl v).endHold n
    split
    · exact .setCh (.foldl _ (.refl v) fun x w => (refl w).record ..) n _
    · exact .refl v
  | ring0 => exact h.ringOff 0
  | ring1 => exact h.ringOff 1
  | shadow => exact (h.ringOff 0).ringOff 1
  | trail => exact h.withChrys _
  | chrys => exact h.withChrys _
  | grp g k =>
    cases k with
    | sar => exact (ha g _ _ (ha g _ _ h _) _).gstat ..
    | temp => exact (ha g _ _ h _).gstat ..
    | link => exact (((h.latchAlone g).gstat ..).skipLost g).setStale _
    | di => exact (h.forAll _ fun n v => (refl v).revokeFire n).setStale _
    | _ => exact h
  | _ => exact h

end

end KeepsSys

/-! ### Crawl mode -/

/-- The part as it enters crawl mode, before it sends its lines (R48). -/
def crawlState (s : State) : State :=
  let t := stopLinks { s with
    sup := { s.sup with crawl := true, pllLock := false }
    clk := { s.clk with frac := 0, slew := 0, slewing := false, disc := false }
    chrys := { s.chrys with run := false } }
  t.setReg 0x20000 t.crawlCfg

/-- The lines of the entry into crawl mode (R42): the held S2 line and the crawl line. -/
def crawlLines (u : Un) (t : State) : State :=
  State.boot (.crawl u) (if t.sup.s2Held then { t.boot .s2 with sup := { t.sup with s2Held := false } } else t)

theorem enterCrawl_eq (u : Un) {s : State} (h : s.sup.crawl = false) : enterCrawl u s = crawlLines u (crawlState s) := by
  unfold enterCrawl
  rw [if_neg (by simp [h])]
  rfl

theorem boot_sup (b : Boot) (t : State) : (t.boot b).sup = t.sup := rfl

theorem keepsSys_crawlLines (u : Un) (t : State) : KeepsSys t (crawlLines u t) := by
  have hs2 := ((KeepsSys.refl t).boot .s2).withSup { t.sup with s2Held := false } (by rw [boot_sup]) (by rw [boot_sup]; exact id)
  exact KeepsSys.boot (.ite hs2 (.refl t)) _

theorem keepsSys_crawlState (s : State) : KeepsSys s (crawlState s) ∧ (crawlState s).sup.crawl = true := by
  have hset : ∀ v, KeepsSys s v → v.sup.crawl = true → KeepsSys s ((stopLinks v).setReg 0x20000 (stopLinks v).crawlCfg) ∧
      ((stopLinks v).setReg 0x20000 (stopLinks v).crawlCfg).sup.crawl = true := fun v hv hc =>
    ⟨hv.stopLinks.setReg _ _ (by decide), ((KeepsSys.refl v).stopLinks.setReg 0x20000 _ (by decide)).crawl hc⟩
  exact hset _ ⟨fun _ _ => rfl, fun _ => id, rfl, rfl, fun _ => rfl⟩ rfl

theorem KeepsSys.enterCrawl {s t : State} (h : KeepsSys s t) (u : Un) : KeepsSys s (enterCrawl u t) := by
  by_cases hc : t.sup.crawl = true
  · rw [Machine.enterCrawl, if_pos hc]
    exact h
  · rw [enterCrawl_eq u (by simpa using hc)]
    exact (h.trans (keepsSys_crawlState t).1).trans (keepsSys_crawlLines ..)

theorem enterCrawl_crawl (u : Un) (s : State) : (enterCrawl u s).sup.crawl = true := by
  by_cases hc : s.sup.crawl = true
  · rwa [enterCrawl, if_pos hc]
  · rw [enterCrawl_eq u (by simpa using hc)]
    exact (keepsSys_crawlLines ..).crawl (keepsSys_crawlState s).2

/-! ### Fencing a unit -/

/-- The event of a unit that a run-time check fences (R309). -/
def fencedEvent (u : Un) : Event := { cls := .unitFenced, obj := .unit u, det := [{ val := .un u }] }

/-- A unit with a bit of SYS.FENCE or SYS.GFENCE, fenced by a run-time check and what goes with it stopped. -/
def unitStopped (u : Un) (a b : Nat) (s : State) : State :=
  fenceStops u ((withGates ((s.record 0x07 u.fenceSrc 0 []).unitChans u) (fun t => t.setFlag a b true)
    (s.record 0x07 u.fenceSrc 0 [])).emit .unitFenced (.unit u) [{ val := .un u }])

/-- What follows for the channels of the unit: FENCE, and the latch of its group. -/
def unitHeld (u : Un) (t : State) : State :=
  let v := if u = .safe then t else holdFence (t.unitChans u) t
  match u with
  | .grp g _ => loadLatch g v
  | _ => v

theorem fenceUnit_eq {u : Un} {a b : Nat} {s : State} (hu : u.fenceBit = some (a, b)) (hh : s.hasUnit u = true)
    (hf : s.fenced u = false) : fenceUnit true u s =
      if u = .pll ∨ u = .fabric ∨ u = .safe then enterCrawl u (unitHeld u (unitStopped u a b s))
      else unitHeld u (unitStopped u a b s) := by
  unfold fenceUnit
  rw [if_neg (by simp [hf, hh])]
  cases u <;> cases hu <;> rfl

theorem KeepsSys.unitHeld {s t : State} (h : KeepsSys s t) (u : Un) : KeepsSys s (unitHeld u t) := by
  unfold Machine.unitHeld
  have hv : KeepsSys s (if u = .safe then t else Machine.holdFence (t.unitChans u) t) := .ite h (h.holdFence _)
  cases u with
  | grp g k => exact hv.loadLatch g
  | _ => exact hv

theorem fenceBit_lt {u : Un} {a b : Nat} {s : State} (hu : u.fenceBit = some (a, b)) (hh : s.hasUnit u = true) :
    a < 0x100 ∧ b < 32 := by
  cases u with
  | grp g k =>
    cases hu
    have hg : g < s.member.groups := by simpa [State.hasUnit] using hh
    have := groups_le s.member
    exact ⟨by omega, by cases k <;> decide⟩
  | _ => cases hu <;> decide

/-- The bit stands, the event is raised and the timestamp goes on, once what the unit drives has been stopped. -/
theorem unitStopped_sets {u : Un} {a b : Nat} {s : State} (hw : swf resetWord s.regs = true) (ha : a < 0x100) (hb : b < 32) :
    (unitStopped u a b s).flag a b = true ∧ fencedEvent u ∈ (unitStopped u a b s).evNew ∧
      (unitStopped u a b s).clk.ts = s.clk.ts := by
  have hrec := (Stays.refl none noReg s).record 0x07 u.fenceSrc 0 []
  have hset := State.flag_setFlag_same (s.record 0x07 u.fenceSrc 0 []) a b true (hrec.canon hw) hb
  unfold unitStopped
  generalize s.record 0x07 u.fenceSrc 0 [] = r at hrec hset ⊢
  have hgates := KeepsSys.withGates (t := r) (f := fun t => t.setFlag a b true) (r.unitChans u) (.refl _)
  have hstops := KeepsSys.fenceStops (.refl ((withGates (r.unitChans u) (fun t => t.setFlag a b true) r).emit .unitFenced (.unit u)
    [{ val := .un u }])) u
  refine ⟨?flag, hstops.events _ (List.mem_append_right _ (List.mem_singleton.2 rfl)), ?ts⟩
  case flag => exact (State.flag_of_reg ((hstops.reg a ha).trans (hgates.reg a ha)) b).trans hset
  case ts => exact (hstops.ts.trans hgates.ts).trans (congrArg Clk.ts hrec.clk)

theorem fenceUnit_fences {u : Un} {a b : Nat} {s : State} (hw : swf resetWord s.regs = true) (hu : u.fenceBit = some (a, b))
    (hh : s.hasUnit u = true) (hf : s.fenced u = false) :
    (fenceUnit true u s).flag a b = true ∧ fencedEvent u ∈ (fenceUnit true u s).evNew ∧
      ((u = .pll ∨ u = .fabric ∨ u = .safe) → (fenceUnit true u s).sup.crawl = true) ∧ (fenceUnit true u s).clk.ts = s.clk.ts := by
  obtain ⟨ha, hb⟩ := fenceBit_lt hu hh
  obtain ⟨hflag, hev, hts⟩ := unitStopped_sets (u := u) hw ha hb
  have hheld := KeepsSys.unitHeld (.refl (unitStopped u a b s)) u
  rw [fenceUnit_eq hu hh hf]
  have hend : KeepsSys (unitStopped u a b s) (if u = .pll ∨ u = .fabric ∨ u = .safe then
      enterCrawl u (unitHeld u (unitStopped u a b s)) else unitHeld u (unitStopped u a b s)) := .ite (hheld.enterCrawl u) hheld
  refine ⟨(State.flag_of_reg (hend.reg a ha) b).trans hflag, hend.events _ hev, fun hc => ?_, hend.ts.trans hts⟩
  rw [if_pos hc]
  exact enterCrawl_crawl ..

/-- A failed CP0 is the floor (R26). -/
theorem fenceUnit_cp0 {s : State} (hf : s.sup.floor = false) :
    (fenceUnit true .cp0 s).sup.floor = true ∧ fencedEvent .cp0 ∈ (fenceUnit true .cp0 s).evNew := by
  have heq : fenceUnit true .cp0 s = enterFloor (holdFence s.chans
      { (s.record 0x07 Un.cp0.fenceSrc 0 []).emit .unitFenced (.unit .cp0) [{ val := .un .cp0 }] with
        sup := { (s.record 0x07 Un.cp0.fenceSrc 0 []).sup with floor := true } }) := by
    unfold fenceUnit
    have hcp0 : s.fenced .cp0 = false := hf
    rw [if_neg (by simp [hcp0, State.hasUnit])]
    rfl
  rw [heq]
  have hfence := KeepsSys.holdFence (.refl { (s.record 0x07 Un.cp0.fenceSrc 0 []).emit .unitFenced (.unit .cp0)
      [{ val := .un .cp0 }] with sup := { (s.record 0x07 Un.cp0.fenceSrc 0 []).sup with floor := true } }) s.chans
  generalize holdFence s.chans _ = t at hfence ⊢
  have hstop := KeepsSys.stopLinks (.refl { t with sup := { t.sup with floor := true }, chrys := { t.chrys with run := false } })
  refine ⟨hstop.floor, hstop.events _ (hfence.events _ ?_)⟩
  exact List.mem_append_right _ (List.mem_singleton.2 rfl)

end Sys2Proof.Machine

open Sys2Proof Sys2Proof.Machine

/-- Settles O8: each check that fails fences its unit, whose bit and event what the unit stops leaves alone. -/
theorem fencingUnits : Obligations.FencingUnits := by
  refine ⟨fun u s hd hc => ?check, fun u i s hd ha hu hh hf => ⟨?fail, ?pass⟩, fun s hr hb => ⟨?factory, ?good⟩,
    fun u a b s hwf hu hh hf => fenceUnit_fences (Memory.wf_regs hwf) hu hh hf, fun s hf => fenceUnit_cp0 hf⟩
  case check => exact becomes_if rfl (by simp [hd, hc])
  case fail =>
    have he : exec (.knownAnswerTest u false) s = done (if s.dead || s.asleep || s.fenced u || !s.hasUnit u then s
        else fenceUnit true u s) := by
      show execKnownAnswerTest u false s = _
      rw [execKnownAnswerTest, hu]
      rfl
    exact becomes_else he (by simp [hd, ha, hf, hh])
  case pass =>
    have he : exec (.knownAnswerTest u true) s = done (if s.dead || s.asleep || s.fenced u || !s.hasUnit u then s
        else { s with kat := sset 0 s.kat i s.clk.raw }) := by
      show execKnownAnswerTest u true s = _
      rw [execKnownAnswerTest, hu]
      rfl
    exact becomes_else he (by simp [hd, ha, hf, hh])
  case factory => exact becomes_if rfl (by simp [hr, hb])
  case good => exact becomes_else rfl (by simp)
end

section
/-!
PROOFS. The reset sources and the supplies (R34, R35, R55, R56, R61, R70, R186), and the start-up stages (R41).
-/
namespace Sys2Proof.Machine

/-! ### A store whose cells are reset -/

/-- What a store with a map over its cells reads as, the cells that became the default left out. -/
theorem sget_map_filter {α β : Type} [DecidableEq α] [DecidableEq β] (d : α) (e : β) (f : α → β) (hf : f d = e) (m : Sparse α) (k : Nat)
    (h : swf (fun _ => d) m = true) :
    sget e ((m.map fun c => (c.1, f c.2)).filter fun c => c.2 ≠ e) k = f (sget d m k) := by
  induction m with
  | nil => exact hf.symm
  | cons p m ih =>
    obtain ⟨i, v⟩ := p
    obtain ⟨-, habove, htail⟩ := (swf_cons (fun _ => d) i v m).1 h
    have hrest := ih htail
    rw [List.map_cons, sget]
    by_cases hk : i = k
    · subst hk
      rw [if_pos rfl]
      by_cases hv : f v = e
      · rw [List.filter_cons_of_neg (by simp [hv]), hrest, sget_above d m i habove, hf, hv]
      · rw [List.filter_cons_of_pos (by simp [hv]), sget, if_pos rfl]
    · rw [if_neg hk, ← hrest]
      by_cases hv : f v = e
      · rw [List.filter_cons_of_neg (by simp [hv])]
      · rw [List.filter_cons_of_pos (by simp [hv]), sget, if_neg hk]

/-! ### The latches at a reset (R61, R148) -/

theorem gr_congr {s t : State} (h : t.grp = s.grp) (g : Nat) : t.gr g = s.gr g := by rw [State.gr, State.gr, h]

theorem setActs_grp {s t : State} (g : Nat) (h : t.grp = s.grp) :
    ((t.setGr g { t.gr g with acts := true }).setFlag (aGstat g) 2 true).grp = sset {} s.grp g { s.gr g with acts := true } := by
  rw [gr_congr h, ← h]
  rfl

/-- A latch that begins to act changes that in its group, and no group beside. -/
theorem latchAlone_grp (g : Nat) {s : State} (hact : (!(s.gr g).vf || (s.gr g).acts) = false) :
    (latchAlone g s).grp = sset {} s.grp g { s.gr g with acts := true } := by
  rw [latchAlone, if_neg (by simp [hact])]
  refine (moves_gates (K := fun _ => True) (C := fun _ => True) _ (grpChans g) s (fun _ _ _ _ => trivial) fun _ _ => trivial).grp.trans ?_
  exact setActs_grp g ((Moves.refl (K := noReg) (C := fun _ => True) s).forAll _ fun n _ u => moves_setCh u n _ trivial).grp

/-- What a latch that acts alone leaves of the groups: their supplies, and the latches that act. -/
structure Latched (s t : State) : Prop where
  canon : swf (fun _ => ({} : GrpAux)) t.grp = true
  vf    : ∀ g, (t.gr g).vf = (s.gr g).vf
  acts  : ∀ g, (s.gr g).acts = true → (t.gr g).acts = true

theorem latched_latchAlone (g : Nat) {s : State} (hg : swf (fun _ => ({} : GrpAux)) s.grp = true) :
    Latched s (latchAlone g s) ∧ ((s.gr g).vf = true → ((latchAlone g s).gr g).acts = true) := by
  cases hact : (!(s.gr g).vf || (s.gr g).acts)
  · have hgrp := latchAlone_grp g hact
    have hgr (x : Nat) : (latchAlone g s).gr x = sget {} (sset {} s.grp g { s.gr g with acts := true }) x := by rw [State.gr, hgrp]
    have hsame := sget_sset_same (fun _ => ({} : GrpAux)) s.grp g { s.gr g with acts := true } hg
    refine ⟨⟨hgrp ▸ swf_sset (fun _ => ({} : GrpAux)) s.grp g _ hg, fun x => ?_, fun x hx => ?_⟩, fun _ => by rw [hgr, hsame]⟩
    · by_cases h : x = g
      · subst h; rw [hgr, hsame]
      · rw [hgr, sget_sset_other _ _ _ _ _ _ h]; rfl
    · by_cases h : x = g
      · subst h; rw [hgr, hsame]
      · rw [hgr, sget_sset_other _ _ _ _ _ _ h]; exact hx
  · have hsame : latchAlone g s = s := by rw [latchAlone, if_pos hact]
    rw [hsame]
    exact ⟨⟨hg, fun _ => rfl, fun _ => id⟩, fun hvf => by simpa [hvf] using hact⟩

/-- After the latches of a list the supplies stand, and the latch of every powered group of the list acts. -/
theorem forAll_latchAlone (l : List Nat) {s : State} (hg : swf (fun _ => ({} : GrpAux)) s.grp = true) :
    Latched s (forAll l latchAlone s) ∧ ∀ g ∈ l, (s.gr g).vf = true → ((forAll l latchAlone s).gr g).acts = true := by
  unfold forAll
  induction l generalizing s with
  | nil => exact ⟨⟨hg, fun _ => rfl, fun _ => id⟩, fun g hgl => absurd hgl List.not_mem_nil⟩
  | cons x l ih =>
    obtain ⟨⟨hcan, hvf, hacts⟩, hown⟩ := latched_latchAlone x hg
    obtain ⟨⟨hcan', hvf', hacts'⟩, hmem⟩ := ih hcan
    refine ⟨⟨hcan', fun g => (hvf' g).trans (hvf g), fun g h => hacts' g (hacts g h)⟩, fun g hgl h => ?_⟩
    rcases List.mem_cons.1 hgl with rfl | hgl
    · exact hacts' g (hown h)
    · exact hmem g hgl ((hvf g).trans h)

/-! ### Beginning a reset -/

theorem beginReset_free {b : Nat} {s : State} (h : s.sup.inReset = false) : beginReset b s = takeReset b s := by
  rw [beginReset, if_neg (by simp [h])]

theorem beginReset_held {b : Nat} {s : State} (h : s.sup.inReset = true) : beginReset b s = { s.setFlag 0x28 b true with
    sup := { s.sup with porHeld := s.sup.porHeld || decide (b ≤ 2), vdramKept := s.sup.vdramKept && decide (3 ≤ b) } } := by
  rw [beginReset, if_pos h]
  rfl

/-- The state whose latches have acted and whose records are written when a reset of source b wipes the system side. -/
def resetFrom (b : Nat) (s0 : State) : State :=
  let s := if b = 3 then s0.record 0x05 2 0 [] else s0
  let s := if b = 3 ∨ b = 4 then s.record 0x2F 0 0 [word b] else s
  forAll s.groups latchAlone s

theorem keepsSys_resetFrom (b : Nat) (s : State) : KeepsSys s (resetFrom b s) := by
  have h1 : KeepsSys s (if b = 3 then s.record 0x05 2 0 [] else s) := .ite ((KeepsSys.refl s).record ..) (.refl s)
  exact (KeepsSys.ite (h1.record ..) h1).forAll _ fun g u => (KeepsSys.refl u).latchAlone g

/-- SYS.RSTCAUSE is all that a reset writes: every other register reads as its table says (R55, R70). -/
theorem takeReset_reg (b : Nat) (s : State) (k : Nat) : (takeReset b s).reg k =
    if k = 0x28 then (if b = 0 then 1 else setBit (s.reg 0x28) b true) else resetWord k := by
  have hcause : (takeReset b s).regs = sset (resetWord 0x28) [] 0x28 (if b = 0 then 1 else setBit ((resetFrom b s).reg 0x28) b true) := rfl
  rw [State.reg, hcause, (keepsSys_resetFrom b s).reg 0x28 (by decide)]
  by_cases hk : k = 0x28
  · subst hk
    rw [if_pos rfl]
    exact sget_sset_same resetWord [] 0x28 _ rfl
  · rw [if_neg hk, sget_sset_other _ _ _ _ _ _ hk]
    rfl

theorem takeReset_gr (b : Nat) {s : State} (hg : swf (fun _ => ({} : GrpAux)) s.grp = true) {g : Nat} (hm : g < s.member.groups) :
    ((takeReset b s).gr g).vf = (s.gr g).vf ∧ ((s.gr g).vf = true → ((takeReset b s).gr g).acts = true) := by
  have hrec : ∀ (c : Prop) [Decidable c] kind src p (u : State), (if c then u.record kind src 0 p else u).grp = u.grp ∧
      (if c then u.record kind src 0 p else u).member = u.member := fun c _ kind src p u => by
    have h := (Stays.refl none noReg u).record kind src 0 p
    split
    · exact ⟨h.grp, h.member⟩
    · exact ⟨rfl, rfl⟩
  have hfrom : Latched s (resetFrom b s) ∧ ((s.gr g).vf = true → ((resetFrom b s).gr g).acts = true) := by
    unfold resetFrom
    extract_lets s1 s2
    have hgrp : s2.grp = s.grp := (hrec _ _ _ _ _).1.trans (hrec _ _ _ _ _).1
    have hmem : s2.member = s.member := (hrec _ _ _ _ _).2.trans (hrec _ _ _ _ _).2
    have hgr := gr_congr hgrp
    clear_value s2
    obtain ⟨⟨hcan, hvf, hacts⟩, hall⟩ := forAll_latchAlone s2.groups (hgrp ▸ hg)
    exact ⟨⟨hcan, fun x => (hvf x).trans (congrArg GrpAux.vf (hgr x)), fun x hx => hacts x ((hgr x).symm ▸ hx)⟩,
      fun hv => hall g (List.mem_range.2 (hmem ▸ hm)) ((hgr g).symm ▸ hv)⟩
  have hgr : (takeReset b s).gr g = ((resetFrom b s).gr g).reset :=
    sget_map_filter ({} : GrpAux) ({} : GrpAux) GrpAux.reset rfl (resetFrom b s).grp g hfrom.1.canon
  rw [hgr]
  exact ⟨hfrom.1.vf g, hfrom.2⟩

theorem takeReset_sup (b : Nat) (s : State) : (takeReset b s).sup.inReset = true ∧ (takeReset b s).sup.stage = 0 ∧
    (takeReset b s).sup.porHeld = decide (b ≤ 2) ∧ (takeReset b s).evq = [] ∧ (takeReset b s).cp0.tags = [] := ⟨rfl, rfl, rfl, rfl, rfl⟩

end Sys2Proof.Machine

open Sys2Proof Sys2Proof.Machine

/-- Settles O7: a source that begins a reset takes it, one that meets a reset writes its bit, and a reset's store holds
SYS.RSTCAUSE alone. -/
theorem resetsAndSupplies : Obligations.ResetsAndSupplies := by
  refine ⟨⟨fun s hr => ?begins, fun s hr => ?during, fun b s hb hwf => ?taken, fun s => ?power⟩, fun s => ?supplies⟩
  case begins =>
    refine ⟨fun h => ?_, fun h => ?_, fun h => ?_, fun h => becomes_else rfl (by simp [h])⟩
    · exact beginReset_free (b := 1) (s := { s with sup := { s.sup with vcoreOk := false } }) hr ▸ becomes_if rfl h
    · exact beginReset_free (b := 2) (s := { s with sup := { s.sup with vioOk := false } }) hr ▸ becomes_if rfl h
    · exact beginReset_free (b := 3) (s := { s with sup := { s.sup with resetLow := true } }) hr ▸ becomes_else rfl (by simp [h])
  case during =>
    refine ⟨fun h => ?_, fun h => ?_, fun h => ?_⟩
    · have hb := beginReset_held (b := 3) (s := { s with sup := { s.sup with resetLow := true } }) hr
      simp only [Nat.reduceLeDiff, decide_false, decide_true, Bool.or_false, Bool.and_true] at hb
      exact hb ▸ becomes_else rfl (by simp [h])
    · have hb := beginReset_held (b := 1) (s := { s with sup := { s.sup with vcoreOk := false } }) hr
      simp only [Nat.reduceLeDiff, decide_false, decide_true, Bool.or_true, Bool.and_false] at hb
      exact hb ▸ becomes_if rfl h
    · have hb := beginReset_held (b := 2) (s := { s with sup := { s.sup with vioOk := false } }) hr
      simp only [Nat.reduceLeDiff, decide_false, decide_true, Bool.or_true, Bool.and_false] at hb
      exact hb ▸ becomes_if rfl h
  case taken =>
    have hb0 : b ≠ 0 := by omega
    have htame := (Tame.refl s).takeReset b
    obtain ⟨hin, hst, hpor, hev, htags⟩ := takeReset_sup b s
    refine ⟨?_, fun k hk => ?_, hin, hst, hpor, hev, htags, takeReset_pwFails hb0 s, htame.member, htame.uid, htame.pending,
      fun g hg => takeReset_gr b (Memory.wf_grp hwf) hg⟩
    · rw [takeReset_reg, if_pos rfl, if_neg hb0]
    · rw [takeReset_reg, if_neg hk]
  case power => exact ⟨takeReset_reg 0 s 0x28, fun k hk => by rw [takeReset_reg, if_neg hk], rfl, rfl, rfl⟩
  case supplies =>
    refine ⟨fun ok h => becomes_else rfl (by simp [h]), fun ok h => becomes_else rfl (by simp [h]), fun h hd => ?lowDead,
      fun h hd => ?backDead, fun h hd => ?low, fun h hd => ?back⟩
    case lowDead => exact becomes_done (congrArg done ((if_neg (by simp [h])).trans (if_pos hd)))
    case backDead => exact becomes_done (congrArg done ((if_pos h).trans (if_pos hd)))
    case low =>
      have hmem := ((Stays.refl none noReg ({ s with sup := { s.sup with holdupLow := true } }.setFlag 0x2C 1 true)).record
        0x06 0 1 []).member
      have hchans := congrArg (fun m => List.range m.channels) hmem
      exact hchans ▸ becomes_done (congrArg done ((if_neg (by simp [h])).trans (if_neg (ne_true_of_eq_false hd))))
    case back => exact becomes_done (congrArg done ((if_pos h).trans (if_neg (ne_true_of_eq_false hd))))
end
section
namespace Sys2Proof.Machine

/-- A part at S3 whose register store is not canonical: it lists SYS.FENCE twice, the first time with what an unlisted key reads. -/
def doubledFence : State :=
  { State.reset with
    regs := [(0x30, 0), (0x30, 0x10001)]
    sup := { State.reset.sup with inReset := false, stage := 3, vdramOk := true } }

end Sys2Proof.Machine

open Sys2Proof Sys2Proof.Machine

/-- Refutes O6: its clause of a failed CP0 gives the contents of SYS.FENCE in every state, and not only over a canonical store. In
`doubledFence` SYS.FENCE reads 0 and no unit fails; storing that 0, the reset value, takes the first cell off the store, and the
register then reads the second. -/
theorem not_startStages : ¬ Obligations.StartStages := by
  unfold Obligations.StartStages
  intro h
  obtain ⟨-, -, -, -, -, -, -, -, -, hfloor, -⟩ := h doubledFence
  obtain ⟨t, hrun, -, -, hreg⟩ := hfloor { failed := 0, cp0 := true, bad := [] } rfl rfl
  have hnext : t = (enterFloor (forAll (List.range 7) (fun u v => { v with kat := sset 0 v.kat u v.clk.raw })
      (checkKept (loadTable [] (toStage 4
        (doubledFence.setReg 0x30 (doubledFence.reg 0x30 ||| doubledFence.failedUnits 0))))))).flush := by
    cases hrun
    rfl
  rw [hnext] at hreg
  exact absurd hreg (by decide)
end

section
/-!
PROOFS. The lines on a port, on time and on the event queue, and the lines that report (R65, R66, R84 to R87, R91, R130, R143, R144).
-/
namespace Sys2Proof.Machine

/-! ### A line that passes -/

section
variable {c : Instr} {ln : Line} {f : Form} {s v : State} {checks : State → List (Code × Bool)} {g : State → State}

/-- A line that passes, acts with g and answers ok. -/
theorem does_okay (he : exec c s = done (runLine ln f checks (okay g) s)) (hp : Passes ln f s) (hi : Inv s)
    (hc : ∀ u, Stays (some ln.ep) noReg s u → ∀ p ∈ checks u, p.2 = false) (hg : g (accepted ln f s) = v)
    (ht : (v.port ln.ep).tx = ((accepted ln f s).port ln.ep).tx) : Does c ln .ok s v := by
  subst hg
  exact does_passes he hp hi hc ht

/-- A line that passes and only reads. -/
theorem does_value {g : State → List Fld} {l : List Fld} (he : exec c s = done (runLine ln f checks (value g) s)) (hp : Passes ln f s)
    (hi : Inv s) (hc : ∀ u, Stays (some ln.ep) noReg s u → ∀ p ∈ checks u, p.2 = false) (hg : g (accepted ln f s) = l) :
    Does c ln (.vals l) s (accepted ln f s) := by
  subst hg
  exact does_passes he hp hi hc rfl

/-- What a line that only reads leaves and answers. -/
theorem Does.reads {l : List Fld} (h : Does c ln (.vals l) s (accepted ln f s)) :
    ∃ t, exec c s = .next t ∧ Answered ln (.vals l) s t ∧ Stays (some ln.ep) noReg s t := by
  obtain ⟨t, hrun, hans, hst, _⟩ := h
  exact ⟨t, hrun, hans, (Stays.accepted noReg ln f s).trans hst⟩

end

/-! ### What the reports read -/

section
variable {e : Option Ep} {s t : State} (h : Stays e noReg s t)
include h

theorem Stays.remote (x : Ep) : (t.port x).remote = (s.port x).remote := by
  by_cases hx : e = some x
  · obtain ⟨-, -, -, -, hremote, -⟩ := h.own x hx
    exact hremote
  · rw [h.port x hx]

theorem Stays.unlocked (x : Ep) : (t.port x).unlocked = (s.port x).unlocked := by
  by_cases hx : e = some x
  · exact (h.own x hx).1
  · rw [h.port x hx]

theorem Stays.locked (x : Ep) : t.locked x = s.locked x := by rw [State.locked, State.locked, h.pwSet, h.unlocked]

theorem Stays.effT : t.effT = s.effT := by
  unfold State.effT
  rw [h.sup, h.clk, h.reg 0x10010 id (ioKey_sys _ _ (by decide))]

theorem Stays.wdLeft : t.wdLeft = s.wdLeft := by unfold State.wdLeft; rw [h.wdog, h.wdPeriod id, h.clk]

theorem Stays.cfgFlag (x : Ep) (i : Nat) : t.flag (aCfg x) i = s.flag (aCfg x) i := State.flag_of_reg (h.reg _ id (ioKey_cfg e x)) i
theorem Stays.cfgFld (x : Ep) (lo w : Nat) : t.fld (aCfg x) lo w = s.fld (aCfg x) lo w := State.fld_of_reg (h.reg _ id (ioKey_cfg e x)) lo w

end

/-- The groups of the units that a line names exist. -/
theorem unitObj_passes {u : Un} {s : State} (h : ∀ g k, u = .grp g k → g < s.member.groups) : ∀ p ∈ unitObj u s, p.2 = false := by
  cases u with
  | grp g k =>
    have hg := h g k rfl
    have := groups_le s.member
    simp [unitObj, grObj, hg]
    omega
  | _ => simp [unitObj]

/-! ### The event queue -/

section
variable {s : State}

/-- The queue's entries up to and including the first with a sequence number. -/
theorem takeWhile_seq {a b : List EvEntry} {x : EvEntry} (h : ∀ y ∈ a, y.seq ≠ x.seq) :
    (a ++ x :: b).takeWhile (fun e => decide (e.seq.toNat ≠ x.seq.toNat)) = a := by
  rw [List.takeWhile_append_of_pos (fun y hy => by simpa [BitVec.toNat_inj] using h y hy)]
  simp

theorem takeWhile_none {l : List EvEntry} {n : Nat} (h : ∀ y ∈ l, y.seq.toNat ≠ n) :
    l.takeWhile (fun e => decide (e.seq.toNat ≠ n)) = l := by
  rw [List.takeWhile_eq_self_iff]
  exact fun y hy => by simpa using h y hy

theorem markFirst_append {ep : Ep} {a b : List EvEntry} {x : EvEntry} (ha : ∀ y ∈ a, y.sent ep = true) (hx : x.sent ep = false) :
    markFirst ep (a ++ x :: b) = a ++ x.mark ep :: b := by
  induction a with
  | nil => rw [List.nil_append, markFirst, if_neg (by simp [hx])]; rfl
  | cons y a ih =>
    rw [List.cons_append, markFirst, if_pos (ha y List.mem_cons_self), ih fun z hz => ha z (List.mem_cons_of_mem y hz)]
    rfl

theorem find_append {α : Type} {p : α → Bool} {a b : List α} {x : α} (ha : ∀ y ∈ a, p y = false) (hx : p x = true) :
    (a ++ x :: b).find? p = some x := by
  rw [List.find?_append, List.find?_eq_none.2 fun y hy => by simp [ha y hy]]
  simp [hx]

end

/-- What ev ack takes off the queue and answers. -/
def ackEffect (n : Nat) (t : State) : State × Resp :=
  let before := (t.evq.takeWhile fun e => decide (e.seq.toNat ≠ n)).length
  let k := if before < t.evq.length then before + 1 else 0
  ({ t with evq := t.evq.drop k }, .vals [kn "acked" k])

theorem ackEffect_found {t : State} {a b : List EvEntry} {x : EvEntry} (hq : t.evq = a ++ x :: b) (h : ∀ y ∈ a, y.seq ≠ x.seq) :
    ackEffect x.seq.toNat t = ({ t with evq := b }, .vals [kn "acked" (a.length + 1)]) := by
  have hdrop : (a ++ x :: b).drop (a.length + 1) = b := by simp
  unfold ackEffect
  dsimp only
  rw [hq, takeWhile_seq h, if_pos (by simp), hdrop]

theorem ackEffect_none {t : State} {n : Nat} (h : ∀ y ∈ t.evq, y.seq.toNat ≠ n) : ackEffect n t = (t, .vals [kn "acked" 0]) := by
  unfold ackEffect
  dsimp only
  rw [takeWhile_none h, if_neg (Nat.lt_irrefl _)]
  rfl

theorem port_withEvq (s : State) (q : List EvEntry) (e : Ep) : State.port { s with evq := q } e = s.port e := by cases e <;> rfl

/-- The taking of a line raises no event. -/
theorem accepted_idle {ln : Line} {f : Form} {s : State} (h : s.evNew = []) :
    Stays (some ln.ep) noReg s (accepted ln f s) ∧ (accepted ln f s).evNew = [] :=
  ⟨Stays.accepted noReg ln f s, ((Stays.accepted noReg ln f s).events h).1⟩

/-- A step of the time leaves the ports. -/
theorem stepTime_port (v : BitVec 64) (s : State) (e : Ep) : (s.stepTime v).port e = s.port e := by
  rw [State.stepTime]
  exact (by cases e <;> rfl : _ = (s.record 0x2A 0 0 (halves s.clk.ts ++ halves v)).port e).trans (State.record_port ..)

/-- A step of the time writes STEPPED, sets the timestamp, and reports the timestamp before it. -/
theorem stepTime_steps {s : State} (v : BitVec 64) (hw : swf resetWord s.regs = true) (h : s.evNew = []) :
    (s.stepTime v).clk = { s.clk with ts := v, frac := 0, slew := 0, slewing := false } ∧
    (s.stepTime v).reg 0x10000 = setBit (s.reg 0x10000) 7 true ∧
    (s.stepTime v).evNew = [{ cls := .timeStep, obj := .none, det := [fn s.clk.ts.toNat, fn v.toNat], own := some s.clk.ts }] ∧
    Stays none (· = 0x10000) (State.emit .timeStep .none [] { s with clk := (s.stepTime v).clk }) (s.stepTime v) := by
  have hr := (Stays.refl none noReg s).record 0x2A 0 0 (halves s.clk.ts ++ halves v)
  have hn := record_evNew 0x2A 0 0 (halves s.clk.ts ++ halves v) s
  rw [State.stepTime]
  generalize s.record 0x2A 0 0 (halves s.clk.ts ++ halves v) = u at hr hn
  have hc : u.clk = s.clk := hr.clk
  have hreg := hr.reg 0x10000 id (ioKey_sys _ _ (by decide))
  refine ⟨congrArg (fun c : Clk => { c with ts := v, frac := 0, slew := 0, slewing := false }) hc, ?_, congrArg (· ++ [_]) (hn.trans h), ?_⟩
  · exact (State.reg_setFlag_same _ _ _ _ (hr.canon hw)).trans (congrArg (setBit · 7 true) hreg)
  · have hset : Stays none (· = 0x10000) { s with clk := { u.clk with ts := v, frac := 0, slew := 0, slewing := false } }
        ({ u with clk := { u.clk with ts := v, frac := 0, slew := 0, slewing := false } }.setFlag 0x10000 7 true) :=
      ((hr.mono fun _ => False.elim).withClk _).setFlag _ _ _ (.inl rfl) (.inl (.inl (by decide)))
    exact { hset with events := fun a => absurd a (by simp [State.emit]) }

end Sys2Proof.Machine

open Sys2Proof Sys2Proof.Machine

/-- Settles O1: each setting is one field of the port's configuration register, written before the answer or after it. -/
theorem portSettings : Obligations.PortSettings := by
  intro ln p s hi hp hm
  have hk := ioKey_cfg (some ln.ep) (portEp p)
  have local_ (u : State) : ∀ p ∈ (Code.localonly, decide (ln.ep = .mail)) :: [], p.2 = false := by simp [hm]
  refine ⟨fun on => ?crc, fun on => ?events, fun on => ?stamp, fun gen => ?mode, fun rate hr => ?baud, fun q hq hlo hhi => ?mailto⟩
  case crc => exact okay_setReg hp hi _ (aCfg (portEp p)) (setBit · 1 on) hk fun u _ => local_ u
  case events => exact okay_setReg hp hi _ (aCfg (portEp p)) (setBit · 2 on) hk fun u _ => local_ u
  case stamp => exact okay_setReg hp hi _ (aCfg (portEp p)) (setBit · 3 on) hk fun u _ => local_ u
  case mode => exact okay_post hp hi _ (aCfg (portEp p)) (setBit · 0 gen) hk fun u _ => local_ u
  case baud =>
    exact okay_post hp hi _ (aCfg (portEp p)) (setBits · 4 3 (baudRates.idxOf rate)) hk fun u _ => by
      simp [hm, hr]
  case mailto =>
    exact okay_setReg hp hi _ (aCfg (portEp p)) (setBits · 16 16 (qSteps q .ms 1 1000000).toNat) hk fun u _ => by
      simp [hm, hq, outside, hlo, hhi]

/-- Settles O3: a report reads the state after the line was taken, whose values are those of the state before but for its port. -/
theorem queryLines : Obligations.QueryLines := by
  intro ln s hi
  refine ⟨fun hp => ⟨?status, ?fence, fun u hu => ?unit⟩, fun p hm hp => ?port, fun hp => ⟨?ev, ?wdog, ?time⟩⟩
  case status => exact value_acts hp hi _ _ fun u _ => by simp
  case fence => exact value_acts hp hi _ _ fun u _ => by simp
  case unit => exact value_acts hp hi _ _ fun v hv => unitObj_passes (hv.member ▸ hu)
  case port =>
    obtain ⟨t, hrun, hans, hst⟩ := value_acts hp hi (fun _ => (.localonly, decide (ln.ep = .mail)) :: []) _ fun u _ => by simp [hm]
    have ha := Stays.accepted noReg ln { locked := false, replay := false } s
    refine ⟨t, hrun, hst, ?_⟩
    dsimp only at hans ⊢
    simpa only [ha.cfgFlag, ha.cfgFld, ha.remote, ha.locked] using hans
  case ev =>
    obtain ⟨t, hrun, hans, hst⟩ := value_acts hp hi (fun _ => []) _ fun u _ => by simp
    refine ⟨t, hrun, hst, fun hq => ?_, fun x l hq => ?_⟩ <;> simpa only [accepted_evq, hq] using hans
  case wdog =>
    obtain ⟨t, hrun, hans, hst⟩ := value_acts hp hi (fun _ => []) _ fun u _ => by simp
    have ha := Stays.accepted noReg ln { locked := false } s
    refine ⟨t, hrun, hst, ?_⟩
    simpa only [ha.wdPeriod id, ha.wdLeft] using hans
  case time =>
    obtain ⟨t, hrun, hans, hst⟩ := value_acts hp hi (fun _ => []) _ fun u _ => by simp
    have ha := Stays.accepted noReg ln { locked := false } s
    refine ⟨t, hrun, hst, ?_⟩
    simp only [ha.clk, ha.effT, State.timeSrc, State.slewTicks, ha.sup] at hans ⊢
    exact hans

/-- Settles O5: ev ack drops the queue up to the first entry of its number, and a port sends the first entry that it has not sent. -/
theorem eventQueue : Obligations.EventQueue := by
  refine ⟨fun ln s hi hn hp => ⟨fun a x b hq hne => ?ack, fun n hn16 hne => ?none, ?clear⟩,
    fun ep s => ⟨fun a x b hm hs hr he hport hq ha hx => ?send, fun a x b hd hq hne => ?expiry⟩⟩
  case ack =>
    have hne' : ∀ y ∈ a, y.seq ≠ x.seq := hne
    obtain ⟨ha, hv⟩ := accepted_idle (ln := ln) (f := { locked := false }) hn
    have hfx := ackEffect_found (accepted_evq ln { locked := false } s ▸ hq) hne
    obtain ⟨t, hrun, hans, hst, -⟩ := does_passes (c := .evAck ln x.seq.toNat) (eff := ackEffect x.seq.toNat) rfl hp hi
      (fun u _ => by have := x.seq.isLt; simp; omega) (by rw [hfx]; exact congrArg Port.tx (port_withEvq ..))
    rw [hfx] at hans hst
    obtain ⟨-, hnext, hmap⟩ := hst.events hv
    exact ⟨t, hrun, hans, hmap, hnext.trans (ha.events hn).2.1, (ha.withEvq b).trans hst⟩
  case none =>
    have hfx := ackEffect_none (accepted_evq ln { locked := false } s ▸ hne)
    obtain ⟨t, hrun, hans, hst, -⟩ := does_passes (c := .evAck ln n) (eff := ackEffect n) rfl hp hi
      (fun u _ => by simp; omega) (by rw [hfx])
    rw [hfx] at hans hst
    exact ⟨t, hrun, hans, (Stays.accepted noReg ln _ s).trans hst⟩
  case clear =>
    obtain ⟨ha, hv⟩ := accepted_idle (ln := ln) (f := { locked := false }) hn
    obtain ⟨t, hrun, hans, hst, -⟩ := does_okay (c := .evClear ln) (g := fun t => { t with evq := [] }) rfl hp hi
      (fun u _ => by simp) rfl (congrArg Port.tx (port_withEvq ..))
    exact ⟨t, hrun, hans, List.map_eq_nil_iff.1 (hst.events hv).2.2, (ha.withEvq []).trans hst⟩
  case send =>
    have hc : ¬ (ep = .mail ∨ !s.serves ep ∨ s.replaying ∨ !s.flag (aCfg ep) 2 ∨
        (!s.generated ep ∧ ((s.port ep).typed ≠ [] ∨ (s.port ep).rx ≠ [] ∨ s.waiting ep))) := by
      rcases hport with hg | ⟨ht, hx, hw⟩ <;> simp [*]
    have hf : s.evq.find? (fun x => !x.sent ep) = some x := by
      rw [hq]
      exact find_append (fun y hy => by simp [ha y hy]) (by simp [hx])
    refine becomes_done (s := s) ?_
    rw [← markFirst_append ha hx, ← hq]
    change done (if _ then s else _) = _
    rw [if_neg hc, hf]
  case expiry =>
    have hf : (s.port ep).tags.find? (fun y => decide (y.tag = x.tag)) = some x := by
      rw [hq]
      exact find_append (fun y hy => by simpa using hne y hy) (by simp)
    have herase : (s.port ep).tags.erase x = a ++ b := by
      rw [hq, List.erase_append_right _ fun h => hne x h rfl, List.erase_cons_head]
    refine becomes_done (s := s) ?_
    change done (if s.dead = true then s else _) = _
    rw [if_neg (by simp [hd])]
    dsimp only
    rw [hf]
    exact congrArg (fun l => done (s.setPort ep { s.port ep with tags := l })) herase

/-- Settles O2: each command of the time is one change of the clock or of its trim, and a step and a finished slew report it. -/
theorem timeDiscipline : Obligations.TimeDiscipline := by
  refine ⟨fun ln s hi hp => ⟨fun n hr hn hnew => ?set, fun q hq hd => ?trim, fun q hq hd hv => ?slew⟩,
    fun s hdead hsleep hpll hsl hd hv hn => ?done⟩
  case set =>
    obtain ⟨ha, hv⟩ := accepted_idle (ln := ln) (f := {}) hnew
    obtain ⟨hclk, hreg, hev, hst⟩ := stepTime_steps (BitVec.ofNat 64 n) (ha.canon (Memory.wf_regs hi.1)) hv
    obtain ⟨t, hrun, hans, hgt, hq⟩ := does_okay (c := .timeSet ln n) (g := State.stepTime (BitVec.ofNat 64 n)) rfl hp hi
      (fun u hu => by simp [hu.ringLive, hr]; omega) rfl (congrArg Port.tx (stepTime_port ..))
    refine ⟨t, hrun, hans, ?_, ?_, ?_, ?_⟩
    · rw [hgt.clk, hclk, ha.clk]
    · rw [hgt.reg _ id (ioKey_sys _ _ (by decide)), hreg, ha.reg _ id (ioKey_sys _ _ (by decide))]
    · obtain ⟨x, hx, hxe⟩ := hq (by rw [hev]; exact Nat.succ_le_succ (Nat.zero_le _)) _ (hev ▸ List.mem_singleton_self _)
      exact ⟨x, hx, by rw [hxe, ha.clk, ← BitVec.toNat_ofNat]; exact ⟨rfl, rfl, rfl⟩⟩
    · rw [hgt.clk]
      exact (((ha.mono fun _ => False.elim).withClk _).emit_both ..).trans ((hst.line _).trans (hgt.mono fun _ => False.elim))
  case trim =>
    exact okay_setReg hp hi _ 0x10010 (fun _ => wordI (trimLimit (qSteps q .ppm (2 ^ 32) 1000000))) (ioKey_sys _ _ (by decide))
      fun u hu => by simp [hq, hu.clk, hd]
  case slew =>
    have ha := Stays.accepted noReg ln {} s
    obtain ⟨t, hrun, hans, hgt, -⟩ := does_okay (c := .timeSlew ln q) (g := startSlew (qSteps q .s 2 5)) rfl hp hi
      (fun u hu => by simp [hq, hu.clk, hd, outside]; omega) rfl (congrArg Port.tx (by cases ln.ep <;> rfl))
    have hc : t.clk = { s.clk with slewing := true, slew := qSteps q .s 2 5 * 2 ^ 32 } := hgt.clk.trans (by
      rw [startSlew, ha.clk])
    refine ⟨t, hrun, hans, hc, ?_⟩
    rw [startSlew, ha.clk] at hgt
    rw [hc]
    exact (ha.withClk _).trans hgt
  case done =>
    have he : s.slewEnds = true := by simp [State.slewEnds, *]
    obtain ⟨t, hrun, hst, hq⟩ := becomes_if (c := .slewComplete) (s := s) rfl he
    have hnew : (finishSlew s).evNew = [{ cls := .timeSlewed, obj := .none, det := [] }] := congrArg (· ++ [_]) hn
    obtain ⟨x, hx, hxe, -⟩ := hq (by rw [hnew]; decide) _ (hnew ▸ List.mem_singleton_self _)
    rw [finishSlew] at hst
    have hc := hst.clk
    refine ⟨t, hrun, ?_, ?_, ?_, ?_, ?_, ⟨x, hx, by rw [hxe]; exact ⟨rfl, rfl, rfl⟩⟩, hc ▸ hst⟩ <;> rw [hc] <;> rfl
end

section
/-!
PROOFS. The operations that a line acts with leave the ports, and the checks of the objects that a line names.
-/
namespace Sys2Proof.Machine

/-- From s to t no entry point has changed: nothing was sent, received or remembered. -/
structure Mute (s t : State) : Prop where
  cp0  : t.cp0 = s.cp0
  cp1  : t.cp1 = s.cp1
  mail : t.mail = s.mail

theorem Mute.port {s t : State} (h : Mute s t) (e : Ep) : t.port e = s.port e := by
  cases e
  · exact h.cp0
  · exact h.cp1
  · exact h.mail

theorem Regated.mute {s t : State} (h : Regated s t) : Mute s t := by
  obtain ⟨_, _, _, _, rfl⟩ := h
  exact ⟨rfl, rfl, rfl⟩

namespace Mute
variable {s t u : State}

theorem refl (s : State) : Mute s s := ⟨rfl, rfl, rfl⟩
theorem trans (h : Mute s t) (g : Mute t u) : Mute s u := ⟨g.cp0.trans h.cp0, g.cp1.trans h.cp1, g.mail.trans h.mail⟩

theorem ite {a b : State} {c : Prop} [Decidable c] (ha : Mute s a) (hb : Mute s b) : Mute s (if c then a else b) := by
  split
  · exact ha
  · exact hb

theorem foldl {β : Type _} {f : State → β → State} (l : List β) (h : Mute s t) (hf : ∀ x u, Mute u (f u x)) :
    Mute s (l.foldl f t) := by
  induction l generalizing t with
  | nil => exact h
  | cons x l ih => exact ih (h.trans (hf x t))

theorem forAll {f : Nat → State → State} (l : List Nat) (h : Mute s t) (hf : ∀ n u, Mute u (f n u)) :
    Mute s (forAll l f t) := h.foldl l fun u n => hf u n

theorem withGates {f : State → State} (l : List Nat) (h : Mute s (f t)) : Mute s (withGates l f t) :=
  h.foldl l fun n u => (regated_gateMoved t u n).mute

section
variable (h : Mute s t)
include h

/-! ### The writes -/

theorem setReg (k : Nat) (v : Word) : Mute s (t.setReg k v) := h.trans ⟨rfl, rfl, rfl⟩
theorem setFld (k lo w v : Nat) : Mute s (t.setFld k lo w v) := h.setReg ..
theorem setFlag (k i : Nat) (b : Bool) : Mute s (t.setFlag k i b) := h.setReg ..
theorem count (k : Nat) : Mute s (t.count k) := h.setReg ..
theorem setPair (k : Nat) (v : BitVec 64) : Mute s (t.setPair k v) := (h.setReg ..).setReg ..
theorem setCh (n : Nat) (a : ChanAux) : Mute s (t.setCh n a) := h.trans ⟨rfl, rfl, rfl⟩
theorem setGr (g : Nat) (a : GrpAux) : Mute s (t.setGr g a) := h.trans ⟨rfl, rfl, rfl⟩
theorem setRg (c : Nat) (a : RingAux) : Mute s (t.setRg c a) := h.trans ⟨rfl, rfl, rfl⟩
theorem emit (c : Ev) (o : Obj) (d : List Fld) : Mute s (t.emit c o d) := h.trans ⟨rfl, rfl, rfl⟩
theorem regated (g : Regated t u) : Mute s u := h.trans g.mute

theorem record (kind src flag : Nat) (p : List Word) : Mute s (t.record kind src flag p) :=
  have hp := State.record_port t kind src flag p
  h.trans ⟨hp .cp0, hp .cp1, hp .mail⟩

/-! ### Causes, latches and holds -/

theorem holdCause (k b : Nat) (o : Obj) (l : List Nat) : Mute s (holdCause k b o l t) := h.regated (regated_holdCause ..)
theorem holdCh (b n : Nat) : Mute s (holdCh b n t) := h.regated (regated_holdCh ..)
theorem dropCause (k b : Nat) (l : List Nat) : Mute s (dropCause k b l t) := h.regated (regated_dropCause ..)
theorem clearCause (k b : Nat) (o : Obj) : Mute s (clearCause k b o t) := h.regated (regated_clearCause ..)
theorem refreshFault (n : Nat) : Mute s (refreshFault n t) := h.regated (regated_refreshFault ..)
theorem enterSafe (n : Nat) : Mute s (enterSafe n t) := h.regated (regated_enterSafe ..)
theorem leaveSafe (n : Nat) : Mute s (leaveSafe n t) := h.regated (regated_leaveSafe ..)
theorem latchAlone (g : Nat) : Mute s (latchAlone g t) := h.regated (regated_latchAlone ..)

theorem holdFence (l : List Nat) : Mute s (holdFence l t) := h.forAll l fun n u => .ite ((refl u).holdCh 13 n) (.refl u)
theorem judgeFence (n : Nat) : Mute s (judgeFence n t) := .ite (h.holdCh ..) (h.dropCause ..)
theorem loadLatch (g : Nat) : Mute s (loadLatch g t) := .ite (h.forAll _ fun n u => (refl u).setCh n _) h
theorem endHold (n : Nat) : Mute s (endHold n t) := withGates [n] (h.setCh n _)

theorem endHoldsOf (k : Nat) : Mute s (endHoldsOf k t) := h.forAll _ fun n u => by
  split
  · exact .ite ((refl u).endHold n) (.refl u)
  · exact .refl u

theorem cfgErr (n : Nat) (b : Bool) : Mute s (cfgErr n b t) := .ite (h.setFlag ..) h
theorem chEvent (c : Ev) (n : Nat) : Mute s (chEvent c n t) := h.emit ..

theorem setStale (l : List Nat) : Mute s (setStale l t) := h.forAll l fun _ u =>
  .ite (((refl u).setFlag ..).setFlag ..) ((refl u).setFlag ..)

/-! ### Reflexes, groups and links -/

theorem revokeFire (n : Nat) : Mute s (revokeFire n t) := by
  unfold Machine.revokeFire
  split
  · exact h
  · refine .foldl _ ((h.setCh ..).count _) fun x u => ?_
    extract_lets v w
    have hw : Mute u w := .ite ((((refl u).count _).record ..).emit ..) (((refl u).count _).record ..)
    split
    · exact .ite (hw.endHold _) hw
    · exact hw

theorem skipLost (g : Nat) : Mute s (skipLost g t) :=
  (h.forAll _ fun n u => (refl u).revokeFire n).forAll _ fun n u => (refl u).endHold n

theorem rotLost (g : Nat) : Mute s (rotLost g t) := .ite ((h.setFld ..).setGr ..) h
theorem groupLost (g : Nat) : Mute s (groupLost g t) := ((h.skipLost g).setStale _).rotLost g
theorem supplyLost (g : Nat) : Mute s (supplyLost g t) := withGates _ (h.setGr ..)

theorem groupUnpowered (g : Nat) : Mute s (groupUnpowered g t) :=
  (((((((h.supplyLost g).setFlag ..).setFlag ..).emit ..).holdCause ..).groupLost g).setGr ..)

theorem trainOk (g : Nat) : Mute s (trainOk g t) := ((((h.setFlag ..).setFld ..).emit ..).clearCause ..).setGr ..

/-- The fencing of a link sends nothing: only the units that lead to crawl mode do (R48). -/
theorem fenceLink (g : Nat) : Mute s (fenceUnit true (.grp g .link) t) := by
  unfold fenceUnit
  refine .ite h ?_
  exact ((((((withGates _ ((h.record ..).setFlag ..)).emit ..).latchAlone g).setFlag ..).skipLost g).setStale _
    |>.holdFence _).loadLatch g

theorem attempt (g : Nat) (r : Train) : Mute s (attempt g r t) := by
  cases r with
  | success => exact h.trainOk g
  | failed => exact .ite (((h.setGr ..).setGr ..).fenceLink g) (h.setGr ..)
  | unanswered => exact .ite (h.groupUnpowered g) (h.setGr ..)

/-! ### Modes, safe values and output values -/

theorem expireHold (n : Nat) : Mute s (expireHold n t) := (withGates [n] (h.setFld ..)).chEvent ..

theorem safeChanged (n old : Nat) (v : BitVec 16) : Mute s (safeChanged n old v t) :=
  have hl := h.loadLatch (n / 16)
  .ite hl (.ite (.ite (hl.expireHold n) hl) (.ite (hl.setCh ..) (hl.setCh ..)))

theorem withSafe (n : Nat) {f : State → State} (hf : ∀ u, Mute u (f u)) : Mute s (withSafe n f t) :=
  withGates [n] ((h.trans (hf t)).safeChanged ..)

theorem checkKind (n : Nat) : Mute s (checkKind n t) :=
  .ite (h.withSafe n fun u => ((refl u).setFld ..).cfgErr ..) h

theorem refreshTarget (n : Nat) : Mute s (refreshTarget n t) := .ite (h.refreshFault _) h
theorem rotMode (n : Nat) : Mute s (rotMode n t) := .ite (h.setFld ..) h

theorem modeOff (n : Nat) : Mute s (modeOff n t) := by
  unfold Machine.modeOff
  extract_lets g t1 t2 t3 t4 t5 t6 t7 t8 t9 t10 t11 t12
  have h2 : Mute s t2 := withGates [n] (((h.revokeFire n).endHold n).setCh ..)
  have h7 : Mute s t7 := ((((((h2.setReg ..).setFlag ..).setReg ..).setReg ..).setReg ..).setReg ..).setFld ..
    |>.refreshTarget n |>.rotMode n
  have h8 : Mute s t8 := (h7.dropCause ..).dropCause ..
  have h9 : Mute s t9 := .ite (h8.judgeFence n) (h8.dropCause ..)
  exact ((((h9.checkKind n).setCh ..).leaveSafe n).enterSafe n).loadLatch g

theorem modeChanged (n : Nat) : Mute s (modeChanged n t) := by
  have h1 : Mute s (Machine.withGates [n] (fun t => t.setCh n { t.ch n with isApplied := false, applied := 0 }) t) :=
    withGates [n] (h.setCh ..)
  exact .ite (h.modeOff n) (.enterSafe (.leaveSafe (.ite (h1.holdFence _) (((h1.dropCause ..).dropCause ..).dropCause ..)) n) n)

theorem storeMode (n m : Nat) (w4 : Bool) : Mute s (storeMode n m w4 t) := by
  unfold Machine.storeMode
  extract_lets m0 w0 t1 p t2 moved t4 t3
  have h2 : Mute s t2 := .ite (((h.setFld ..).setFlag ..).setFlag ..) ((h.setFld ..).setFlag ..)
  have h3 : Mute s t3 :=
    .ite (.ite ((((h2.setFld ..).setFlag ..).setFlag ..).modeChanged p) (((h2.setFld ..).setFlag ..).setFlag ..)) h2
  exact .ite (h3.modeChanged n) h3

theorem setOut (n v : Nat) : Mute s (setOut n v t) := withGates [n] (h.setReg ..)

/-! ### Digital inputs, load switches and analogue loops -/

theorem slotValid (n : Nat) : Mute s (slotValid n t) := (((h.setCh ..).setFld ..).setFlag ..).setFlag ..
theorem takeLevel (n : Nat) : Mute s (takeLevel n t) := ((h.setCh ..).setFlag ..).slotValid n

theorem writeDiCfg (n : Nat) (v : Word) : Mute s (writeDiCfg n v t) :=
  ((Mute.ite ((h.setReg ..).cfgErr ..) (((h.setReg ..).cfgErr ..).setFlag ..)).setCh ..).takeLevel n

theorem writeDebounce (n v : Nat) : Mute s (writeDebounce n v t) := (h.setReg ..).cfgErr ..
theorem persist (n : Nat) : Mute s (persist n t) := .ite (h.trans ⟨rfl, rfl, rfl⟩) h
theorem restartSnap (n : Nat) : Mute s (restartSnap n t) := h.setCh ..
theorem endTrip (n : Nat) : Mute s (endTrip n t) := ((withGates [n] ((h.setFlag ..).setFlag ..)).setCh ..).refreshFault n
theorem tripClear (n : Nat) : Mute s (tripClear n t) := .ite (.ite ((h.endTrip n).chEvent ..) (h.setCh ..)) h
theorem writeAiCfg (n : Nat) (v : Word) : Mute s (writeAiCfg n v t) := (h.setReg ..).cfgErr ..
theorem writeAoDev (n : Nat) (v : Word) : Mute s (writeAoDev n v t) := ((h.setReg ..).cfgErr ..).refreshFault n
theorem writeAoRbchk (n : Nat) (v : Word) : Mute s (writeAoRbchk n v t) := (h.setReg ..).cfgErr ..

theorem rangeToggle (n b : Nat) : Mute s (rangeToggle n b t) := .ite (((h.setFlag ..).setFlag ..).chEvent ..) (h.setFlag ..)

theorem rangeAgain (n : Nat) : Mute s (rangeAgain n t) := by
  unfold Machine.rangeAgain
  extract_lets c due c' t1 t2
  have h2 : Mute s t2 := .ite ((h.setCh ..).rangeToggle ..) (h.setCh ..)
  exact .ite (h2.rangeToggle ..) h2

theorem writeAiDiag (n v : Nat) : Mute s (writeAiDiag n v t) := ((h.setReg ..).cfgErr ..).rangeAgain n

end

end Mute

/-! ### The objects that a line names -/

section
variable {s : State} {ch : ChRef}

theorem chObj_passes (hg : ch.g < s.member.groups) (hc : ch.c < 16) : ∀ p ∈ chObj ch s, p.2 = false := by
  have := groups_le s.member
  simp [chObj]
  omega

theorem grObj_passes {g : Nat} (hg : g < s.member.groups) : ∀ p ∈ grObj g s, p.2 = false := by
  have := groups_le s.member
  simp [grObj]
  omega

end

end Sys2Proof.Machine
end

section
/-!
PROOFS. The lines of groups, channels and digital inputs (R152, R160 to R165, R169 to R190, R247).
-/
namespace Sys2Proof.Machine

section
variable {c : Instr} {ln : Line} {f : Form} {s v : State} {checks : State → List (Code × Bool)} {g : State → State}

/-- A line that passes, acts with an operation that leaves the ports, and answers ok. -/
theorem does_acts (he : exec c s = done (runLine ln f checks (okay g) s)) (hp : Passes ln f s) (hi : Inv s)
    (hc : ∀ u, Stays (some ln.ep) noReg s u → ∀ p ∈ checks u, p.2 = false) (hg : g (accepted ln f s) = v)
    (ht : Mute (accepted ln f s) v) : Does c ln .ok s v :=
  does_okay he hp hi hc hg (congrArg Port.tx (ht.port ln.ep))

end

section
variable {e : Option Ep} {s t : State} (h : Stays e noReg s t)
include h

theorem Stays.chans : t.chans = s.chans := by unfold State.chans; rw [h.member]

theorem Stays.groups : t.groups = s.groups := by unfold State.groups; rw [h.member]
theorem Stays.fldChA (n o lo w : Nat) : t.fld (chA n o) lo w = s.fld (chA n o) lo w := State.fld_of_reg (h.regChA n o) ..
theorem Stays.flagChA (n o i : Nat) : t.flag (chA n o) i = s.flag (chA n o) i := State.flag_of_reg (h.regChA n o) _
theorem Stays.pairChA (n o : Nat) : t.pair (chA n o) = s.pair (chA n o) := congrArg₂ (· ++ ·) (h.regChA n (o + 4)) (h.regChA n o)
theorem Stays.fldGrA (g o lo w : Nat) : t.fld (grA g o) lo w = s.fld (grA g o) lo w := State.fld_of_reg (h.regGrA g o) ..
theorem Stays.flagGrA (g o i : Nat) : t.flag (grA g o) i = s.flag (grA g o) i := State.flag_of_reg (h.regGrA g o) _
theorem Stays.fldGstat (g lo w : Nat) : t.fld (aGstat g) lo w = s.fld (aGstat g) lo w := h.fldGrA ..
theorem Stays.flagGstat (g i : Nat) : t.flag (aGstat g) i = s.flag (aGstat g) i := h.flagGrA ..
theorem Stays.fldStat (n lo w : Nat) : t.fld (aStat n) lo w = s.fld (aStat n) lo w := h.fldChA ..
theorem Stays.flagStat (n i : Nat) : t.flag (aStat n) i = s.flag (aStat n) i := h.flagChA ..

theorem Stays.temp {g : Nat} (hg : g < 0x4000) : t.temp g = s.temp g := by
  unfold State.temp
  rw [h.fldGrA, h.gFenced g .sar hg, h.gFenced g .temp hg]

theorem Stays.vf {g : Nat} (hg : g < 0x4000) : t.vf g = s.vf g := by
  unfold State.vf
  rw [h.powered, h.gFenced g .sar hg, h.fldGrA]

theorem Stays.dohSum (g : Nat) : t.dohSum g = s.dohSum g := by
  unfold State.dohSum
  simp only [h.mode, h.fldChA]

theorem Stays.dohSumWith (g n mA : Nat) : t.dohSumWith g n mA = s.dohSumWith g n mA := by
  unfold State.dohSumWith
  simp only [h.mode, h.fldChA]

theorem Stays.unpowered (g : Nat) : t.unpowered g = s.unpowered g := by
  unfold State.unpowered
  rw [h.sup, h.powered]

theorem Stays.retraining {g : Nat} (hg : g < 0x4000) : t.retraining g = s.retraining g := by
  unfold State.retraining
  rw [h.member, h.gr, h.powered, h.gFenced g .link hg, h.dead, h.sup]

end

/-! ### Arming -/

section
variable {s : State}

theorem armPart_armed (h : s.sup.armed = true) : armPart s = s := if_pos h

theorem armPart_disarmed (h : s.sup.armed = false) : armPart s =
    let t := dropCause 0x30004 1 s.chans (dropCause 0x30004 0 s.chans { s with sup := { s.sup with armed := true } })
    t.emit .safeRelease .dev [fn (s.safeCount s.chans - t.safeCount t.chans)] := by
  rw [armPart, if_neg (by simp [h])]
  rfl

theorem disarmPart_disarmed (h : s.sup.armed = false) : disarmPart s = s := if_neg (by simp [h])
theorem disarmPart_armed (h : s.sup.armed = true) :
    disarmPart s = holdDev 1 { s with sup := { s.sup with armed := false } } := if_pos h

theorem mute_withSup (s : State) (c : Sup) : Mute s { s with sup := c } := ⟨rfl, rfl, rfl⟩

theorem mute_armPart (s : State) : Mute s (armPart s) := by
  unfold armPart
  refine .ite (.refl s) ?_
  extract_lets n c u t
  have hu : Mute s u := ⟨rfl, rfl, rfl⟩
  exact ((hu.dropCause ..).dropCause ..).emit ..

theorem mute_disarmPart (s : State) : Mute s (disarmPart s) := .ite ((mute_withSup s _).holdCause ..) (.refl s)

end

/-! ### Debounce times and the persistence of counts -/

theorem writeDebounce_eq {n v : Nat} (h : v ≤ 1310700) : writeDebounce n v = fun t => t.setReg (chA n 0x44) (word v) := by
  funext t
  rw [writeDebounce, Nat.min_eq_right h, decide_eq_false (by omega)]
  rfl

/-- PEN cleared, under the mask of DIC.PERSIST. -/
theorem persist_mask_clear (x : Word) : setBit x 31 false &&& 0x8000FFFF = x &&& 0xFFFF := by
  change (x &&& ~~~(BitVec.ofNat 32 (1 <<< 31)) ||| 0#32) &&& 0x8000FFFF = _
  rw [BitVec.or_zero, BitVec.and_assoc]
  rfl

/-- PEN set beside an interval, under the mask of DIC.PERSIST. -/
theorem persist_mask_set {v : Nat} (h : v ≤ 65535) : setBit (word v) 31 true &&& 0x8000FFFF = setBit (word v) 31 true := by
  have hw : word v = word v &&& 0xFFFF := by
    apply BitVec.eq_of_toNat_eq
    rw [BitVec.toNat_and]
    exact (Nat.and_two_pow_sub_one_of_lt_two_pow (n := 16) (by simp [word]; omega)).symm
  have hset : setBit (word v) 31 true = (word v &&& 0xFFFF) ||| 0x80000000 := by
    change (word v &&& ~~~(BitVec.ofNat 32 (1 <<< 31)) ||| BitVec.ofNat 32 (1 <<< 31)) = _
    rw [hw, BitVec.and_assoc, BitVec.and_assoc]
    rfl
  rw [hset, BitVec.and_or_distrib_right, BitVec.and_assoc]
  rfl
theorem writePersist_clear (n : Nat) (x : Word) (s : State) :
    writePersist n (setBit x 31 false) s = s.setReg (chA n 0x5C) (x &&& 0xFFFF) := by
  rw [writePersist, bit_setBit_same _ _ _ (by decide), persist_mask_clear]
  rfl

theorem writePersist_set {n v : Nat} {s : State} (h : v ≤ 65535) : writePersist n (setBit (word v) 31 true) s =
    if s.flag (chA n 0x5C) 31 || (s.ch n).snapped then s.setReg (chA n 0x5C) (setBit (word v) 31 true)
    else restartSnap n (s.setReg (chA n 0x5C) (setBit (word v) 31 true)) := by
  rw [writePersist, bit_setBit_same _ _ _ (by decide), persist_mask_set h]
  cases s.flag (chA n 0x5C) 31 <;> cases (s.ch n).snapped <;> rfl

theorem mute_writePersist (n : Nat) (v : Word) (s : State) : Mute s (writePersist n v s) :=
  .ite (((Mute.refl s).setReg ..).restartSnap n) ((Mute.refl s).setReg ..)

end Sys2Proof.Machine

open Sys2Proof Sys2Proof.Machine

/-- Settles O18: arming and disarming act where the part is not as asked, and grp retrain makes an attempt where a link is lost. -/
theorem groupAndArmLines : Obligations.GroupAndArmLines := by
  intro ln s hi
  refine ⟨fun hp => ?_, fun hp g r hg hf hu => ?_⟩
  · have ha := Stays.accepted noReg ln { locked := false } s
    refine ⟨fun h => ?armed, fun h => ?arm, fun h => ?disarmed, fun h => ?disarm, fun g hg => ?get⟩
    case armed => exact does_acts rfl hp hi (fun u _ => by simp) (armPart_armed (ha.sup ▸ h)) (.refl _)
    case arm =>
      have he := armPart_disarmed (s := accepted ln { locked := false } s) (ha.sup ▸ h)
      exact does_acts rfl hp hi (fun u _ => by simp) he (he ▸ mute_armPart _)
    case disarmed => exact does_acts rfl hp hi (fun u _ => by simp) (disarmPart_disarmed (ha.sup ▸ h)) (.refl _)
    case disarm =>
      have he := disarmPart_armed (s := accepted ln { locked := false } s) (ha.sup ▸ h)
      exact does_acts rfl hp hi (fun u _ => by simp) he (he ▸ mute_disarmPart _)
    case get =>
      have hg' : g < 0x4000 := by have := groups_le s.member; omega
      exact does_value rfl hp hi (fun u hu => grObj_passes (hu.member ▸ hg)) (by
        simp only [ha.powered, ha.gFenced g .link hg', ha.linkUp, ha.flagGstat, ha.temp hg', ha.vf hg', ha.dohSum, ha.fldGstat] <;> rfl)
  · have ha := Stays.accepted noReg ln {} s
    have hg' : g < 0x4000 := by have := groups_le s.member; omega
    have hc (u : State) (hu' : Stays (some ln.ep) noReg s u) :
        ∀ p ∈ grObj g u ++ [(.fenced, u.gFenced g .link), (.unpowered, u.unpowered g)], p.2 = false := by
      have := groups_le s.member
      simp [grObj, hu'.member, hu'.gFenced g .link hg', hf, hu'.unpowered, hu]
      omega
    refine ⟨fun h => ?_, fun h => ?_⟩
    · exact does_acts rfl hp hi hc (if_pos ((ha.retraining hg').trans h)) (.attempt (.refl _) ..)
    · exact does_acts rfl hp hi hc (if_neg (by rw [ha.retraining hg', h]; decide)) (.refl _)

/-- Settles O19: a channel line writes its field, and what follows the field follows. -/
theorem channelLines : Obligations.ChannelLines := by
  refine ⟨fun ln ch s hi hg hc => ⟨fun hp harm => ?_, fun hp => ?_⟩, fun n raw s hn hup happ hd hcr => ?_⟩
  · have hobj (u : State) (hu : Stays (some ln.ep) noReg s u) := chObj_passes (s := u) (hu.member ▸ hg) hc
    have hsafe (u : State) (hu : Stays (some ln.ep) noReg s u) (k : Nat) (hout : isOut (s.mode ch.n) = true)
        (hk : kindOk (s.mode ch.n) k (s.flag (chA ch.n 0) 7) = true) : ∀ p ∈ chObj ch u ++
          [(.mode, !isOut (u.mode ch.n) || !kindOk (u.mode ch.n) k (u.flag (chA ch.n 0) 7)), (.armed, u.sup.armed)], p.2 = false :=
      List.forall_mem_append.2 ⟨hobj u hu, by simp [hu.mode, hout, hu.flagChA, hk, hu.sup, harm]⟩
    refine ⟨fun m w4 hw h5 hsum => ?mode, fun hout => ⟨fun hk => ?off, fun hk => ?on, fun q hk hq h0 h1 => ?value,
      fun q hk hq h0 h1 => ?hold, fun ring => ?source⟩, fun on => ?ets⟩
    case mode =>
      refine does_acts rfl hp hi (fun u hu => List.forall_mem_append.2 ⟨hobj u hu, ?_⟩) rfl ((Mute.refl _).storeMode ..)
      have hodd : (w4 && (decide (ch.c % 2 = 1) || decide (m ≠ .air))) = false := by
        cases w4 with
        | false => rfl
        | true => simp [hw rfl]
      have hdoh : (decide (m = .doh) && decide (12000 < s.dohSumWith ch.g ch.n (10 * s.fld (chA ch.n 0x140) 0 8))) = false := by
        by_cases hm : m = .doh
        · simpa [hm] using hsum hm
        · simp [hm]
      simp only [hu.flagChA, hu.sup, hu.dohSumWith, hu.fldChA, hodd, hdoh, h5, harm]
      simp
    case off =>
      exact does_acts rfl hp hi (fun u hu => List.forall_mem_append.2 ⟨hsafe u hu 0 hout hk, by simp⟩) rfl
        ((Mute.refl _).withSafe ch.n fun u => (Mute.refl u).setFld ..)
    case on =>
      exact does_acts rfl hp hi (fun u hu => List.forall_mem_append.2 ⟨hsafe u hu 1 hout hk, by simp⟩) rfl
        ((Mute.refl _).withSafe ch.n fun u => (Mute.refl u).setFld ..)
    case value =>
      exact does_acts rfl hp hi (fun u hu => List.forall_mem_append.2 ⟨hsafe u hu 2 hout hk, by simp [hu.mode, hq, outside, h0, h1]⟩) rfl
        ((Mute.refl _).withSafe ch.n fun u => ((Mute.refl u).setFld ..).setFld ..)
    case hold =>
      exact does_acts rfl hp hi (fun u hu => List.forall_mem_append.2 ⟨hsafe u hu 3 hout hk, by simp [hq, outside, h0, h1]⟩) rfl
        ((Mute.refl _).withSafe ch.n fun u => ((Mute.refl u).setFld ..).setFld ..)
    case source =>
      exact okay_setReg hp hi _ (chA ch.n 0) (setBit · 6 ring) (ioKey_chA _ _ _) fun u hu =>
        List.forall_mem_append.2 ⟨hobj u hu, by simp [hu.mode, hout, hu.sup, harm]⟩
    case ets =>
      exact does_acts rfl hp hi (fun u hu => List.forall_mem_append.2 ⟨hobj u hu, by simp [hu.sup, harm]⟩) rfl
        (((Mute.refl _).setFlag ..).checkKind _)
  · have hobj (u : State) (hu : Stays (some ln.ep) noReg s u) := chObj_passes (s := u) (hu.member ▸ hg) hc
    have hset (u : State) (hu : Stays (some ln.ep) noReg s u) (hout : isOut (s.mode ch.n) = true)
        (hb : s.flag (chA ch.n 0) 6 = false) :
        ∀ p ∈ chObj ch u ++ [(.mode, !isOut (u.mode ch.n)), (.bound, u.flag (chA ch.n 0) 6)], p.2 = false :=
      List.forall_mem_append.2 ⟨hobj u hu, by simp [hu.mode, hout, hu.flagChA, hb]⟩
    have ha := Stays.accepted noReg ln { locked := false } s
    refine ⟨fun hout hb => ⟨fun hao => ⟨?on, ?off⟩, fun q hao hq h0 h1 => ?analogue, fun q hao hu hn h0 h1 => ?digital⟩, ?get⟩
    case on =>
      exact does_acts rfl hp hi (fun u hu => List.forall_mem_append.2 ⟨hset u hu hout hb, by simp [hu.mode, hao]⟩) rfl
        ((Mute.refl _).setOut ..)
    case off =>
      exact does_acts rfl hp hi (fun u hu => List.forall_mem_append.2 ⟨hset u hu hout hb, by simp [hu.mode, hao]⟩) rfl
        ((Mute.refl _).setOut ..)
    case analogue =>
      have hs (m : Nat) (hm : isAo m = true) : setSteps m (.qty q) = aoSteps m q := if_pos hm
      exact does_acts rfl hp hi (fun u hu => List.forall_mem_append.2 ⟨hset u hu hout hb, by
        simp [hu.mode, hao, hq, hs _ hao, outside, h0, h1]⟩) (by rw [ha.mode, hs _ hao]) ((Mute.refl _).setOut ..)
    case digital =>
      have hs (m : Nat) (hm : isAo m = false) : setSteps m (.qty q) = roundDiv q.num (10 ^ q.dec) := if_neg (by simp [hm])
      exact does_acts rfl hp hi (fun u hv => List.forall_mem_append.2 ⟨hset u hv hout hb, by
        simp [hv.mode, hao, hu, hn, hs _ hao, outside, h0, h1]⟩) (by rw [ha.mode, hs _ hao]) ((Mute.refl _).setOut ..)
    case get => exact does_value rfl hp hi hobj rfl
  · exact becomes_if rfl (by simp [*])

/-- Settles O20: each line is one write of the channel's registers, and a count and its persistence follow the write. -/
theorem digitalLines : Obligations.DigitalLines := by
  refine ⟨fun ln ch s hi hp hg hc hdi => ?_, fun ln ch s hi hp hg hc hdic => ?_⟩
  · have ha := Stays.accepted noReg ln {} s
    have hck (u : State) (hu : Stays (some ln.ep) noReg s u) : ∀ p ∈ diChecks ch false u, p.2 = false :=
      List.forall_mem_append.2 ⟨chObj_passes (hu.member ▸ hg) hc, by simp [hu.mode, hdi]⟩
    have hw (v : Word) := (Mute.refl (accepted ln {} s)).writeDiCfg ch.n v
    refine ⟨fun t3 => ?thr, fun on => ?invert, fun on => ?wirebreak, fun e hm => ?edge, fun thr hq h0 h1 => ⟨?prog, fun h hq' h0' h1' => ?hyst⟩,
      fun q hq h0 h1 => ?debounce⟩
    case thr => exact does_acts rfl hp hi hck (by rw [ha.regChA]) (hw _)
    case invert => exact does_acts rfl hp hi hck (by rw [ha.regChA]) (hw _)
    case wirebreak => exact does_acts rfl hp hi hck (by rw [ha.regChA]) (hw _)
    case edge =>
      exact does_acts rfl hp hi (fun u hu => List.forall_mem_append.2 ⟨chObj_passes (hu.member ▸ hg) hc, by simp [hu.mode, hm]⟩)
        (by rw [ha.regChA]; cases e <;> rfl) (hw _)
    case prog =>
      exact does_acts rfl hp hi (fun u hu => List.forall_mem_append.2 ⟨hck u hu, by simp [hq, outside, h0, h1]⟩)
        (by rw [ha.regChA]; rfl) (hw _)
    case hyst =>
      exact does_acts rfl hp hi (fun u hu => List.forall_mem_append.2 ⟨hck u hu, by
        simp [hq, outside, h0, h1, hq', h1']
        omega⟩)
        (by rw [ha.regChA]; rfl) (hw _)
    case debounce =>
      have hv : 20 * (qSteps q .us 1 1000).toNat ≤ 1310700 := by omega
      change ∃ t, done (runLine ln {} _ (okay (writeDebounce ch.n _)) s) = _ ∧ _
      rw [writeDebounce_eq hv]
      exact okay_setReg hp hi _ (chA ch.n 0x44) (fun _ => word (20 * (qSteps q .us 1 1000).toNat)) (ioKey_chA _ _ _)
        fun u hu => List.forall_mem_append.2 ⟨hck u hu, by simp [hq, outside, h0, h1]⟩
  · have ha := Stays.accepted noReg ln {} s
    have hck (u : State) (hu : Stays (some ln.ep) noReg s u) : ∀ p ∈ diChecks ch true u, p.2 = false :=
      List.forall_mem_append.2 ⟨chObj_passes (hu.member ▸ hg) hc, by simp [hu.mode, hdic]⟩
    refine ⟨?count, fun v hv => ?set, ?clear, ?stop, fun q hq h0 h1 => ?_⟩
    case count =>
      exact does_value rfl hp hi hck (by simp only [State.liveCount, ha.pairChA, ha.ch])
    case set =>
      exact does_acts rfl hp hi (fun u hu => List.forall_mem_append.2 ⟨hck u hu, by simp; omega⟩) rfl
        (((Mute.refl _).setPair ..).persist _)
    case clear => exact does_acts rfl hp hi hck rfl (((Mute.refl _).setPair ..).persist _)
    case stop =>
      exact does_acts rfl hp hi hck (by rw [writePersist_clear, ha.regChA]) ((Mute.refl _).setReg ..)
    have hset := writePersist_set (n := ch.n) (v := (qSteps q .s 1 1000000000).toNat) (s := accepted ln {} s) (by omega)
    rw [ha.flagChA, ha.ch] at hset
    have hm := hset ▸ mute_writePersist ch.n _ (accepted ln {} s)
    refine ⟨?_, fun m hm32 => ?_⟩
    · exact does_acts rfl hp hi (fun u hu => List.forall_mem_append.2 ⟨hck u hu, by simp [hq, outside, h0, h1]⟩) hset hm
    · exact does_acts rfl hp hi (fun u hu => List.forall_mem_append.2 ⟨hck u hu, by simp [hq, outside, h0, h1]; omega⟩)
        (congrArg (State.setReg · _ _) hset) (hm.setReg ..)
end

section
/-!
PROOFS. The lines of reflexes, load switches and analogue loops (R193 to R211, R216 to R234, R237 to R259).
-/
namespace Sys2Proof.Machine

theorem reflexes_le (m : Member) : m.reflexes ≤ 128 := by cases m <;> decide

theorem chRef_lt {ch : ChRef} {m : Member} (hg : ch.g < m.groups) (hc : ch.c < 16) : ch.n < 128 := by
  have := groups_le m
  unfold ChRef.n
  omega

section
variable {e : Option Ep} {s t : State} (h : Stays e noReg s t)
include h

theorem Stays.regSkA {k : Nat} (hk : k < 0x400) (o : Nat) (ho : o < 0x20) : t.reg (skA k o) = s.reg (skA k o) :=
  h.reg _ id (ioKey_skip _ _ (by unfold skA; omega) (by unfold skA; omega))

theorem Stays.skSrc {k : Nat} (hk : k < 0x400) : t.skSrc k = s.skSrc k := State.fld_of_reg (h.regSkA hk 0 (by decide)) ..
theorem Stays.skAct {k : Nat} (hk : k < 0x400) : t.skAct k = s.skAct k := h.regSkA hk 4 (by decide)
theorem Stays.skHolding (k : Nat) : t.skHolding k = s.skHolding k := by
  unfold State.skHolding
  simp only [h.chans, h.ch]
theorem Stays.skPending (k : Nat) : t.skPending k = s.skPending k := by
  unfold State.skPending
  simp only [h.chans, h.ch]

theorem Stays.fuseRow (n : Nat) : t.fuseRow n = s.fuseRow n := by
  have hrow (a lo w : Nat) (ha : 0x71000 ≤ a) : t.fld a lo w = s.fld a lo w := State.fld_of_reg (h.reg a id (ioKey_high _ _ ha)) ..
  unfold State.fuseRow
  simp only [h.fldChA]
  rw [hrow _ 0 20 (by omega), hrow _ 0 16 (by omega)]

theorem Stays.percent (n : Nat) : t.percent n = s.percent n := by
  unfold State.percent
  rw [h.ch, h.fuseRow]

theorem Stays.retryCount (n : Nat) : t.retryCount n = s.retryCount n := by
  unfold State.retryCount
  rw [h.ch, h.clk]

theorem Stays.regSafe {k : Nat} (hk : 0x30000 ≤ k) (hk' : k < 0x40000) : t.reg k = s.reg k := h.reg _ id (ioKey_safe _ _ hk hk')

theorem Stays.chst {n : Nat} (hn : n < 128) : t.chst n = s.chst n :=
  State.fld_of_reg (h.regSafe (by unfold aChst; omega) (by unfold aChst; omega)) ..

theorem Stays.feMode (n : Nat) : t.feMode n = s.feMode n := by unfold State.feMode; rw [h.ch]

theorem Stays.onBarred {n : Nat} (hn : n < 128) : t.onBarred n = s.onBarred n := by
  have hr : t.reg (aSafeCh n) = s.reg (aSafeCh n) := h.regSafe (by unfold aSafeCh; omega) (by unfold aSafeCh; omega)
  unfold State.onBarred
  rw [State.flag_of_reg hr, h.gFenced _ _ (by omega), h.gFenced _ _ (by omega)]

theorem Stays.safeVal {n : Nat} (hn : n < 128) : t.safeVal n = s.safeVal n := by
  unfold State.safeVal
  rw [h.regChA, h.mode, h.chst hn, h.onBarred hn, h.ch]

theorem Stays.latchVal (n : Nat) : t.latchVal n = s.latchVal n := by
  unfold State.latchVal
  rw [h.ch, h.feMode]

theorem Stays.prot (n : Nat) : t.prot n = s.prot n := by
  unfold State.prot
  rw [h.mode, h.flagStat]

/-- What the output selector reads and drives. -/
theorem Stays.drive {n : Nat} (hn : n < 128) : t.drive n = s.drive n := by
  have hg (k : GUn) := h.gFenced (n / 16) k (by omega)
  have hsel : t.selects n = s.selects n := by
    unfold State.selects
    simp only [h.feMode, h.gr, hg, h.prot, h.latchVal, h.chst hn, h.safeVal hn, h.ch, h.regChA]
  unfold State.drive State.limits
  simp only [hsel, h.mode, h.flagStat]

theorem Stays.dohChecks {ch : ChRef} {rwa : Bool} (hg : ch.g < s.member.groups) (hc : ch.c < 16) (hm : s.mode ch.n = 3)
    (ha : rwa = true → s.sup.armed = false) : ∀ p ∈ dohChecks ch rwa t, p.2 = false :=
  List.forall_mem_append.2 ⟨chObj_passes (h.member ▸ hg) hc, by simpa [h.mode, hm, h.sup] using ha⟩

theorem Stays.anChecks {ch : ChRef} {ok : Nat → Bool} {rwa : Bool} (hg : ch.g < s.member.groups) (hc : ch.c < 16)
    (hm : ok (s.mode ch.n) = true) (ha : rwa = true → s.sup.armed = false) : ∀ p ∈ anChecks ch ok rwa t, p.2 = false :=
  List.forall_mem_append.2 ⟨chObj_passes (h.member ▸ hg) hc, by simpa [h.mode, hm, h.sup] using ha⟩

end

end Sys2Proof.Machine

open Sys2Proof Sys2Proof.Machine

/-- Settles O24: each line writes its field of the reflex's registers, and disabling and releasing end the holds of the reflex. -/
theorem skipLines : Obligations.SkipLines := by
  intro ln k s hi hk
  have hk' : k < 0x400 := by have := reflexes_le s.member; omega
  refine ⟨fun hp => ?_, fun hp => ?_⟩
  · have ha := Stays.accepted noReg ln {} s
    have hck (u : State) (hu : Stays (some ln.ep) noReg s u) : ∀ p ∈ skObj k u, p.2 = false := by simp [skObj, hu.member]; omega
    have hm := Mute.refl (accepted ln {} s)
    refine ⟨fun on => ?report, ?enable, ?disable, ?release, fun harm => ?_⟩
    case report => exact does_acts rfl hp hi (fun u _ => by simp) rfl (hm.setFlag ..)
    case enable => exact does_acts rfl hp hi hck rfl (hm.setFlag ..)
    case disable => exact does_acts rfl hp hi hck rfl ((hm.setFlag ..).endHoldsOf k)
    case release => exact does_acts rfl hp hi hck rfl (hm.endHoldsOf k)
    have hcd (u : State) (hu : Stays (some ln.ep) noReg s u) : ∀ p ∈ skChecks k u, p.2 = false :=
      List.forall_mem_append.2 ⟨hck u hu, by simp [hu.sup, harm]⟩
    refine ⟨fun on => ?note, ?stamp, fun g hg => ?gsafe, fun ch p hg hc hd => ?src, fun q hs hd hq => ⟨fun h0 => ?commit, fun h0 h1 h2 => ?confirm⟩,
      fun ch q hg hc ht => ⟨fun x r hr => ?act, fun hq h1 h2 => ⟨fun x => ?timed, fun high => ?pulse⟩⟩⟩
    case note => exact does_acts rfl hp hi hcd rfl (hm.setFlag ..)
    case stamp => exact does_acts rfl hp hi hcd rfl (hm.setFld ..)
    case gsafe =>
      exact does_acts rfl hp hi (fun u hu => List.forall_mem_append.2 ⟨hcd u hu, grObj_passes (hu.member ▸ hg)⟩)
        (by rw [ha.skAct hk']) (hm.setReg ..)
    case src =>
      exact does_acts rfl hp hi (fun u hu => List.forall_mem_append.2 ⟨List.forall_mem_append.2
        ⟨hcd u hu, chObj_passes (hu.member ▸ hg) hc⟩, by simp [hu.mode, hd]⟩) (by cases p <;> rfl) ((hm.setFld ..).setFld ..)
    case commit =>
      exact does_acts rfl hp hi (fun u hu => List.forall_mem_append.2 ⟨hcd u hu, by
        simp [hu.skSrc hk', hu.member, hu.mode, hs, hd, hq, h0]⟩) (if_pos h0) (hm.setFlag ..)
    case confirm =>
      exact does_acts rfl hp hi (fun u hu => List.forall_mem_append.2 ⟨hcd u hu, by
        simp [hu.skSrc hk', hu.member, hu.mode, hs, hd, hq, outside, h2]; omega⟩) (by rw [if_neg h0, ha.skSrc hk'])
        ((hm.setFlag ..).setReg ..)
    all_goals
      have hct (u : State) (hu : Stays (some ln.ep) noReg s u) : ∀ p ∈ skChecks k u ++ skTarget ch u, p.2 = false :=
        List.forall_mem_append.2 ⟨hcd u hu, List.forall_mem_append.2 ⟨chObj_passes (hu.member ▸ hg) hc, by simp [hu.mode]; tauto⟩⟩
    case act =>
      exact does_acts rfl hp hi (fun u hu => List.forall_mem_append.2 ⟨hct u hu, by simp [hr]⟩)
        (by rw [if_neg hr, ha.skAct hk']; cases x <;> cases r <;> rfl) (hm.setReg ..)
    all_goals
      have htime : ∀ p ∈ skTimeChecks q, p.2 = false := by simp [skTimeChecks, hq, outside]; omega
    case timed =>
      exact does_acts rfl hp hi (fun u hu => List.forall_mem_append.2 ⟨hct u hu, by rwa [if_pos rfl]⟩)
        (by rw [if_pos rfl, ha.skAct hk']; cases x <;> rfl) ((hm.setReg ..).setReg ..)
    case pulse =>
      exact does_acts rfl hp hi (fun u hu => List.forall_mem_append.2 ⟨hct u hu, htime⟩)
        (by rw [ha.skAct hk']) ((hm.setReg ..).setReg ..)
  · have ha := Stays.accepted noReg ln { locked := false } s
    have hck (u : State) (hu : Stays (some ln.ep) noReg s u) : ∀ p ∈ skObj k u, p.2 = false := by simp [skObj, hu.member]; omega
    obtain ⟨t, hrun, hans, hst⟩ := (does_value (c := .skipGet ln k) rfl hp hi hck rfl).reads
    refine ⟨t, _, hrun, hans, hst, ?_⟩
    rw [← ha.skSrc hk', ← State.flag_of_reg (ha.reg 0x60008 id (ioKey_skip _ _ (by decide) (by decide))) k, ← ha.skHolding,
      ← ha.skPending, ← ha.regSkA hk' 0x10 (by decide), ← ha.regSkA hk' 0x14 (by decide), ← ha.regSkA hk' 0x18 (by decide)]
    simp

/-- Settles O29: each line is one write of the switch's registers, trip clear asks for the end of a trip, and doh fuse reads. -/
theorem loadSwitchLines : Obligations.LoadSwitchLines := by
  intro ln ch s hi hp hg hc hmode
  have ha := Stays.accepted noReg ln {} s
  have hm := Mute.refl (accepted ln {} s)
  have hck (u : State) (hu : Stays (some ln.ep) noReg s u) : ∀ p ∈ dohChecks ch false u, p.2 = false :=
    hu.dohChecks hg hc hmode (fun h => by cases h)
  refine ⟨fun harm => ?_, ?undercurrent_off, fun q hq h0 h1 => ?undercurrent, fun on => ?oltest, ?trip, ?fuse⟩
  · have hck (u : State) (hu : Stays (some ln.ep) noReg s u) : ∀ p ∈ dohChecks ch true u, p.2 = false :=
      hu.dohChecks hg hc hmode fun _ => harm
    refine ⟨fun q hq h0 h1 hsum => ?rated, fun q k hq hk => ?wire, fun k hk => ?custom, fun q m hq hmu h0 h1 h2 h3 => ?inrush,
      fun q hq h0 h1 => ?limit, fun on => ?retry⟩
    case rated =>
      exact does_acts rfl hp hi (fun u hu => List.forall_mem_append.2 ⟨hck u hu, by
        simp [hq, outside, hu.dohSumWith, hsum]; omega⟩) rfl (hm.setFld ..)
    case wire =>
      exact does_acts rfl hp hi (fun u hu => List.forall_mem_append.2 ⟨hck u hu, by simp [hk, hq]⟩) (by rw [hk]; rfl) (hm.setFld ..)
    case custom =>
      exact does_acts rfl hp hi (fun u hu => List.forall_mem_append.2 ⟨hck u hu, by simp; omega⟩) rfl
        (((hm.setFld ..).setFld ..).holdFence _)
    case inrush =>
      exact does_acts rfl hp hi (fun u hu => List.forall_mem_append.2 ⟨hck u hu, by simp [hq, hmu, outside]; omega⟩) rfl
        ((hm.setFld ..).setFld ..)
    case limit =>
      exact does_acts rfl hp hi (fun u hu => List.forall_mem_append.2 ⟨hck u hu, by simp [hq, outside]; omega⟩) rfl (hm.setFld ..)
    case retry => exact does_acts rfl hp hi (fun u hu => List.forall_mem_append.2 ⟨hck u hu, by simp⟩) rfl (hm.setFlag ..)
  case undercurrent_off => exact does_acts rfl hp hi (fun u hu => List.forall_mem_append.2 ⟨hck u hu, by simp⟩) rfl (hm.setFld ..)
  case undercurrent =>
    exact does_acts rfl hp hi (fun u hu => List.forall_mem_append.2 ⟨hck u hu, by simp [hq, outside]; omega⟩) rfl (hm.setFld ..)
  case oltest => exact does_acts rfl hp hi (fun u hu => List.forall_mem_append.2 ⟨hck u hu, by simp⟩) rfl (hm.setFlag ..)
  case trip => exact does_acts rfl hp hi (fun u hu => List.forall_mem_append.2 ⟨hck u hu, by simp⟩) rfl (hm.tripClear _)
  case fuse =>
    exact does_value rfl hp hi hck (by simp only [ha.percent, ha.fldChA, ha.fldStat, ha.retryCount, ha.regChA])

/-- Settles O31: each line is one write of the loop's registers, which the write limits, and ch readback reads. -/
theorem analogueLines : Obligations.AnalogueLines := by
  intro ln ch s hi hp hg hc
  have ha := Stays.accepted noReg ln {} s
  have hm := Mute.refl (accepted ln {} s)
  refine ⟨fun harm => ⟨fun hmode on => ?loop, fun hmode => ?_, fun hao p q hp' hq h0 h1 => ⟨fun h2 h3 r => ?dev, fun h2 h3 => ?rbchk⟩⟩,
    fun hmode q hq h0 h1 => ?rngt, fun hao => ?readback⟩
  case loop =>
    exact does_acts rfl hp hi (fun u hu => hu.anChecks hg hc (by simp [hmode]) fun _ => harm) (by rw [ha.regChA]) (hm.writeAiCfg ..)
  · have hck (u : State) (hu : Stays (some ln.ep) noReg s u) : ∀ p ∈ anChecks ch (· == 7) true u, p.2 = false :=
      hu.anChecks hg hc (by simp [hmode]) fun _ => harm
    refine ⟨fun ty => ?rtd, fun q x hq hx => ?exc, fun w3 => ?leads, fun q hq h0 h1 => ⟨?leads2, ?leads3⟩⟩
    case rtd => exact does_acts rfl hp hi hck (by rw [ha.regChA]; cases ty <;> rfl) (hm.writeAiCfg ..)
    case exc =>
      exact does_acts rfl hp hi (fun u hu => List.forall_mem_append.2 ⟨hck u hu, by simp [hq, hx]⟩) (by rw [ha.regChA, hx]; rfl)
        (hm.writeAiCfg ..)
    case leads =>
      exact does_acts rfl hp hi (fun u hu => List.forall_mem_append.2 ⟨hck u hu, by simp⟩) (by rw [ha.regChA]; rfl) (hm.writeAiCfg ..)
    case leads2 =>
      exact does_acts rfl hp hi (fun u hu => List.forall_mem_append.2 ⟨hck u hu, by simp [hq, outside]; omega⟩)
        (by rw [ha.regChA]; rfl) (hm.writeAiCfg ..)
    case leads3 =>
      exact does_acts rfl hp hi (fun u hu => List.forall_mem_append.2 ⟨hck u hu, by simp [hq, outside]; omega⟩)
        (by rw [ha.regChA]; rfl) (hm.writeAiCfg ..)
  case dev =>
    exact does_acts rfl hp hi (fun u hu => List.forall_mem_append.2 ⟨hu.anChecks hg hc hao fun _ => harm, by
      simp [hp', hq, outside]; omega⟩) rfl (hm.writeAoDev ..)
  case rbchk =>
    exact does_acts rfl hp hi (fun u hu => List.forall_mem_append.2 ⟨hu.anChecks hg hc hao fun _ => harm, by
      simp [hp', hq, outside]; omega⟩) rfl (hm.writeAoRbchk ..)
  case rngt =>
    exact does_acts rfl hp hi (fun u hu => List.forall_mem_append.2 ⟨hu.anChecks hg hc (by simpa using hmode) (fun h => by cases h), by
      simp [hq, outside]; omega⟩) rfl (hm.writeAiDiag ..)
  case readback =>
    exact does_value rfl hp hi (fun u hu => hu.anChecks hg hc hao (fun h => by cases h)) (by
      simp only [ha.mode, ha.regChA, ha.drive (chRef_lt hg hc)])
end

section
/-!
PROOFS. The lines of conversion, synchronising and the cross-check, and the synchronising events (R265 to R297).
-/
namespace Sys2Proof.Machine

namespace Mute
variable {s t : State} (h : Mute s t)
include h

theorem requestSync (m : Nat) : Mute s (requestSync m t) := .ite h (.ite (h.trans ⟨rfl, rfl, rfl⟩) (h.trans ⟨rfl, rfl, rfl⟩))
theorem grpCfgErr (g : Nat) (b : Bool) : Mute s (grpCfgErr g b t) := h.forAll _ fun n u => (refl u).cfgErr n b
theorem writeSync (g : Nat) (v : Word) : Mute s (writeSync g v t) := (h.setReg ..).grpCfgErr ..
theorem writeXchkCfg (g : Nat) (v : Word) : Mute s (writeXchkCfg g v t) := ((h.setReg ..).grpCfgErr ..).setGr ..
theorem rotResume (n : Nat) : Mute s (rotResume n t) := .ite (h.setFld ..) h
theorem filterStart (n : Nat) : Mute s (filterStart n t) := (h.setCh ..).setStale _

theorem writeConvCfg (n : Nat) (v : Word) : Mute s (writeConvCfg n v t) :=
  have hr := ((h.setReg ..).cfgErr ..).rotResume n
  .ite (hr.filterStart n) hr

theorem winReset (n : Nat) : Mute s (winReset n t) := ((h.setCh ..).setFld ..).refreshTarget n

theorem winTarget (n : Nat) (act : Bool) (x : Nat) : Mute s (winTarget n act x t) :=
  have hw := ((h.setFlag ..).setFld ..).cfgErr ..
  .refreshTarget (.ite (hw.refreshFault _) hw) n

theorem rotStart (g : Nat) : Mute s (rotStart g t) := .ite (h.setFld ..) h

theorem writeRotCfg (g : Nat) (v : Word) : Mute s (writeRotCfg g v t) :=
  have hw := (h.setReg ..).grpCfgErr ..
  .ite (hw.rotStart g) (.ite (hw.setFld ..) hw)

end Mute

/-! ### The strobe instant of a request -/

/-- A request stands in the queue at the first edge of the strobe that is 3 µs away (R272). -/
theorem requestSync_edge {mask : Nat} (h : mask ≠ 0) (s : State) :
    ∃ x ∈ (requestSync mask s).syncs, x.1 = ceilDiv (s.clk.raw + 1200) 400 ∧ x.2 &&& mask = mask := by
  rw [requestSync, if_neg h]
  dsimp only
  split
  · next hany =>
    obtain ⟨y, hy, he⟩ := List.any_eq_true.1 hany
    have he' : y.1 = ceilDiv (s.clk.raw + 1200) 400 := by simpa using he
    refine ⟨(ceilDiv (s.clk.raw + 1200) 400, y.2 ||| mask), List.mem_map.2 ⟨y, hy, if_pos he'⟩, rfl, ?_⟩
    show (y.2 ||| mask) &&& mask = mask
    refine Nat.eq_of_testBit_eq fun i => ?_
    rw [Nat.testBit_and, Nat.testBit_or]
    cases mask.testBit i <;> simp
  · exact ⟨_, List.mem_append_right _ (List.mem_singleton_self _), rfl, Nat.and_self mask⟩

/-! ### An item of a group -/

theorem Stays.withFreeIdx {e : Option Ep} {w : Nat → Prop} {s t : State} (f : Nat) (h : Stays e w s t) :
    Stays e w { s with freeIdx := f } { t with freeIdx := f } := { h with freeIdx := rfl }

/-- An item that a group sends is recorded with the free words that follow, and changes nothing beside. -/
theorem item_stays (g : Nat) (s : State) : ∃ f, Stays none noReg { s with freeIdx := f } (s.item g) := by
  unfold State.item
  split
  · exact ⟨_, ((Stays.refl none noReg s).record ..).withFreeIdx _⟩
  · exact ⟨s.freeIdx, .refl _ _ s⟩

theorem item_mode (g n : Nat) (s : State) : (s.item g).mode n = s.mode n := by
  obtain ⟨f, h⟩ := item_stays g s
  exact h.mode n

theorem mode_setFlag_grA {o : Nat} (ho : o < 0x1000) (g i : Nat) (b : Bool) (n : Nat) (s : State) : (s.setFlag (grA g o) i b).mode n = s.mode n :=
  State.fld_of_reg (State.reg_setFlag_other _ _ _ _ _ (by unfold chA grA; omega)) ..

theorem mode_emit (c : Ev) (o : Obj) (d : List Fld) (n : Nat) (s : State) : (s.emit c o d).mode n = s.mode n := rfl

theorem aoChans_congr {s t : State} (h : ∀ n, t.mode n = s.mode n) (g : Nat) : t.aoChans g = s.aoChans g :=
  List.filter_congr fun n _ => by rw [h n]

/-- The analogue outputs of a group are the same after its cross-check has failed. -/
theorem aoChans_failed (g : Nat) (s : State) :
    State.aoChans ((((s.item g).setFlag (grA g 0x58) 0 true).setFlag (grA g 0x58) 1 true).emit .xchkFail (.grp g) []) g =
      s.aoChans g := by
  refine aoChans_congr (fun n => ?_) g
  rw [mode_emit, mode_setFlag_grA (by decide), mode_setFlag_grA (by decide), item_mode]

section
variable {e : Option Ep} {s t : State} (h : Stays e noReg s t)
include h

theorem Stays.winUnit (n : Nat) : t.winUnit n = s.winUnit n := by
  unfold State.winUnit
  rw [h.mode, h.fldChA]

theorem Stays.winQty (n : Nat) (q : Qty) : t.winQty n q = s.winQty n q := by
  unfold State.winQty
  rw [h.winUnit]

theorem Stays.cvChecks {ch : ChRef} {ok : Nat → Bool} (hg : ch.g < s.member.groups) (hc : ch.c < 16)
    (hm : ok (s.mode ch.n) = true) : ∀ p ∈ cvChecks ch ok t, p.2 = false :=
  List.forall_mem_append.2 ⟨chObj_passes (h.member ▸ hg) hc, by simp [h.mode, hm]⟩

theorem Stays.xIdle {g : Nat} (hg : g < 0x4000) : t.xIdle g = s.xIdle g := by
  unfold State.xIdle State.xch
  rw [h.mode, h.fldGrA, h.flagGrA, h.gFenced g _ hg, h.gFenced g _ hg, h.flagGstat]

theorem Stays.rotSt (g : Nat) : t.rotSt g = s.rotSt g := h.fldGrA ..
theorem Stays.spare (g : Nat) : t.spare g = s.spare g := h.fldGrA ..

theorem Stays.scanValue (g x : Nat) : t.scanValue g x = s.scanValue g x := by
  unfold State.scanValue State.xch
  rw [h.regGrA, h.mode, h.mode, h.fldGrA]

end

end Sys2Proof.Machine

open Sys2Proof Sys2Proof.Machine

/-- Settles O34: a request is queued for its strobe edge, at which the groups it names restart, and the lines write SYNC. -/
theorem synchronising : Obligations.Synchronising := by
  refine fun s => ⟨fun hr hp => ?ball, fun x l hr hq => ?edge, fun mask hm => ?instant, fun ln gs hi hp hg => ?sync, fun ln g hi hp hg => ?_⟩
  case ball =>
    have ha := (Stays.refl none noReg s).record 0x05 1 1 []
    refine becomes_done (s := s) ((congrArg done (if_pos (by simp [hr, hp]))).trans ?_)
    simp only [ha.groups, ha.flagGrA, ha.powered]
  case edge =>
    have ha := (Stays.refl none noReg { s with syncs := l }).record 0x29 0 0 [word x.2]
    refine becomes_done (s := s) ((congrArg done (if_pos hr)).trans ?_)
    rw [hq]
    dsimp only
    rw [ha.groups]
    rfl
  case instant =>
    obtain ⟨x, hx, he, ha⟩ := requestSync_edge hm s
    refine ⟨x, hx, ?_, ?_, ha⟩ <;> rw [he, ceilDiv] <;> omega
  case sync =>
    have ha := Stays.accepted noReg ln { locked := false } s
    refine does_acts rfl hp hi (fun u hu p hm => ?_) (by rw [ha.groups, funext ha.powered]) ((Mute.refl _).requestSync _)
    obtain ⟨g, hgs, hm⟩ := List.mem_flatMap.1 hm
    exact grObj_passes (hu.member ▸ hg g hgs) p hm
  · have ha := Stays.accepted noReg ln {} s
    have hm := Mute.refl (accepted ln {} s)
    have hck (u : State) (hu : Stays (some ln.ep) noReg s u) : ∀ p ∈ grObj g u, p.2 = false := grObj_passes (hu.member ▸ hg)
    refine ⟨fun on => ?on, fun r hr => ?_⟩
    case on => exact does_acts rfl hp hi hck rfl (hm.setFlag ..)
    have hring (u : State) (hu : Stays (some ln.ep) noReg s u) (k : Option Nat)
        (hk : ∀ n, k = some n → 1 ≤ n ∧ n ≤ 65535) : ∀ p ∈ grObj g u ++
          (match r with | some c => [(.arg, decide (2 ≤ c)), (.absent, decide (u.member.rings ≤ c))] | none => []) ++
          [(.range, (k.map fun n => decide (n < 1 ∨ 65535 < n)).getD false)], p.2 = false := by
      refine List.forall_mem_append.2 ⟨List.forall_mem_append.2 ⟨hck u hu, ?_⟩, ?_⟩
      · cases r with
        | none => simp
        | some c => simpa [hu.member] using hr c rfl
      · cases k with
        | none => simp
        | some n => have := hk n rfl; simp; omega
    refine ⟨?_, fun k h0 h1 => ?_⟩
    · exact does_acts rfl hp hi (fun u hu => hring u hu none (by simp)) (by rw [ha.regGrA]) (hm.writeSync ..)
    · exact does_acts rfl hp hi (fun u hu => hring u hu (some k) (by simp [h0, h1])) (by rw [ha.regGrA]) (hm.writeSync ..)

/-- Settles O36: the check's events move the flag and then the faults of the outputs, and the line writes its register. -/
theorem crossCheck : Obligations.CrossCheck := by
  refine fun g s => ⟨fun hi hx => ⟨fun ho hf => ?fail, fun ho hf => ?clear⟩, fun ln hi hg => ⟨fun hp => ?_, fun hp => ?get⟩⟩
  case fail =>
    rw [← aoChans_failed]
    exact becomes_if rfl (by simp [hi, hx, ho, hf])
  case clear => exact becomes_if rfl (by simp [hi, hx, ho, hf])
  case get =>
    have ha := Stays.accepted noReg ln { locked := false } s
    have hg' : g < 0x4000 := by have := groups_le s.member; omega
    exact does_value rfl hp hi (fun u hu => grObj_passes (hu.member ▸ hg)) (by simp only [ha.flagGrA, ha.fldGrA, ha.xIdle hg'])
  · have ha := Stays.accepted noReg ln {} s
    have hm := Mute.refl (accepted ln {} s)
    have hck (u : State) (hu : Stays (some ln.ep) noReg s u) : ∀ p ∈ grObj g u, p.2 = false := grObj_passes (hu.member ▸ hg)
    refine ⟨?off, fun p q hp' hq h0 h1 h2 h3 => ?limits, fun c hc => ⟨?on, fun p q hp' hq h0 h1 h2 h3 => ?both⟩⟩
    case off =>
      exact does_acts rfl hp hi (fun u hu => List.forall_mem_append.2 ⟨List.forall_mem_append.2 ⟨hck u hu, by simp⟩, by simp⟩)
        (by rw [ha.regGrA]; rfl) (hm.writeXchkCfg ..)
    case limits =>
      exact does_acts rfl hp hi (fun u hu => List.forall_mem_append.2 ⟨List.forall_mem_append.2 ⟨hck u hu, by simp⟩, by
        simp [hp', hq, outside]; omega⟩) (by rw [ha.regGrA]; rfl) (hm.writeXchkCfg ..)
    all_goals
      have hobj (u : State) (hu : Stays (some ln.ep) noReg s u) : ∀ p ∈ grObj g u ++ chObj { g := g, c := c } u, p.2 = false :=
        List.forall_mem_append.2 ⟨hck u hu, chObj_passes (hu.member ▸ hg) hc⟩
    case on =>
      exact does_acts rfl hp hi (fun u hu => List.forall_mem_append.2 ⟨hobj u hu, by simp⟩) (by rw [ha.regGrA]; rfl) (hm.writeXchkCfg ..)
    case both =>
      exact does_acts rfl hp hi (fun u hu => List.forall_mem_append.2 ⟨hobj u hu, by simp [hp', hq, outside]; omega⟩)
        (by rw [ha.regGrA]; rfl) (hm.writeXchkCfg ..)

/-- Settles O37: the lines write the configuration of a filter, a window and a rotation, and the get lines and conv scan read. -/
theorem conversionLines : Obligations.ConversionLines := by
  refine fun ln s hi => ⟨fun ch hg hc => ⟨fun hp => ?_, fun hp han => ?get⟩, fun g hg => ⟨fun hp => ?_, fun hp => ?rotget⟩⟩
  case get =>
    have ha := Stays.accepted noReg ln { locked := false } s
    refine ⟨_, does_value rfl hp hi (fun u hu => hu.cvChecks hg hc han) rfl, ?_⟩
    rw [← ha.fldChA, ← ha.fldChA, ← ha.flagChA]
    simp
  case rotget =>
    have ha := Stays.accepted noReg ln { locked := false } s
    refine ⟨_, does_value rfl hp hi (fun u hu => grObj_passes (hu.member ▸ hg)) rfl, ?_⟩
    have hrot (lo w : Nat) : s.fld (aRot g) lo w = (accepted ln { locked := false } s).fld (aRot g) lo w := (ha.fldGrA ..).symm
    have hhalt : s.flag (aRot g) 12 = (accepted ln { locked := false } s).flag (aRot g) 12 := (ha.flagGrA ..).symm
    rw [← ha.rotSt, ← ha.regGrA, hrot, hhalt]
    simp
  · have ha := Stays.accepted noReg ln {} s
    have hm := Mute.refl (accepted ln {} s)
    refine ⟨fun han r x hr hx => ⟨?rate, fun h3 => ⟨?n50, ?n60⟩⟩, fun hai => ⟨fun lo hi' hy k hlo hhi hhy h0 h1 h2 h3 h4 h5 => ?window, ?off,
      fun harm => ⟨?release, fun o hg' hc' => ?target⟩⟩⟩
    case rate =>
      exact does_acts rfl hp hi (fun u hu => List.forall_mem_append.2 ⟨hu.cvChecks hg hc han, by simp [hr, hx]⟩)
        (by rw [hx]; rfl) (hm.writeConvCfg ..)
    case n50 =>
      exact does_acts rfl hp hi (fun u hu => List.forall_mem_append.2 ⟨hu.cvChecks hg hc han, by simp [hr, hx, h3]⟩)
        (by rw [hx, h3]; rfl) (hm.writeConvCfg ..)
    case n60 =>
      exact does_acts rfl hp hi (fun u hu => List.forall_mem_append.2 ⟨hu.cvChecks hg hc han, by simp [hr, hx, h3]⟩)
        (by rw [hx, h3]; rfl) (hm.writeConvCfg ..)
    case window =>
      exact does_acts rfl hp hi (fun u hu => List.forall_mem_append.2 ⟨hu.cvChecks hg hc hai, by
        simp [hu.winUnit, hu.winQty, hlo, hhi, hhy, outside]; omega⟩) (by simp only [ha.winQty]; rfl)
        ((((((hm.setReg ..).setReg ..).setReg ..).setFld ..).setFlag ..).winReset _)
    case off =>
      exact does_acts rfl hp hi (fun u hu => hu.cvChecks hg hc hai) rfl ((hm.setFlag ..).winReset _)
    case release =>
      exact does_acts rfl hp hi (fun u hu => List.forall_mem_append.2 ⟨List.forall_mem_append.2 ⟨hu.cvChecks hg hc hai, by simp⟩, by
        simp [hu.sup, harm]⟩) (by rw [ha.fldChA]) (hm.winTarget ..)
    case target =>
      exact does_acts rfl hp hi (fun u hu => List.forall_mem_append.2 ⟨List.forall_mem_append.2 ⟨hu.cvChecks hg hc hai,
        chObj_passes (hu.member ▸ hg') hc'⟩, by simp [hu.sup, harm]⟩) rfl (hm.winTarget ..)
  · have ha := Stays.accepted noReg ln {} s
    have hm := Mute.refl (accepted ln {} s)
    have hck (u : State) (hu : Stays (some ln.ep) noReg s u) : ∀ p ∈ grObj g u, p.2 = false := grObj_passes (hu.member ▸ hg)
    refine ⟨fun q hq h0 h1 => ⟨?rotoff, fun hs => ?roton⟩, fun e he => ?scan⟩
    case rotoff =>
      exact does_acts rfl hp hi (fun u hu => List.forall_mem_append.2 ⟨hck u hu, by simp [hq, outside, h0, h1]⟩) rfl (hm.writeRotCfg ..)
    case roton =>
      exact does_acts rfl hp hi (fun u hu => List.forall_mem_append.2 ⟨hck u hu, by simp [hq, outside, h0, h1]⟩)
        (by simp [ha.spare, hs]) (((hm.setFlag ..).setFld ..).writeRotCfg ..)
    case scan =>
      exact does_value rfl hp hi (fun u hu => List.forall_mem_append.2 ⟨hck u hu, by simp; omega⟩)
        (by simp only [ha.scanValue, ha.fldGrA])
end

section
/-!
PROOFS. The safe lines (R305, R306, R315).
-/
namespace Sys2Proof.Machine

namespace Mute
variable {s t : State} (h : Mute s t)
include h

theorem release (o : SafeObj) : Mute s (release o t).2 := by
  have hg : Mute s (Machine.withGates (t.relChans o) (fun u => Machine.forAll (t.relChans o) Machine.leaveSafe
      ((t.relRegs o).foldl (fun (u : State) (p : Nat × Nat) => u.setReg p.1 (u.reg p.1 &&& ~~~(word (releasable p.2 (u.reg p.1))))) u))
      t) := withGates _ ((h.foldl _ fun p u => (refl u).setReg ..).forAll _ fun n u => (refl u).leaveSafe n)
  exact .ite (hg.emit ..) hg

theorem autoRelease (n : Nat) : Mute s (autoRelease n t) := .ite ((h.dropCause ..).emit ..) h

theorem setAutorel (l : List Nat) (on : Bool) : Mute s (setAutorel l on t) :=
  h.forAll l fun n u => ((refl u).setFlag ..).autoRelease n

end Mute

/-- What safe release does and answers. -/
def releaseEffect (o : SafeObj) (t : State) : State × Resp :=
  ((release o t).2, .vals [kn "released" (release o t).1, kn "safe" ((release o t).2.safeCount ((release o t).2.relChans o))])

/-- The channels that a safe object names exist. -/
def objHere (m : Member) (o : SafeObj) : Prop :=
  match o with
  | .dev => True
  | .grp g => g < m.groups
  | .ch r => r.g < m.groups ∧ r.c < 16

section
variable {e : Option Ep} {s t : State} (h : Stays e noReg s t)
include h

theorem Stays.relChans (o : SafeObj) : t.relChans o = s.relChans o := by
  cases o <;> simp only [State.relChans, h.chans]

theorem Stays.safeCount {l : List Nat} (hl : ∀ n ∈ l, n < 128) : t.safeCount l = s.safeCount l :=
  congrArg List.length (List.filter_congr fun n hn => by rw [State.inSafe, State.inSafe, h.mode, h.chst (hl n hn)])

theorem Stays.safeObjChecks {o : SafeObj} (ho : objHere s.member o) : ∀ p ∈ safeObjChecks o t, p.2 = false := by
  cases o with
  | dev => simp [Machine.safeObjChecks]
  | grp g => exact grObj_passes (h.member ▸ ho)
  | ch r => exact chObj_passes (h.member ▸ ho.1) ho.2

end

theorem mem_grpChans_lt {g n : Nat} {m : Member} (hg : g < m.groups) (hn : n ∈ grpChans g) : n < 128 := by
  have := groups_le m
  have := mem_grpChans.1 hn
  omega

end Sys2Proof.Machine

open Sys2Proof Sys2Proof.Machine

/-- Settles O39: safe holds its cause only at the command, a release answers what it did, and safe get reads. -/
theorem safeLines : Obligations.SafeLines := by
  refine fun ln s hi => ⟨fun hp => ?safe, fun hp => ?_⟩
  case safe => exact does_acts rfl hp hi (fun u _ => by simp) rfl (((Mute.refl _).holdCause ..).clearCause ..)
  have ha := Stays.accepted noReg ln { locked := false } s
  refine ⟨fun o ho => ⟨?release, fun hd on => ?auto⟩, ?dev, fun g hg => ?grp, fun r hg hc => ?ch⟩
  case release =>
    exact does_passes (eff := releaseEffect o) rfl hp hi (fun u hu => hu.safeObjChecks ho)
      (congrArg Port.tx (((Mute.refl _).release o).port ln.ep))
  case auto =>
    exact does_acts rfl hp hi (fun u hu => List.forall_mem_append.2 ⟨hu.safeObjChecks ho, by simp [hd]⟩) (by rw [ha.relChans])
      ((Mute.refl _).setAutorel ..)
  case dev =>
    have hr := ha.regSafe (k := 0x30004) (by decide) (by decide)
    exact does_value rfl hp hi (fun u hu => hu.safeObjChecks (o := .dev) trivial) (by
      dsimp only
      rw [ha.sup, hr, ha.chans, ha.safeCount fun n hn => (mem_chans.1 hn).trans_le (channels_le _)])
  case grp =>
    have hg' := groups_le s.member
    have hr := ha.regSafe (k := aSafeGrp g) (by unfold aSafeGrp; omega) (by unfold aSafeGrp; omega)
    exact does_value rfl hp hi (fun u hu => hu.safeObjChecks (o := .grp g) hg) (by
      dsimp only
      rw [hr, ha.safeCount fun n hn => mem_grpChans_lt hg hn])
  case ch =>
    have hn := chRef_lt hg hc
    have hr := ha.regSafe (k := 0x30040 + 4 * (r.n / 32)) (by omega) (by omega)
    refine ⟨_, does_value rfl hp hi (fun u hu => hu.safeObjChecks (o := .ch r) ⟨hg, hc⟩) rfl, ?_⟩
    dsimp only
    rw [← ha.chst hn, ← State.flag_of_reg hr]
    exact ⟨List.mem_cons_self, List.mem_append_right _ (.tail _ (.tail _ (.head _)))⟩
end

section
/-!
PROOFS. The ring lines: what they read of a controller and its schedule, and what they write (R317 to R345, R358 to R384).
-/
namespace Sys2Proof.Machine

namespace Mute
variable {s t : State} (h : Mute s t)
include h

theorem endDisc : Mute s t.endDisc := h.trans ⟨rfl, rfl, rfl⟩
theorem ringTo (c st : Nat) : Mute s (ringTo c st t) := .setFld (.ite (h.setRg ..) h) ..
theorem nameEntries (c : Nat) : Mute s (nameEntries c t) := h.foldl _ fun _ u => (refl u).setFld ..
theorem ringListen (c : Nat) : Mute s (ringListen c t) := ((((h.ringTo c 1).nameEntries c).setReg ..).setRg ..)

theorem ringGo (c : Nat) : Mute s (ringGo c t) := .ite (((h.setReg ..).setFlag ..).setFlag .. |>.ringListen c) h

theorem ringStopped (c : Nat) : Mute s (ringStopped c t) :=
  have hs := (((h.ringTo c 5).setRg c _).setFlag ..).setFld ..
  .ite hs.endDisc hs

theorem ringStop (c : Nat) : Mute s (ringStop c t) := by
  unfold Machine.ringStop
  split
  · exact h
  · exact .ite (h.setRg ..) h
  · exact h.ringStopped c

theorem writeMap (c j cell : Nat) (k : MapKind) (n : Nat) : Mute s (writeMap c j cell k n t) := by
  unfold Machine.writeMap
  extract_lets clear t1 t2 t3
  have hclear (i : Nat) (u : State) : Mute u (clear i u) := .ite ((refl u).setReg ..) (.refl u)
  have h2 : Mute s t2 := .ite ((h.trans (hclear ..)).trans (hclear ..)) (h.trans (hclear ..))
  exact .ite ((h2.setReg ..).setReg ..) (h2.setReg ..)

theorem commitSlot (c n len : Nat) : Mute s (commitSlot c n len t) := h.setRg ..

theorem judgeAge (n : Nat) : Mute s (judgeAge n t) := .ite ((((h.chEvent ..).holdCh ..).setCh ..).holdFence _) h

theorem writeBind (n c slot cell limit : Nat) : Mute s (writeBind n c slot cell limit t) :=
  (((h.setReg ..).setReg ..).setCh ..).judgeAge n

theorem writePostab (c e : Nat) (uid : BitVec 128) (v : Nat) : Mute s (writePostab c e uid v t) :=
  (h.setReg ..).foldl _ fun _ u => (refl u).setReg ..

end Mute

/-! ### What is read of a controller -/

section
variable {e : Option Ep} {s t : State} (h : Stays e noReg s t)
include h

theorem Stays.regHigh {k : Nat} (hk : 0x71000 ≤ k) : t.reg k = s.reg k := h.reg k id (ioKey_high _ _ hk)

theorem Stays.slot (c n : Nat) : t.slot c n = s.slot c n := by
  unfold State.slot
  rw [h.regHigh (by unfold aSched; omega), h.regHigh (by unfold aSched; omega)]

theorem Stays.mapKind (c j i : Nat) : t.mapKind c j i = s.mapKind c j i :=
  State.fld_of_reg (h.regHigh (by unfold aMap; omega)) ..

theorem Stays.mapOk (c j len : Nat) : t.mapOk c j len = s.mapOk c j len := by
  unfold State.mapOk
  simp only [h.mapKind]

theorem Stays.bind {n : Nat} (hn : n < 128) : t.bind n = s.bind n := by
  have hfld (lo w : Nat) : t.fld (0x50800 + 8 * n) lo w = s.fld (0x50800 + 8 * n) lo w :=
    State.fld_of_reg (h.reg _ id (ioKey_skip _ _ (by omega) (by omega))) ..
  unfold State.bind
  rw [hfld, hfld, hfld]

theorem Stays.ageLimit {n : Nat} (hn : n < 128) : t.ageLimit n = s.ageLimit n := by
  have hreg : t.reg (0x50804 + 8 * n) = s.reg (0x50804 + 8 * n) :=
    h.reg _ id (ioKey_skip _ _ (by omega) (by omega))
  unfold State.ageLimit
  rw [State.fld_of_reg hreg]

theorem Stays.ringUnit (c : Nat) : t.fenced (ringUn c) = s.fenced (ringUn c) :=
  h.unit _ fun g k hg => by unfold ringUn at hg; split at hg <;> cases hg

theorem Stays.shadow : t.fenced .shadow = s.fenced .shadow := h.unit _ fun g k hg => by cases hg

section
variable {c : Nat} (hc : c < 2)
include hc

theorem Stays.regRgA {o : Nat} (ho : o < 0x100) (hne : o ≠ 0x30) : t.reg (rgA c o) = s.reg (rgA c o) :=
  h.reg _ id (by unfold ioKey rgA; omega)

theorem Stays.fldRgA {o : Nat} (ho : o < 0x100) (hne : o ≠ 0x30) (lo w : Nat) : t.fld (rgA c o) lo w = s.fld (rgA c o) lo w :=
  State.fld_of_reg (h.regRgA hc ho hne) ..

theorem Stays.flagRgA {o : Nat} (ho : o < 0x100) (hne : o ≠ 0x30) (i : Nat) : t.flag (rgA c o) i = s.flag (rgA c o) i :=
  State.flag_of_reg (h.regRgA hc ho hne) _

theorem Stays.nslot : t.nslot c = s.nslot c := h.fldRgA hc (by decide) (by decide) ..
theorem Stays.period : t.period c = s.period c := h.fldRgA hc (by decide) (by decide) ..
theorem Stays.role : t.role c = s.role c := h.fldRgA hc (by decide) (by decide) ..
theorem Stays.rank : t.rank c = s.rank c := h.fldRgA hc (by decide) (by decide) ..
theorem Stays.long : t.long c = s.long c := h.flagRgA hc (by decide) (by decide) _
theorem Stays.seg : t.seg c = s.seg c := by unfold State.seg; rw [h.regRgA hc (by decide) (by decide)]
theorem Stays.posm : t.posm c = s.posm c := h.fldRgA hc (by decide) (by decide) ..

theorem Stays.ownedBy (a : Node) : t.ownedBy c a = s.ownedBy c a := by
  unfold State.ownedBy
  simp only [h.nslot hc, h.slot]

theorem Stays.ordinal (n : Nat) : t.ordinal c n = s.ordinal c n := by
  unfold State.ordinal
  rw [h.slot, h.ownedBy hc]

theorem Stays.mapBad (slot cell : Nat) (k : MapKind) : t.mapBad c slot cell k = s.mapBad c slot cell k := by
  unfold State.mapBad
  simp only [h.slot, h.ordinal hc, h.nslot hc, h.mapKind]

theorem Stays.rxSlots : t.rxSlots c = s.rxSlots c := by
  unfold State.rxSlots
  simp only [h.nslot hc, h.slot]

theorem Stays.rxIdx (n : Nat) : t.rxIdx c n = s.rxIdx c n := by
  unfold State.rxIdx
  rw [h.rxSlots hc]

theorem Stays.bindOk (n cell : Nat) : t.bindOk c n cell = s.bindOk c n cell := by
  unfold State.bindOk
  rw [h.member, h.nslot hc, h.slot]

end

theorem Stays.bindTotal {n : Nat} (hn : n < 128) : t.bindTotal n = s.bindTotal n := by
  have hc : (s.bind n).1 < 2 := Nat.mod_lt _ (by decide)
  have hfld (r lo w : Nat) : t.fld (aRxStat (s.bind n).1 r + 4) lo w = s.fld (aRxStat (s.bind n).1 r + 4) lo w :=
    State.fld_of_reg (h.regHigh (by unfold aRxStat; omega)) ..
  unfold State.bindTotal
  rw [h.bind hn]
  dsimp only
  rw [h.bindOk hc, h.rxIdx hc, hfld, h.ch]

end

/-! ### The position, and what depends on it -/

theorem accepted_ring (ln : Line) (f : Form) (s : State) : (accepted ln f s).ring = s.ring := by
  have hrec (t : State) : (recLine ln.ep f.secret (takenBytes ln s) 0 t).ring = t.ring := by
    unfold recLine
    split
    · rfl
    · exact ((Stays.refl none noReg t).record ..).ring (by simp)
  have hcount (t : State) : (countSuffix ln t).ring = t.ring := by
    unfold countSuffix
    split <;> rfl
  unfold accepted taken takeLine
  rw [hrec, hcount]
  split
  · cases ln.ep <;> rfl
  · rfl

section
variable {e : Option Ep} {s t : State} (h : Stays e noReg s t) (hr : t.ring = s.ring) {c : Nat}
include h hr

omit h in
theorem rg_congr (c : Nat) : t.rg c = s.rg c := by rw [State.rg, State.rg, hr]

variable (hc : c < 2)
include hc

theorem Stays.ringPos : t.ringPos c = s.ringPos c := by
  have hid (k lo w : Nat) (hk : 0x71000 ≤ k) : t.fld k lo w = s.fld k lo w := State.fld_of_reg (h.regHigh hk) ..
  have htab : t.tablePos c = s.tablePos c := by
    unfold State.tablePos
    have hreg (x o : Nat) : t.reg (0x4002C000 + 0x2000 * c + 0x20 * x + o) = s.reg (0x4002C000 + 0x2000 * c + 0x20 * x + o) :=
      h.regHigh (by omega)
    have hreg0 (x : Nat) : t.reg (0x4002C000 + 0x2000 * c + 0x20 * x) = s.reg (0x4002C000 + 0x2000 * c + 0x20 * x) := hreg x 0
    simp only [hreg, hreg0, State.flag_of_reg (hreg _ _), h.uid, State.fld_of_reg (hreg _ _)]
  unfold State.ringPos
  rw [h.role hc, h.rank hc, h.posm hc, htab, rg_congr hr]

theorem Stays.fillOk (slot : Nat) : t.fillOk c slot = s.fillOk c slot := by
  unfold State.fillOk State.isOwn State.owned
  simp only [h.nslot hc, h.ringPos hr hc, h.ownedBy hc, h.seg hc, h.slot, h.ordinal hc]

theorem Stays.scanSlot (x : Scan) (n : Nat) : scanSlot t c x n = scanSlot s c x n := by
  unfold Machine.scanSlot State.roundN
  simp only [h.slot, h.ringPos hr hc, h.seg hc, h.nslot hc, h.period hc, h.long hc, h.mapOk,
    h.fldRgA hc (show 0x14 < 0x100 by decide) (by decide)]

theorem Stays.badSlot : t.badSlot c = s.badSlot c := by
  unfold State.badSlot
  rw [h.nslot hc, show Machine.scanSlot t c = Machine.scanSlot s c from funext fun x => funext fun n => h.scanSlot hr hc x n]

end

/-! ### The start of one controller -/

theorem ringStart_good {c : Nat} {t : State} (h : t.badSlot c = none ∨ t.ringSt c ≠ 5) : ringStart [c] t = (ringGo c t, .ok) := by
  by_cases h5 : t.ringSt c = 5
  · have hb := h.resolve_right (not_not_intro h5)
    simp [ringStart, h5, hb, forAll]
  · simp [ringStart, ringGo, h5, forAll]

theorem ringStart_bad {c n : Nat} {t : State} (h5 : t.ringSt c = 5) (hb : t.badSlot c = some n) :
    ringStart [c] t = (t.setFlag (rgA c 0x2C) 1 true, .errAt .range n) := by
  simp [ringStart, h5, hb]

/-! ### A line that passes its checks where it is accepted -/

section
variable {c : Instr} {ln : Line} {f : Form} {s v : State} {checks : State → List (Code × Bool)} {g : State → State}

/-- A line whose checks read what only the carrying of a line of MAIL may move. -/
theorem does_here {eff : State → State × Resp} (he : exec c s = done (runLine ln f checks eff s)) (hp : Passes ln f s) (hi : Inv s)
    (hc : ∀ p ∈ checks (accepted ln f s), p.2 = false) (ht : Mute (accepted ln f s) (eff (accepted ln f s)).1) :
    Does c ln (eff (accepted ln f s)).2 s (eff (accepted ln f s)).1 := by
  have hr := (runLine_passes hp hi.1 checks eff noPost hc).trans (runLine_passes hp hi.1 (fun _ => []) eff noPost (by simp)).symm
  exact does_passes (he.trans (congrArg done hr)) hp hi (by simp) (congrArg Port.tx (ht.port ln.ep))

/-- The same, of a line that acts and answers ok. -/
theorem does_acts_here (he : exec c s = done (runLine ln f checks (okay g) s)) (hp : Passes ln f s) (hi : Inv s)
    (hc : ∀ p ∈ checks (accepted ln f s), p.2 = false) (hg : g (accepted ln f s) = v) (ht : Mute (accepted ln f s) v) :
    Does c ln .ok s v := by
  subst hg
  exact does_here he hp hi hc ht

end

end Sys2Proof.Machine

open Sys2Proof Sys2Proof.Machine

/-- Settles O43: the ring lines write the registers of a stopped controller, start and stop it, fill its own slots and read. -/
theorem ringLines : Obligations.RingLines := by
  intro ln c s hi hcr
  have hc : c < 2 := hcr.trans_le (rings_le _)
  have hobj (u : State) (hu : Stays (some ln.ep) noReg s u) : ∀ p ∈ ringObj c u, p.2 = false := by
    simp [ringObj, hu.member, hc, hcr]
  refine ⟨fun hp hf1 hf2 => ?_, fun hp slot i k hs hk hik => ?rx, fun hp => ⟨?get, fun ch hg hch => ?bindget⟩⟩
  · have ha := Stays.accepted noReg ln {} s
    have hm := Mute.refl (accepted ln {} s)
    have hr := accepted_ring ln {} s
    have hsel (u : State) (hu : Stays (some ln.ep) noReg s u) : ∀ p ∈ ringObj c u ++ [ringFenced c u], p.2 = false :=
      List.forall_mem_append.2 ⟨hobj u hu, by simp [ringFenced, hu.ringUnit, hu.shadow, hf1, hf2]⟩
    refine ⟨?start, fun n hst hb => ?offending, ?stop, fun hst => ?_, fun slot hfill => ⟨fun cell vs hv hl hw => ?tx,
      fun l hl => ?commit, fun hk => ?commitAll⟩, ?evoff, fun v h0 h1 => ?evon,
      fun ch slot cell lim hg hch hout harm hs hcell h0 h1 hb => ?bind⟩
    case start =>
      intro hb
      have he := ringStart_good (t := accepted ln {} s) (by rwa [ha.badSlot hr hc, ha.ringSt c hc])
      have hd := does_here (c := .ringStart ln (some c)) (eff := ringStart [c]) rfl hp hi (hsel _ ha) (by rw [he]; exact hm.ringGo c)
      rwa [he] at hd
    case offending =>
      have he := ringStart_bad (t := accepted ln {} s) ((ha.ringSt c hc).trans hst) ((ha.badSlot hr hc).trans hb)
      have hd := does_here (c := .ringStart ln (some c)) (eff := ringStart [c]) rfl hp hi (hsel _ ha) (by rw [he]; exact hm.setFlag ..)
      rwa [he] at hd
    case stop => exact does_acts rfl hp hi hsel rfl (hm.ringStop c)
    case tx =>
      refine does_acts_here rfl hp hi (List.forall_mem_append.2 ⟨hobj _ ha, ?_⟩) rfl (hm.foldl _ fun _ u => (Mute.refl u).setReg ..)
      have hw' : ∀ x ∈ vs, x < 4294967296 := hw
      simpa [ringFenced, ha.ringUnit, ha.shadow, hf1, hf2, hv, ha.fillOk hr hc, hfill, hl] using hw'
    case commit =>
      refine does_acts_here rfl hp hi (List.forall_mem_append.2 ⟨hobj _ ha, ?_⟩) rfl (hm.commitSlot ..)
      simp [ringFenced, ha.ringUnit, ha.shadow, hf1, hf2, ha.slot, ha.fillOk hr hc, hfill, hl]
    case commitAll =>
      refine does_acts_here rfl hp hi (List.forall_mem_append.2 ⟨hobj _ ha, ?_⟩) (by rw [ha.slot]; rfl) (hm.commitSlot ..)
      simp [ringFenced, ha.ringUnit, ha.shadow, hf1, hf2, ha.slot, ha.fillOk hr hc, hfill, hk]
    case evoff =>
      exact does_acts rfl hp hi (fun u hu => List.forall_mem_append.2 ⟨hobj u hu, by simp⟩) rfl (hm.setFlag ..)
    case evon =>
      exact does_acts rfl hp hi (fun u hu => List.forall_mem_append.2 ⟨hobj u hu, by simp; omega⟩) rfl ((hm.setFlag ..).setFld ..)
    case bind =>
      refine does_acts_here rfl hp hi (List.forall_mem_append.2 ⟨List.forall_mem_append.2
        ⟨chObj_passes (ha.member ▸ hg) hch, hobj _ ha⟩, ?_⟩) rfl (hm.writeBind ..)
      have hbind : (s.schedOk c && !s.bindOk c slot cell) = false := by
        rcases hb with hb | hb <;> simp [State.schedOk, hb]
      have hsched : (accepted ln {} s).schedOk c = s.schedOk c := by rw [State.schedOk, State.schedOk, ha.badSlot hr hc]
      simp only [ha.mode, hout, ha.sup, harm, hsched, ha.bindOk hc, hbind]
      simp
      omega
    · have hck (u : State) (hu : Stays (some ln.ep) noReg s u) : ∀ p ∈ rwsChecks c u, p.2 = false :=
        List.forall_mem_append.2 ⟨hobj u hu, by simp [ringFenced, hu.ringUnit, hu.shadow, hf1, hf2, rws, hu.ringSt c hc]; tauto⟩
      refine ⟨fun long => ?line, fun q hq h0 h1 => ?period, fun n hn => ?slots, fun n hn => ?margin,
        fun slot k owner len start rx h0 h1 h2 => ?slot, fun slot cell k hb => ⟨fun r hg hch => ?mapTo, ?map⟩,
        fun i q h0 h1 hq h2 h3 => ?hop⟩
      case line => exact does_acts rfl hp hi hck rfl (hm.setFlag ..)
      case period =>
        exact does_acts rfl hp hi (fun u hu => List.forall_mem_append.2 ⟨hck u hu, by simp [hq, outside]; omega⟩) rfl (hm.setFld ..)
      case slots => exact does_acts rfl hp hi (fun u hu => List.forall_mem_append.2 ⟨hck u hu, by simp; omega⟩) rfl (hm.setFld ..)
      case margin => exact does_acts rfl hp hi (fun u hu => List.forall_mem_append.2 ⟨hck u hu, by simp; omega⟩) rfl (hm.setFld ..)
      case slot =>
        exact does_acts rfl hp hi (fun u hu => List.forall_mem_append.2 ⟨hck u hu, by simp; omega⟩) rfl ((hm.setReg ..).setReg ..)
      case mapTo =>
        exact does_acts rfl hp hi (fun u hu => List.forall_mem_append.2 ⟨List.forall_mem_append.2 ⟨hck u hu,
          chObj_passes (hu.member ▸ hg) hch⟩, by simp [hu.mapBad hc, hb]⟩) (by rw [ha.ordinal hc]; rfl) (hm.writeMap ..)
      case map =>
        exact does_acts rfl hp hi (fun u hu => List.forall_mem_append.2 ⟨List.forall_mem_append.2 ⟨hck u hu, by simp⟩, by
          simp [hu.mapBad hc, hb]⟩) (by
          rw [ha.ordinal hc]
          exact congrArg (writeMap _ _ _ _ · _) (State.fld_of_reg (ha.regHigh (by unfold aMap; omega)) ..)) (hm.writeMap ..)
      case hop =>
        exact does_acts rfl hp hi (fun u hu => List.forall_mem_append.2 ⟨hck u hu, by simp [hq, outside]; omega⟩) rfl (hm.setReg ..)
  case rx =>
    have ha := Stays.accepted noReg ln {} s
    have hfld (r o lo w : Nat) : (accepted ln {} s).fld (aRxStat c r + o) lo w = s.fld (aRxStat c r + o) lo w :=
      State.fld_of_reg (ha.regHigh (by unfold aRxStat; omega)) ..
    have hfld0 (r lo w : Nat) : (accepted ln {} s).fld (aRxStat c r) lo w = s.fld (aRxStat c r) lo w := hfld r 0 lo w
    have hcell (r j : Nat) : (accepted ln {} s).reg (aRxCell c r j) = s.reg (aRxCell c r j) :=
      ha.regHigh (by unfold aRxCell; omega)
    exact does_value rfl hp hi (fun u hu => List.forall_mem_append.2 ⟨hobj u hu, by
      simp only [hu.rxSlots hc, hs]
      simp
      omega⟩) (by
      simp only [ha.rxIdx hc, hfld, hfld0, hcell]
      rfl)
  case get =>
    have ha := Stays.accepted noReg ln { locked := false } s
    refine ⟨_, does_value rfl hp hi hobj rfl, ?_⟩
    rw [← ha.ringSt c hc, ← ha.regRgA hc (by decide) (by decide), ← ha.nslot hc]
    simp
  case bindget =>
    have ha := Stays.accepted noReg ln { locked := false } s
    exact does_value rfl hp hi (fun u hu => chObj_passes (hu.member ▸ hg) hch) (by
      have hn := chRef_lt hg hch
      rw [ha.bind hn, ha.ageLimit hn, ha.bindTotal hn])
end

section
/-!
PROOFS. The lines that set up a Ringlet controller, and the lines that a check of their form refuses (R358 to R384).
-/
namespace Sys2Proof.Machine

/-! ### A line that a check of its form refuses -/

theorem gateLine_refused {ln : Line} {f : Form} {s : State} {c : Code} (hp : Passes ln f s) (refusal : State → Option Code)
    (go : State → State) (hr : refusal (accepted ln f s) = some c) :
    gateLine ln f refusal go s = answer ln (.err c) (accepted ln f s) := by
  have he : gateLine ln f refusal go s = gateLine ln f (fun _ => none)
      (fun t => match refusal t with | some c => answer ln (.err c) t | none => go t) s := rfl
  rw [he, gateLine_passes hp _ _ rfl, hr]

theorem pick_append_none {a b : List (Code × Bool)} (h : ∀ p ∈ a, p.2 = false) : pick (a ++ b) = pick b := by
  induction a with
  | nil => rfl
  | cons p a ih =>
    obtain ⟨c, v⟩ := p
    obtain rfl : v = false := h _ List.mem_cons_self
    exact ih fun q hq => h q (List.mem_cons_of_mem _ hq)

/-- A line refused by the first of its form's checks that fails changes nothing, and is answered with the code. -/
theorem does_refused {i : Instr} {ln : Line} {f : Form} {s : State} {c : Code} {checks : State → List (Code × Bool)}
    {eff : State → State × Resp} (he : exec i s = done (runLine ln f checks eff s)) (hp : Passes ln f s) (hi : Inv s)
    (hc : pick (checks (accepted ln f s)) = some c) : Does i ln (.err c) s (accepted ln f s) := by
  have hr : runLine ln f checks eff s = runLine ln f (fun _ => []) (fun t => (t, .err c)) s := by
    rw [runLine_passes hp hi.1 (fun _ => []) _ noPost (by simp)]
    exact gateLine_refused hp (fun t => pick (baseChecks ln f t ++ checks t)) (fun t => noPost (answer ln (eff t).2 (eff t).1)) ((pick_append_none (hp.base hi.1)).trans hc)
  exact does_passes (eff := fun t => (t, .err c)) (he.trans (congrArg done hr)) hp hi (by simp) rfl

end Sys2Proof.Machine

open Sys2Proof Sys2Proof.Machine

/-- Settles O46: each line is one write of the registers of a controller, of a table or of a reach map, and the get lines read. -/
theorem ringSetup : Obligations.RingSetup := by
  intro ln c s hi hcr
  have hc : c < 2 := hcr.trans_le (rings_le _)
  have hobj (u : State) (hu : Stays (some ln.ep) noReg s u) : ∀ p ∈ ringObj c u, p.2 = false := by
    simp [ringObj, hu.member, hc, hcr]
  refine ⟨fun hp => ?_, fun hp => ⟨?sleep, fun port hport => ?port⟩⟩
  · have ha := Stays.accepted noReg ln {} s
    have hm := Mute.refl (accepted ln {} s)
    refine ⟨fun q hq h0 h1 => ?rho, fun port hport => ?clear, fun hf2 hf1 hst => ?_, fun hf2 hst0 hst1 => ?_⟩
    case rho =>
      exact does_acts rfl hp hi (fun u hu => List.forall_mem_append.2 ⟨hobj u hu, by simp [hq, outside]; omega⟩) rfl (hm.setFld ..)
    case clear =>
      exact does_acts rfl hp hi (fun u hu => List.forall_mem_append.2 ⟨hobj u hu, by simp; omega⟩) rfl
        (((hm.setReg ..).setReg ..).setReg ..)
    · have hck (u : State) (hu : Stays (some ln.ep) noReg s u) : ∀ p ∈ rwsChecks c u, p.2 = false :=
        List.forall_mem_append.2 ⟨hobj u hu, by simp [ringFenced, hu.ringUnit, hu.shadow, hf1, hf2, rws, hu.ringSt c hc]; tauto⟩
      refine ⟨?tk, ?follower, fun k h0 h1 => ?backup, fun n hn => ?seg, fun p => ?posm, fun e he => ⟨?forget, fun u p h0 h1 => ?place⟩⟩
      case tk => exact does_acts rfl hp hi (fun u hu => List.forall_mem_append.2 ⟨hck u hu, by simp⟩) rfl (hm.setFld ..)
      case follower => exact does_acts rfl hp hi (fun u hu => List.forall_mem_append.2 ⟨hck u hu, by simp⟩) rfl (hm.setFld ..)
      case backup => exact does_acts rfl hp hi (fun u hu => List.forall_mem_append.2 ⟨hck u hu, by simp; omega⟩) rfl (hm.setFld ..)
      case seg => exact does_acts rfl hp hi (fun u hu => List.forall_mem_append.2 ⟨hck u hu, by simp; omega⟩) rfl (hm.setFld ..)
      case posm => exact does_acts rfl hp hi hck (by cases p <;> rfl) (hm.setFld ..)
      case forget => exact does_acts rfl hp hi (fun u hu => List.forall_mem_append.2 ⟨hck u hu, by simp; omega⟩) rfl (hm.writePostab ..)
      case place => exact does_acts rfl hp hi (fun u hu => List.forall_mem_append.2 ⟨hck u hu, by simp; omega⟩) rfl (hm.writePostab ..)
    · have hboth (u : State) (hu : Stays (some ln.ep) noReg s u) : ∀ p ∈ rwsBoth u, p.2 = false := by
        simp [rwsBoth, rws, hu.ringSt 0 (by decide), hu.ringSt 1 (by decide), hu.shadow, hf2]
        tauto
      refine ⟨fun on b h2 => ?bridge, fun on b h2 => ?single, fun e src slot cell n j d hs h2 => ?absent,
        fun e src slot cell n j d hs h2 he hsl hce hn hn' hj hd => ?entry, fun down seg on hseg => ?reach⟩
      case bridge =>
        exact does_acts rfl hp hi hboth (if_neg (by rw [ha.member]; omega)) ((hm.setFlag ..).setFlag ..)
      case single => exact does_acts rfl hp hi hboth (if_pos (by rwa [ha.member])) hm
      case absent =>
        refine does_refused rfl hp hi ((pick_append_none (hboth _ ha)).trans ?_)
        have hrank : ∀ b : Bool, pick [(.arg, false), (.absent, true), (.range, b)] = some .absent := by decide
        rw [← hrank, ha.member, decide_eq_true h2, decide_eq_false (Nat.not_le.2 hs)]
      case entry =>
        exact does_acts rfl hp hi (fun u hu => List.forall_mem_append.2 ⟨hboth u hu, by simp [hu.member]; omega⟩) rfl
          ((hm.setReg ..).setReg ..)
      case reach => exact does_acts rfl hp hi (fun u hu => List.forall_mem_append.2 ⟨hboth u hu, by simp; omega⟩) rfl (hm.setFlag ..)
  case sleep =>
    have ha := Stays.accepted noReg ln { locked := false } s
    have htrim : (accepted ln { locked := false } s).sleepTrim = s.sleepTrim :=
      congrArg BitVec.toInt (ha.reg 0x10018 id (ioKey_sys _ _ (by decide)))
    exact does_value rfl hp hi hobj (by
      rw [htrim, ha.flagRgA hc (by decide) (by decide), ha.fldRgA hc (by decide) (by decide), ha.regRgA hc (by decide) (by decide),
        ha.fldRgA hc (by decide) (by decide)])
  case port =>
    have ha := Stays.accepted noReg ln { locked := false } s
    have hreg (o : Nat) (ho : o < 0x20) : (accepted ln { locked := false } s).reg (rpA c port o) = s.reg (rpA c port o) :=
      ha.regRgA hc (by omega) (by omega)
    refine ⟨_, does_value rfl hp hi (fun u hu => List.forall_mem_append.2 ⟨hobj u hu, by simp; omega⟩) rfl, ?_⟩
    rw [← State.flag_of_reg (hreg 0 (by decide)), ← State.flag_of_reg (hreg 0 (by decide)), ← State.fld_of_reg (hreg 8 (by decide))]
    simp
end

section
/-!
PROOFS. The lines of the profile flash and of the record flash (R187, R398, R412 to R433, R442 to R458).
-/
namespace Sys2Proof.Machine

/-! ### Reads of the profile flash -/

theorem regated_setReg (s : State) (k : Nat) (v : Word) : Regated s (s.setReg k v) := ⟨_, _, _, _, rfl⟩

/-- A read of a word raises what its check finds, and changes no store. -/
theorem regated_pfRead (a : Nat) (s : State) : Regated s (pfRead a s).2 := by
  unfold pfRead
  extract_lets b w t
  split
  · exact .refl s
  · split
    · exact .refl s
    · split
      · exact .refl s
      · exact regated_setFlag ..
      · exact ((regated_setFlag ..).trans (regated_setReg ..)).trans (regated_emit ..)

theorem Regated.pf {s t : State} (h : Regated s t) : t.pf = s.pf := by obtain ⟨_, _, _, _, rfl⟩ := h; rfl
theorem Regated.session {s t : State} (h : Regated s t) : t.session = s.session := by obtain ⟨_, _, _, _, rfl⟩ := h; rfl

theorem regated_readSlot (slot : Nat) (s : State) : Regated s (readSlot slot s) := by
  have hl (l : List Nat) : ∀ t, Regated s t → Regated s (l.foldl (fun t a => (pfRead a t).2) t) := by
    induction l with
    | nil => exact fun _ h => h
    | cons a l ih => exact fun t h => ih _ (h.trans (regated_pfRead a t))
  exact hl _ s (.refl s)

theorem pfRead_value {s t : State} (h : t.pf = s.pf) (a : Nat) : (pfRead a t).1 = (pfRead a s).1 := by
  have hw (x : Nat) : t.pfWord x = s.pfWord x := by rw [State.pfWord, State.pfWord, h]
  unfold pfRead
  simp only [hw]
  split
  · rfl
  · split
    · rfl
    · split <;> rfl

/-! ### What is read of the flashes -/

section
variable {e : Option Ep} {s t : State} (h : Stays e noReg s t)
include h

theorem Stays.pfBusy (b : Nat) : t.pfBusy b = s.pfBusy b := by rw [State.pfBusy, State.pfBusy, State.pfOp, State.pfOp, h.pf]
theorem Stays.pfWord (a : Nat) : t.pfWord a = s.pfWord a := by rw [State.pfWord, State.pfWord, h.pf]
theorem Stays.pfSeq (b : Nat) : t.pfSeq b = s.pfSeq b := by rw [State.pfSeq, State.pfSeq, h.pf]
theorem Stays.ladder (n : Nat) : t.ladder n = s.ladder n := by rw [State.ladder, State.ladder, h.pf]

theorem Stays.guarded (a : Nat) : t.guarded a = s.guarded a := by
  rw [State.guarded, State.guarded, State.isProtected, State.isProtected, h.pwSet, h.pfWord, h.session]

theorem Stays.sealed (n : Nat) : t.sealed n = s.sealed n := by rw [State.sealed, State.sealed, h.pfWord]

theorem Stays.slotCrc (n : Nat) : t.slotCrc n = s.slotCrc n := by
  unfold State.slotCrc
  simp only [h.pfWord]

theorem Stays.slotGen (n : Nat) : t.slotGen n = s.slotGen n := by
  unfold State.slotGen
  simp only [h.pfWord]

theorem Stays.newGen : t.newGen = s.newGen := by
  unfold State.newGen
  simp only [h.sealed, h.slotGen]

theorem Stays.pfChecks {b : Nat} (hf : s.fenced .pflash = false) (hb : s.pfBusy b = false) : ∀ p ∈ pfChecks b t, p.2 = false := by
  simp [Machine.pfChecks, h.pfBusy, hb, h.unit .pflash (fun _ _ => nofun), hf]

theorem Stays.hasUnit (u : Un) : t.hasUnit u = s.hasUnit u := by
  cases u <;> simp only [State.hasUnit, h.member]

theorem Stays.katAge (u : Nat) : t.katAge u = s.katAge u := by rw [State.katAge, State.katAge, h.clk, h.kat]

theorem Stays.setPfWho (b : Nat) (l : Option Line) : Stays e noReg (setPfWho b l s) (setPfWho b l t) := by
  rw [Machine.setPfWho, Machine.setPfWho, h.pf]
  exact h.withPf _

theorem Stays.setPfOp (b : Nat) (k : Option PfKind) : Stays e noReg (setPfOp b k s) (setPfOp b k t) := by
  rw [Machine.setPfOp, Machine.setPfOp, h.pf]
  exact h.withPf _

end

theorem profErase_idle {b : Nat} {op : String} {k : PfKind} {s : State} (h : (s.pfSeq b).step = 0) :
    profErase b op k s = setPfOp b (some k) s := if_neg (not_not_intro h)

theorem Mute.setPfOp {s t : State} (h : Mute s t) (b : Nat) (k : Option PfKind) : Mute s (setPfOp b k t) := h.trans ⟨rfl, rfl, rfl⟩

theorem setPfWho_pfWord (b : Nat) (l : Option Line) (s : State) (a : Nat) : (setPfWho b l s).pfWord a = s.pfWord a := rfl
theorem setPfWho_pwSet (b : Nat) (l : Option Line) (s : State) : (setPfWho b l s).pwSet = s.pwSet := rfl
theorem setPfWho_newGen (b : Nat) (l : Option Line) (s : State) : (setPfWho b l s).newGen = s.newGen := rfl

/-- A record beside what a line did. -/
theorem Does.unrecorded {c : Instr} {ln : Line} {r : Resp} {s t : State} {kind src flag : Nat} {p : List Word}
    (h : Does c ln r s (t.record kind src flag p)) : Does c ln r s t := by
  obtain ⟨u, hrun, hans, hst, hev⟩ := h
  rw [record_evNew] at hev
  exact ⟨u, hrun, hans, ((Stays.refl _ noReg t).record ..).trans hst, hev⟩

/-! ### Lines that wait for an operation -/

section
variable {ln : Line} {f : Form} {s : State} {checks : State → List (Code × Bool)}

theorem startLine_passes (hp : Passes ln f s) (hi : Inv s) (go : State → State)
    (hc : ∀ p ∈ checks (accepted ln f s), p.2 = false) :
    startLine ln f checks go s = go (addTag ln none (accepted ln f s)) := by
  unfold startLine
  refine gateLine_passes hp _ _ ((pick_eq_none _).2 fun p hm => ?_)
  rcases List.mem_append.1 hm with h | h
  · exact hp.base hi.1 p h
  · exact hc p h

/-- A line that starts an operation keeps its bank until the operation ends. -/
theorem starts_op {b : Nat} {go : State → State} {v : State} (hp : Passes ln f s) (hi : Inv s)
    (hc : ∀ p ∈ checks (accepted ln f s), p.2 = false) (hq : (s.pfSeq b).step = 0)
    (hg : ∀ u, Stays (some ln.ep) noReg s u →
      Stays (some ln.ep) noReg v (go (setPfWho b (some ln) u))) :
    ∃ t, done (startLine ln f checks (profStart b ln go) s) = .next t ∧ Stays (some ln.ep) noReg v t := by
  have ha := (Stays.accepted noReg ln f s).addTag ln none
  refine ⟨_, rfl, ?_⟩
  rw [startLine_passes hp hi _ hc, profStart, if_neg (not_not_intro ((congrArg PfSeq.step (ha.pfSeq b)).trans hq))]
  exact (hg _ ha).flush

end

/-! ### The record flash -/

theorem mute_rfReport (b blk p : Nat) (r : PageRead) (erased : Bool) (s : State) : Mute s (rfReport b blk p r erased s) := by
  unfold rfReport
  extract_lets t1 t2 t3 ev t4
  have h1 : Mute s t1 := ((((Mute.refl s).setFld ..).setFld ..).setFlag ..).setFld ..
  have h2 : Mute s t2 := (h1.setFlag ..).record ..
  have h3 : Mute s t3 := .ite (h2.setFlag ..) h2
  have h4 : Mute s t4 := .ite (h3.emit ..) h3
  exact .ite ((h4.setFlag ..).emit ..) h4

namespace Mute
variable {s t : State} (h : Mute s t)
include h

theorem withRf (r : RFlash) : Mute s { t with rf := r } := h.trans ⟨rfl, rfl, rfl⟩
theorem tableDue : Mute s (tableDue t) := .ite ((h.withRf _).setFlag ..) (h.withRf _)
theorem markBad (n : Nat) (why : String) : Mute s (markBad n why t) := .ite h ((h.withRf _).emit ..).tableDue
theorem setRfOp (b : Nat) (o : Option RfOp) : Mute s (setRfOp b o t) := h.withRf _

theorem readPage (b blk p : Nat) (r : PageRead) : Mute s (readPage b blk p r t).2 := by
  unfold Machine.readPage
  extract_lets x erased r' flash u
  have hu : Mute s u := .ite (h.trans ⟨rfl, rfl, rfl⟩) (h.withRf _)
  exact hu.trans (mute_rfReport ..)

end Mute

section
variable {e : Option Ep} {s t : State} (h : Stays e noReg s t)
include h

theorem Stays.rfBad (n : Nat) : t.rfBad n = s.rfBad n := by rw [State.rfBad, State.rfBad, h.rf]
theorem Stays.rfCount (n : Nat) : t.rfCount n = s.rfCount n := by rw [State.rfCount, State.rfCount, h.rf]
theorem Stays.rfBusy (b : Nat) : t.rfBusy b = s.rfBusy b := by rw [State.rfBusy, State.rfBusy, State.rfOp, State.rfOp, h.rf]

theorem Stays.badBlocks : t.badBlocks = s.badBlocks := by
  unfold State.badBlocks State.rfBlocks
  simp only [h.rfBad, h.member]

theorem Stays.readPage_fst (b blk p : Nat) (r : PageRead) : (readPage b blk p r t).1 = (readPage b blk p r s).1 := by
  have hr := h.regHigh (k := 0x80100) (by decide)
  unfold readPage State.rfRead State.rfPage
  simp only [h.rf, h.member, State.flag_of_reg hr, State.fld_of_reg hr]

theorem Stays.rfObj {b blk p : Nat} (hb : b < s.member.banks) (hblk : blk < 64) (hp : p < 256) : ∀ q ∈ rfObj b blk p t, q.2 = false := by
  simp [Machine.rfObj, h.member]
  omega

theorem Stays.rflash : t.fenced .rflash = s.fenced .rflash := h.unit _ fun _ _ => nofun

theorem Stays.rfWriteChecks {b blk p : Nat} (hb : b < s.member.banks) (hblk : blk < 64) (hp : p < 256) (hf : s.fenced .rflash = false)
    (hbusy : s.rfBusy b = false) (hbad : s.rfBad (rfBlock b blk) = false) (hcl : s.flag 0x80104 b = false)
    (h01 : b ≠ 0 ∨ 2 ≤ blk) (hup : s.sup.holdupLow = false) : ∀ q ∈ rfWriteChecks b blk p t, q.2 = false := by
  refine List.forall_mem_append.2 ⟨h.rfObj hb hblk hp, ?_⟩
  have hr := State.flag_of_reg (h.regHigh (k := 0x80104) (by decide)) b
  have h01' : (decide (b = 0) && decide (blk < 2)) = false := by
    rcases h01 with h0 | h2
    · simp [h0]
    · simp [Nat.not_lt.2 h2]
  simp only [h.rflash, hf, h.rfBad, hbad, hr, hcl, h01', h.rfBusy, hbusy, h.sup, hup]
  simp

end

end Sys2Proof.Machine

open Sys2Proof Sys2Proof.Machine

/-- Settles O52: program and erase start an operation in their bank, read fills the buffer, and the others write or read. -/
theorem recordFlashLines : Obligations.RecordFlashLines := by
  refine fun ln s hi => ⟨fun hp => ⟨?get, fun b blk hb hblk => ?block⟩, fun hp hf => ?_⟩
  case get =>
    have ha := Stays.accepted noReg ln { locked := false } s
    refine ⟨_, does_value rfl hp hi (fun u _ => by simp) rfl, ?_⟩
    rw [← ha.member, ← ha.badBlocks, ← ha.regHigh (k := 0x80108) (by decide)]
    simp
  case block =>
    have ha := Stays.accepted noReg ln { locked := false } s
    exact does_value rfl hp hi (fun u hu => hu.rfObj hb hblk (by decide)) (by simp only [ha.rfCount, ha.rf])
  have ha := Stays.accepted noReg ln {} s
  have hm := Mute.refl (accepted ln {} s)
  have hck (u : State) (hu : Stays (some ln.ep) noReg s u) : ∀ p ∈ [(Code.fenced, u.fenced .rflash)], p.2 = false := by
    simp [hu.rflash, hf]
  refine ⟨fun off h32 hoff => ?hex, ?auto, fun r => ?retry, ?sync, fun b blk hb hblk => ⟨?bad, fun hbusy p hp256 => ⟨fun r => ?read,
    fun hbad hcl h01 hup => ⟨?program, ?erase⟩⟩⟩⟩
  case hex =>
    have hd := does_passes (c := .rflashHex ln off) (s := s) rfl hp hi (fun u hu => by simp [hu.rflash, hf]; omega)
      (congrArg Port.tx ((hm.record ..).port ln.ep))
    dsimp only at hd
    rwa [ha.rf] at hd
  case auto => exact does_acts rfl hp hi hck rfl (hm.setFlag ..)
  case retry => exact does_acts rfl hp hi hck rfl ((hm.setFlag ..).setFld ..)
  case sync => exact does_acts rfl hp hi hck rfl hm.tableDue
  case bad =>
    exact does_acts rfl hp hi (fun u hu => List.forall_mem_append.2 ⟨hu.rfObj hb hblk (by decide), hck u hu⟩) rfl (hm.markBad ..)
  case read =>
    have hd := does_passes (c := .rflashRead ln b blk p r) (s := s) rfl hp hi (fun u hu => List.forall_mem_append.2
      ⟨hu.rfObj hb hblk hp256, by simp [hu.rflash, hf, hu.rfBusy, hbusy]⟩) (congrArg Port.tx ((hm.readPage ..).port ln.ep))
    refine ⟨_, hd, ?_⟩
    rw [← ha.readPage_fst]
    simp
  case program =>
    exact does_acts rfl hp hi (fun u hu => hu.rfWriteChecks hb hblk hp256 hf hbusy hbad hcl h01 hup)
      (by rw [hostProgram, ha.rf]) (hm.setRfOp ..)
  case erase =>
    exact does_acts rfl hp hi (fun u hu => hu.rfWriteChecks hb hblk (by decide) hf hbusy hbad hcl h01 hup) rfl (hm.setRfOp ..)
end

section
/-!
PROOFS. The rec lines (R462 to R491): the copy to the record flash and the entry into a replay leave the ports.
-/
namespace Sys2Proof.Machine

/-! ### What the copy of a capsule leaves -/

/-- The registers of the modes and of the ratings of the load switches, on which the modes that a channel may take depend. -/
def modeReg (k : Nat) : Prop := ∃ n, n < 128 ∧ (k = chA n 0 ∨ k = chA n 0x140)

theorem not_modeReg_low {k : Nat} (h : k < 0x10000000) : ¬ modeReg k := by
  rintro ⟨n, _, rfl | rfl⟩ <;> unfold chA at h <;> omega

theorem not_modeReg_chA (n : Nat) {o : Nat} (ho : o < 0x1000 ∧ o ≠ 0 ∧ o ≠ 0x140) : ¬ modeReg (chA n o) := by
  rintro ⟨m, _, h | h⟩ <;> unfold chA at h <;> omega

theorem not_modeReg_gate {n k : Nat} (hn : n < 128) (h : gateReg n k) : ¬ modeReg k := by
  obtain rfl | rfl := h
  · exact not_modeReg_chA n (by omega)
  · exact not_modeReg_low (by unfold aSafeCh; omega)

theorem not_modeReg_safe {l : List Nat} (hl : ∀ n ∈ l, n < 128) {k : Nat} (h : safeReg l k) : ¬ modeReg k := by
  obtain ⟨n, hn, rfl | rfl | rfl⟩ := h
  · have := hl n hn; exact not_modeReg_low (by unfold aChst; omega)
  · exact not_modeReg_chA n (by omega)
  · have := hl n hn; exact not_modeReg_low (by unfold aSafeCh; omega)

theorem lt_of_mem_chans {n : Nat} {s : State} (h : n ∈ s.chans) : n < 128 := by
  have := List.mem_range.1 h
  have := channels_le s.member
  omega

/-- From s to t the ports, the watchdog, the replay in progress and the registers of the modes stay, and the registers keep their canonical
form. -/
structure CopyLeaves (s t : State) : Prop extends Mute s t where
  replay : t.chrys.replay = s.chrys.replay
  wdog   : t.wdog = s.wdog
  modes  : ∀ k, modeReg k → t.reg k = s.reg k
  canon  : swf resetWord s.regs = true → swf resetWord t.regs = true

namespace CopyLeaves
variable {s t u : State}

theorem refl (s : State) : CopyLeaves s s := ⟨.refl s, rfl, rfl, fun _ _ => rfl, id⟩
theorem trans (h : CopyLeaves s t) (g : CopyLeaves t u) : CopyLeaves s u :=
  ⟨h.toMute.trans g.toMute, g.replay.trans h.replay, g.wdog.trans h.wdog, fun k hk => (g.modes k hk).trans (h.modes k hk), g.canon ∘ h.canon⟩

theorem ite {a b : State} {c : Prop} [Decidable c] (ha : CopyLeaves s a) (hb : CopyLeaves s b) : CopyLeaves s (if c then a else b) := by
  split
  · exact ha
  · exact hb

theorem foldl {β : Type _} {f : State → β → State} (l : List β) (h : CopyLeaves s t) (hf : ∀ x ∈ l, ∀ u, CopyLeaves u (f u x)) :
    CopyLeaves s (l.foldl f t) := by
  induction l generalizing t with
  | nil => exact h
  | cons x l ih => exact ih (h.trans (hf x List.mem_cons_self t)) fun y hy => hf y (List.mem_cons_of_mem x hy)

theorem of_moves {K C : Nat → Prop} (h : Moves K C s t) (hK : ∀ k, K k → ¬ modeReg k) : CopyLeaves s t := by
  refine ⟨h.rest.mute, ?_, ?_, fun k hk => h.reg k fun hc => hK k hc hk, h.canon⟩ <;> (obtain ⟨_, _, _, _, rfl⟩ := h.rest; rfl)

theorem withGates {f : State → State} {l : List Nat} (hl : ∀ n ∈ l, n < 128) (h : CopyLeaves s (f t)) : CopyLeaves s (withGates l f t) :=
  h.trans (.of_moves (moves_gates (K := fun k => ∃ n, n < 128 ∧ gateReg n k) (C := fun _ => True) f l t (fun n hn _ hk => ⟨n, hl n hn, hk⟩)
    fun _ _ => trivial) fun _ ⟨_, hn, hk⟩ => not_modeReg_gate hn hk)

section
variable (h : CopyLeaves s t)
include h

/-- A write beside what the frame names. -/
theorem step (hm : Mute t u) (hr : u.chrys.replay = t.chrys.replay) (hw : u.wdog = t.wdog) (hregs : u.regs = t.regs) : CopyLeaves s u :=
  h.trans ⟨hm, hr, hw, fun k _ => by rw [State.reg, State.reg, hregs], fun hc => hregs ▸ hc⟩

theorem setReg (k : Nat) (v : Word) (hk : ¬ modeReg k := by exact not_modeReg_low (by decide)) : CopyLeaves s (t.setReg k v) :=
  h.trans ⟨⟨rfl, rfl, rfl⟩, rfl, rfl, fun j hj => State.reg_setReg_other t k j v (by rintro rfl; exact hk hj), State.swf_setReg t k v⟩

theorem setFld (k lo w v : Nat) (hk : ¬ modeReg k := by exact not_modeReg_low (by decide)) : CopyLeaves s (t.setFld k lo w v) :=
  h.setReg _ _ hk
theorem setFlag (k i : Nat) (b : Bool) (hk : ¬ modeReg k := by exact not_modeReg_low (by decide)) : CopyLeaves s (t.setFlag k i b) :=
  h.setReg _ _ hk
theorem count (k : Nat) (hk : ¬ modeReg k := by exact not_modeReg_low (by decide)) : CopyLeaves s (t.count k) := h.setReg _ _ hk
theorem emit (c : Ev) (o : Obj) (d : List Fld) : CopyLeaves s (t.emit c o d) := h.step ⟨rfl, rfl, rfl⟩ rfl rfl rfl
theorem setRfOp (b : Nat) (o : Option RfOp) : CopyLeaves s (setRfOp b o t) := h.step ⟨rfl, rfl, rfl⟩ rfl rfl rfl
theorem withChrys (c : Chrys) (hc : c.replay = t.chrys.replay := by rfl) : CopyLeaves s { t with chrys := c } :=
  h.step ⟨rfl, rfl, rfl⟩ hc rfl rfl
theorem setCap (c : Option Cap) : CopyLeaves s (Machine.setCap c t) := h.withChrys _
theorem trigLost (k : Nat) : CopyLeaves s (t.trigLost k) := (h.setFld ..).emit ..

theorem record (kind src flag : Nat) (p : List Word) : CopyLeaves s (t.record kind src flag p) := by
  have hr := (Stays.refl none noReg t).record kind src flag p
  refine h.trans ⟨(Mute.refl t).record .., hr.dir.2.1, hr.wdog, fun k hk => hr.reg k id fun hio => ?_, hr.canon⟩
  refine not_modeReg_low ?_ hk
  unfold ioKey at hio
  simp at hio
  omega

theorem holdFence {l : List Nat} (hl : ∀ n ∈ l, n < 128) : CopyLeaves s (holdFence l t) :=
  h.foldl l fun n hn u => .ite (.of_moves (moves_holdCh 13 n u) fun _ hk => not_modeReg_safe (by simpa using hl n hn) hk) (.refl u)

theorem startCapsule (x : Trg) : CopyLeaves s (t.startCapsule x) := by
  unfold State.startCapsule
  extract_lets id pre
  split
  · exact h
  · exact (((h.setReg ..).setFld ..).withChrys _).emit ..

theorem trigger (k : Nat) (o : BitVec 16) : CopyLeaves s (t.trigger k o) := by
  unfold State.trigger
  extract_lets u
  have hu : CopyLeaves s u := h.record ..
  refine .ite h (.ite (hu.trigLost k) ?_)
  split
  · exact hu.startCapsule _
  · exact .ite (hu.withChrys _) (.ite (hu.trigLost k) ((hu.setFlag ..).withChrys _))

theorem losePending : CopyLeaves s (losePending t) := by
  unfold Machine.losePending
  split
  · exact h
  · exact ((h.withChrys _).setFlag ..).trigLost _

theorem holdTrail : CopyLeaves s (holdTrail t) := by
  unfold Machine.holdTrail
  split
  · exact h
  · exact (((h.withChrys _).setFld ..).setFlag ..).losePending

theorem eraseCap (id : Nat) : CopyLeaves s (eraseCap id t) := by
  unfold Machine.eraseCap
  split
  · exact h
  · exact h.withChrys _

theorem takeBlock (c : Cap) (i b stripe : Nat) : CopyLeaves s (takeBlock c i b stripe t) := by
  unfold Machine.takeBlock
  split
  · exact h.withChrys _
  · refine .ite h ?_
    split
    · exact h.eraseCap _
    · exact h.holdTrail.emit ..

/-- The fencing of the trail. -/
theorem fenceTrail : CopyLeaves s (fenceUnit true .trail t) := by
  unfold fenceUnit
  refine .ite h ?_
  exact (((withGates (fun _ => lt_of_mem_chans) ((h.record ..).setFlag ..)).emit ..).withChrys _).holdFence fun _ => lt_of_mem_chans

theorem trailEcc (l : Nat) : CopyLeaves s (trailEcc l t) := by
  unfold Machine.trailEcc
  extract_lets a u near chrys v
  have hv : CopyLeaves s v := (((h.count _).setReg ..).emit ..).withChrys _
  exact .ite hv.fenceTrail hv

theorem trailMeet (l : List Nat) : CopyLeaves s (trailMeet l t) := h.foldl l fun _ _ u => .ite ((refl u).trailEcc _) (.refl u)

theorem chrysProgram (b : Nat) (x : CapBank) (img : Page) (idx : Option Nat) : CopyLeaves s (chrysProgram b x img idx t) := by
  unfold Machine.chrysProgram
  split
  · exact h.setRfOp ..
  · exact h

theorem composePage (c : Cap) (j : Nat) : CopyLeaves s (composePage c j t).2.2 := by
  unfold Machine.composePage
  dsimp only
  apply CopyLeaves.trailMeet
  exact ⟨⟨h.cp0, h.cp1, h.mail⟩, h.replay, h.wdog, h.modes, h.canon⟩

theorem pumpPad (c : Cap) (i b : Nat) : CopyLeaves s (pumpPad c i b t) := by
  unfold Machine.pumpPad
  extract_lets l w n x own
  split
  · exact h
  · exact .ite h (.ite (h.chrysProgram ..) (.ite (.ite (h.chrysProgram ..) h) h))

/-- What a bank that is to be written does: it takes a block, erases it, or goes on. -/
theorem bankWrite (c : Cap) (i b n : Nat) (x : CapBank) {go : CapBank → State} (hg : ∀ x, CopyLeaves s (go x)) :
    CopyLeaves s (match x.block with
      | none => Machine.takeBlock c i b n t
      | some blk => if x.erased then go x else chrysOp b { erase := true, block := blk, owner := .chrys } t) := by
  split
  · exact h.takeBlock ..
  · exact .ite (hg _) (h.setRfOp ..)

theorem pumpBank (i b : Nat) : CopyLeaves s (pumpBank i b t) := by
  unfold Machine.pumpBank
  refine .ite h ?_
  split
  · split
    · exact h.setRfOp ..
    · exact h
  · split
    · exact h
    · dsimp only
      split
      · exact h.bankWrite _ _ _ _ _ fun x => h.chrysProgram ..
      · split
        · exact h.pumpPad ..
        split
        · exact h
        split
        · exact h.takeBlock ..
        · exact h.bankWrite _ _ _ _ _ fun x => ((h.composePage ..).setCap _).chrysProgram ..

theorem pump : CopyLeaves s (pump t) := by
  unfold Machine.pump
  refine .ite h (.ite ?_ (.ite h (h.foldl _ fun _ _ u => (refl u).foldl _ fun _ _ v => (refl v).pumpBank ..)))
  split
  · exact .ite h h.holdTrail
  · exact h

theorem closeCap (gap : Bool) : CopyLeaves s (closeCap gap t) := by
  unfold Machine.closeCap
  split
  · exact h
  · exact .ite h ((h.withChrys _).setFld ..)

theorem takeKeyframe : CopyLeaves s (takeKeyframe t) := by
  unfold Machine.takeKeyframe
  refine .ite h ?_
  extract_lets c k data u v w
  have hu : CopyLeaves s u := h.step ⟨rfl, rfl, rfl⟩ rfl rfl rfl
  exact ((hu.record ..).withChrys _).foldl _ fun _ _ x => (refl x).record ..

theorem resumeRec : CopyLeaves s (resumeRec t) :=
  .ite ((((h.closeCap true).setFlag ..).record ..).emit ..).takeKeyframe h

theorem showCopy : CopyLeaves s (showCopy t) := by
  unfold Machine.showCopy
  split
  · exact .ite (h.setFld ..) (h.setFld ..)
  · exact h.setFld ..

theorem copyOn : CopyLeaves s (copyOn t) := h.pump.resumeRec.showCopy

end
end CopyLeaves

namespace Mute
variable {s t u : State} (h : Mute s t)
include h

theorem withChrys (c : Chrys) : Mute s { t with chrys := c } := h.trans ⟨rfl, rfl, rfl⟩
theorem copy (g : CopyLeaves t u) : Mute s u := h.trans g.toMute
theorem trigger (k : Nat) (o : BitVec 16) : Mute s (t.trigger k o) := h.copy ((CopyLeaves.refl t).trigger k o)
theorem eraseCap (id : Nat) : Mute s (eraseCap id t) := h.copy ((CopyLeaves.refl t).eraseCap id)
theorem closeCap (gap : Bool) : Mute s (closeCap gap t) := h.copy ((CopyLeaves.refl t).closeCap gap)
theorem copyOn : Mute s (copyOn t) := h.copy (CopyLeaves.refl t).copyOn

/-! ### Replay -/

theorem endEpoch : Mute s (endEpoch t) := .ite ((h.closeCap false).withChrys _).copyOn h
theorem setReplay (k : Nat) : Mute s (setReplay k t) := h.setFld ..

theorem stageCapsule (id : Nat) : Mute s (stageCapsule id t) := by
  unfold Machine.stageCapsule
  split
  · exact h
  · exact .setFlag (.ite ((h.withChrys _).setReg ..) (h.withChrys _)) ..

theorem enterReplay (c : CapSel) (k : Option Nat) (fast nostop : Bool) : Mute s (enterReplay c k fast nostop t) := by
  unfold Machine.enterReplay
  extract_lets u id r chrys v w x
  have hv : Mute s v := h.endEpoch.withChrys _
  have hw : Mute s w := ((((((hv.setReg ..).setReg ..).setReg ..).setReg ..).setReg ..).setReg ..).setReg ..
  have hx : Mute s x := (hw.setReplay 1).holdCause ..
  exact match id with
    | some n => hx.stageCapsule n
    | none => hx

theorem pauseReplay : Mute s (pauseReplay t) := by
  unfold Machine.pauseReplay
  split
  · exact (h.withChrys _).setReplay 3
  · exact h.setReplay 3

theorem continueReplay : Mute s (continueReplay t) := by
  unfold Machine.continueReplay
  split
  · exact (h.withChrys _).setReplay 2
  · exact h.setReplay 2

theorem endReplay (r : Nat) : Mute s (endReplay r t) := (h.setFld ..).setReplay 4

/-- A write of REC.CTRL. -/
theorem regWrite_ctrl (v : Word) : Mute s (regWrite 0x70000 v t) :=
  have he : regWrite 0x70000 v t = if bit v 0 then t.setReg 0x70000 (v &&& 3) else Machine.endEpoch (t.setReg 0x70000 (v &&& 3)) := rfl
  he ▸ .ite (h.setReg ..) (h.setReg ..).endEpoch

end Mute

/-! ### What the rec lines read -/

section
variable {e : Option Ep} {s t : State} (h : Stays e noReg s t)
include h

theorem Stays.regRec {k : Nat} (hk : 0x70025 ≤ k) (hk' : k < 0x70F00) : t.reg k = s.reg k := h.reg _ id (by unfold ioKey; omega)
theorem Stays.recCtrl : t.reg 0x70000 = s.reg 0x70000 := h.reg _ id (by unfold ioKey; omega)
theorem Stays.recEpoch : t.reg 0x70020 = s.reg 0x70020 := h.reg _ id (by unfold ioKey; omega)
theorem Stays.replayState (hw : swf resetWord s.regs = true) : t.fld aRecStat 0 3 = s.fld aRecStat 0 3 := h.replay id hw

theorem Stays.capFlds (c : CapSel) : t.capFlds c = s.capFlds c := by
  obtain ⟨hdir, _, htrail, _⟩ := h.dir
  unfold State.capFlds
  cases c with
  | id n => simp only [hdir]
  | trail =>
    have hf : t.trailFlds = s.trailFlds := by
      funext c
      simp only [State.trailFlds, h.sup, h.regHigh (k := 0x80010) (by decide)]
    simp only [htrail, hf]

theorem Stays.replayable (c : CapSel) : t.replayable c = s.replayable c := by
  obtain ⟨hdir, _, htrail, _⟩ := h.dir
  unfold State.replayable
  cases c <;> simp only [hdir, htrail, h.member]

end

/-- What rec result answers. -/
def resultFlds (t : State) : List Fld :=
  let n := t.fld aDivKind 16 16
  let k := t.fld aDivKind 4 2
  [kw "result" (resultText (t.fld aDivKind 0 4)), kw "kind" (if n = 0 then "-" else kindText k),
   kw "class" (if n = 0 ∨ k ≠ 1 then "-" else classText (t.fld aDivKind 6 3)),
   kn "t" (t.reg 0x70038 ++ t.reg 0x70034 : BitVec 64).toNat, kn "rec" (t.reg 0x7003C).toNat,
   { key := "exp", val := .hex (t.reg 0x70040) }, { key := "got", val := .hex (t.reg 0x70044) },
   (if n = 0 ∨ k ≠ 2 then kw "addr" "-" else { key := "addr", val := .hex (t.reg 0x70048) }),
   kn "count" n, ky "edited" (t.flag aDivKind 9)]

/-- rec result answers and takes the result as read. -/
def readResult (t : State) : State × Resp := ({ t with chrys := { t.chrys with unread := false } }, .vals (resultFlds t))

theorem exec_recResult (ln : Line) (s : State) :
    exec (.recResult ln) s = done (runLine ln { locked := false, replay := false } (fun _ => []) readResult s) := rfl

/-- The checks of the entry into a replay pass. -/
theorem replayChecks_pass {c : CapSel} {k : Option Nat} {s : State} {step : Byte} {groups kfs : Nat} (ha : s.sup.armed = false)
    (hr : s.ringLive = false) (hc : s.chrys.cap = none) (hp : s.replayable c = some (step, groups, kfs))
    (hs : step = s.member.sysId.extractLsb' 0 8) (hg : groups ≤ s.member.groups) (hk : ∀ n, k = some n → n < kfs)
    (h1 : s.fenced .chrys = false) (h2 : s.fenced .trail = false) (h3 : s.fenced .rflash = false) (h4 : s.fenced .cvuF = false) :
    ∀ p ∈ replayChecks c k s, p.2 = false := by
  unfold replayChecks
  simp only [hp]
  refine List.forall_mem_append.2 ⟨List.forall_mem_append.2 ⟨by simp [ha, hr, hc], ?_⟩, by simp [h1, h2, h3, h4]⟩
  cases k with
  | none => simp [hs, hg]
  | some n => simpa [hs, hg] using hk n rfl

end Sys2Proof.Machine

open Sys2Proof Sys2Proof.Machine

/-- Settles O54: the rec lines write the settings, act on the trail, enter, pause, continue and end a replay, and read. -/
theorem recLines : Obligations.RecLines := by
  intro ln s hi
  refine ⟨fun hp => ?_, fun hp => ?_, fun hp => ?_⟩
  · intro a
    have ha : Stays (some ln.ep) noReg s a := Stays.accepted noReg ln {} s
    have hm : Mute a a := .refl a
    refine ⟨fun on => ⟨?onOff, ?keep, fun x => ?trig⟩, fun q hq hl hh => ?kf, fun q hq hl hh => ?osum, fun p q hpq hq h1 h2 h3 h4 => ?win,
      fun bs hb => ?claim, fun hf hf2 => ?freeze, ?free, fun d hd hf hc => ?erase,
      fun c k step groups kfs fast nostop harm hr hc hrep hs hg hk h1 h2 h3 h4 => ?replay⟩
    case onOff => exact does_acts rfl hp hi (by simp) (by rw [ha.recCtrl]) (hm.regWrite_ctrl _)
    case keep => exact does_acts rfl hp hi (by simp) rfl (hm.setFlag ..)
    case trig => exact does_acts rfl hp hi (by simp) rfl (hm.setFlag ..)
    case kf => exact does_acts rfl hp hi (by simp [hq, outside, hl, hh]) rfl (hm.setReg ..)
    case osum => exact does_acts rfl hp hi (by simp [hq, outside, hl, hh]) rfl (hm.setReg ..)
    case win => exact does_acts rfl hp hi (by simp [hpq, hq, outside, h1, h2, h3, h4]) rfl (hm.setReg ..)
    case claim => exact does_acts rfl hp hi (fun u hu => by simpa [hu.member] using hb) rfl (hm.setReg ..)
    case freeze =>
      exact does_acts rfl hp hi (fun u hu => by simp [hu.unit, hf, hf2]) rfl (hm.trigger ..).copyOn
    case free => exact does_acts rfl hp hi (by simp) rfl ((hm.withChrys _).setFlag ..).copyOn
    case erase =>
      refine does_acts_here rfl hp hi ?_ rfl (hm.eraseCap _).copyOn
      have hc' : (accepted ln {} s).chrys.cap = none := hc
      have hd' : ((accepted ln {} s).chrys.dir.find? fun x => decide (x.id = d.id)).isNone = false := by
        rw [ha.dir.1]
        simpa using ⟨d, hd, rfl⟩
      have hf' : (accepted ln {} s).fenced .rflash = false := (ha.unit _ (by simp)).trans hf
      simp [hd', hf', hc']
    case replay =>
      exact does_acts_here rfl hp hi (replayChecks_pass (ha.sup ▸ harm) (ha.ringLive.trans hr) hc ((ha.replayable c).trans hrep)
        (ha.member ▸ hs) (ha.member ▸ hg) hk ((ha.unit _ (by simp)).trans h1) ((ha.unit _ (by simp)).trans h2)
        ((ha.unit _ (by simp)).trans h3) ((ha.unit _ (by simp)).trans h4)) rfl (hm.enterReplay ..)
  · intro a
    have hm : Mute a a := .refl a
    have hst {n : Nat} (h : s.fld aRecStat 0 3 = n) : ∀ u, Stays (some ln.ep) noReg s u →
        ∀ p ∈ [(Code.arg, decide (u.fld aRecStat 0 3 ≠ n))], p.2 = false :=
      fun u hu => by simp [hu.replayState (Memory.wf_regs hi.1), h]
    exact ⟨fun h => does_acts rfl hp hi (hst h) rfl hm.pauseReplay, fun h =>
      ⟨does_acts rfl hp hi (hst h) rfl hm.continueReplay, does_acts rfl hp hi (hst h) rfl (hm.endReplay 3)⟩⟩
  · intro a
    have ha : Stays (some ln.ep) noReg s a := Stays.accepted noReg ln { locked := false, replay := false } s
    refine ⟨⟨_, does_value rfl hp hi (by simp) rfl, ?_⟩, ⟨_, does_value rfl hp hi (by simp) rfl, ?_⟩, fun c l hl => ?cap,
      ⟨_, does_passes (exec_recResult ln s) hp hi (fun _ _ => by simp) rfl, ?res⟩⟩
    · rw [← State.flag_of_reg ha.recCtrl, ← State.fld_of_reg ha.recEpoch]
      simp [a]
    · rw [← ha.dir.1]
      simp [a]
    case cap =>
      exact does_value rfl hp hi (fun u hu => by simp [hu.capFlds, hl]) (by rw [ha.capFlds, hl]; rfl)
    case res =>
      have hk := ha.regRec (k := aDivKind) (by decide) (by decide)
      rw [← State.fld_of_reg hk, ← State.fld_of_reg hk]
      simp [resultFlds, a]
end

section
/-!
PROOFS. What the part observes of itself: its safe sources (R133, R298 to R301, R311), the limits and checks of analogue loops
(R238 to R256), and the edges of digital inputs with the reflexes that they fire (R172 to R203).
-/
namespace Sys2Proof.Machine

/-! ### What an item and a record leave -/

theorem flag_item (s : State) (g n o i : Nat) : (s.item g).flag (chA n o) i = s.flag (chA n o) i := by
  obtain ⟨f, h⟩ := item_stays g s
  exact h.flagChA n o i

/-- A temperature that reads is not fenced. -/
theorem gFenced_temp_of_temp {s : State} {g : Nat} {v : Int} (h : s.temp g = some v) : s.gFenced g .temp = false := by
  unfold State.temp at h
  dsimp only at h
  split at h
  · cases h
  · next hn => simpa using (not_or.1 (not_or.1 hn).2).2

/-! ### The output selector after a hold -/

/-- What follows the output selector touches of a channel only what its conversion keeps. -/
theorem devOff_ch (t : State) (n m : Nat) : (t.devOff n).ch m = t.ch m :=
  (moves_devOff (K := fun _ => True) (C := fun _ => False) t n fun _ _ => trivial).ch m id

theorem gateMoved_ch (s : State) {t : State} (n : Nat) (hw : swf (fun _ => ({} : ChanAux)) t.chn = true) :
    ∃ x, (s.gateMoved t n).ch n = { t.ch n with conv := x } := by
  unfold State.gateMoved
  split
  · rw [devOff_ch]
    split
    · exact ⟨_, rfl⟩
    · exact ⟨_, State.ch_setCh_same t n _ hw⟩
  · split
    · exact ⟨_, rfl⟩
    · split <;> exact ⟨_, rfl⟩

/-- The end of a hold: the channel holds nothing, and every other channel stays. -/
theorem endHold_ch {s : State} (n : Nat) (hw : Memory.wf s = true) :
    ((endHold n s).ch n).hold = none ∧ ∀ m, m ≠ n → (endHold n s).ch m = s.ch m := by
  have hset := State.ch_setCh_same s n { s.ch n with hold := none } (Memory.wf_chn hw)
  refine ⟨?_, fun m hm => ?_⟩
  · obtain ⟨x, hx⟩ := gateMoved_ch s (t := s.setCh n { s.ch n with hold := none }) n (swf_sset _ _ _ _ (Memory.wf_chn hw))
    have h : (endHold n s).ch n = (s.gateMoved (s.setCh n { s.ch n with hold := none }) n).ch n := rfl
    rw [h, hx, hset]
  · exact (moves_withGates (K := fun _ => True) (C := (· ∈ [n])) (moves_setCh s n { s.ch n with hold := none } List.mem_cons_self)
      (fun _ _ _ _ => trivial) fun _ => id).ch m (hm ∘ List.mem_singleton.1)

end Sys2Proof.Machine

open Sys2Proof Sys2Proof.Machine

/-- Settles O38: each condition is met where its event comes, and its cause is held or ends as Table 11.1 says. -/
theorem safeSources : Obligations.SafeSources := by
  intro s
  refine ⟨fun h1 h2 h3 h4 => ?wdog, fun hd hf => ⟨fun hl hp => ?pin, fun hl => ?high⟩, fun g hg => ⟨fun h => ?trip, fun h => ?ok⟩,
    fun g hg => ⟨fun v hv => ⟨fun h hp => ?low, fun h hp => ?back, fun h hp => ?surge, fun h hp => ?end_⟩,
      fun v hv => ⟨fun h hp => ?warn, fun h hp hp4 => ?cool⟩⟩⟩
  case wdog => exact becomes_if rfl (by simp [h1, h2, h3, h4])
  case pin =>
    have hr : (s.record 0x05 0 0 []).sup = s.sup := ((Stays.refl none noReg s).record ..).sup
    have hp' : (s.record 0x05 0 0 []).flag 0x30004 18 = false :=
      (State.flag_of_reg (((Stays.refl none noReg s).record ..).regSafe (by decide) (by decide)) _).trans hp
    refine becomes_done (s := s) ((congrArg done (if_pos (by simp [State.pinSampled, hd, hf, hl]))).trans ?_)
    dsimp only
    rw [if_neg (show ¬ State.flag { s.record 0x05 0 0 [] with sup := _ } 0x30004 18 = true from by rw [Bool.not_eq_true]; exact hp'), hr]
  case high =>
    have hr : (s.record 0x05 0 1 []).sup = s.sup := ((Stays.refl none noReg s).record ..).sup
    rw [← hr]
    exact becomes_if rfl (by simp [State.pinSampled, hd, hf, hl])
  case trip => exact becomes_if rfl (by simp [hg, h])
  case ok => exact becomes_if rfl (by simp [hg, h])
  case low => exact becomes_if rfl (by simp [hg, hv, h, hp])
  case back => exact becomes_if rfl (by simp [hg, hv, h, hp])
  case surge => exact becomes_if rfl (by simp [hg, hv, h, hp])
  case end_ => exact becomes_if rfl (by simp [hg, hv, h, hp])
  case warn => exact becomes_if rfl (by simp [hg, hv, h, hp, gFenced_temp_of_temp hv])
  case cool =>
    refine becomes_done (s := s) ((congrArg done (if_neg (by simp [hp4]))).trans ?_)
    rw [if_pos (by simp [hg, hv, h, hp, gFenced_temp_of_temp hv])]

/-- Settles O30: each condition of a loop is a status bit, and the two checks move the fault of their output. -/
theorem analogueEvents : Obligations.AnalogueEvents := by
  intro n s hc hi u
  refine ⟨fun hm => ?_, fun ha => ?_⟩
  · have hl : s.loopLive n (· == 5) = true := by simp [State.loopLive, hc, hi, hm]
    exact ⟨becomes_if rfl hl, becomes_if rfl hl, becomes_if rfl hl, fun h1 h2 => becomes_if rfl (by simp [hl, h1, h2])⟩
  · have hl : s.loopLive n isAo = true := by simp [State.loopLive, hc, hi, ha]
    refine ⟨becomes_if rfl hl, becomes_if rfl hl, fun h1 h2 h3 h4 => ?_⟩
    have hk : s.checksRun n = true := by simp [State.checksRun, hl, h1, h2, h3, h4]
    exact ⟨fun ho => ⟨fun hd hs => becomes_if rfl (by simp [hk, ho, hd, hs]), fun hd hs => becomes_if rfl (by simp [hk, ho, hd, hs])⟩,
      fun hd hs => becomes_if rfl (by simp [hk, hd, hs]), fun hd hs => becomes_if rfl (by simp [hk, hd, hs])⟩

/-- Settles O23: an edge, a wire break and a count act where the group delivers, each with the item that carries it. -/
theorem digitalEvents : Obligations.DigitalEvents := by
  intro n s
  refine ⟨fun hl => ⟨fun level ts hs => ⟨fun hr => ?confirm, fun hr hw => ?against⟩, fun hb => ⟨fun h => ?wire, fun h => ?wireok⟩,
    fun hm => ⟨?count, ?item, fun c e hne => ?other⟩⟩, fun hn hd hi hp => ?persist, fun g hg => if_pos hg⟩
  case confirm => exact becomes_if rfl (by simpa [hl, hs] using hr)
  case against => exact becomes_else rfl (by simpa [hl, hs, hw] using hr)
  case wire => exact becomes_if rfl (by simp [hl, hb, h])
  case wireok => exact becomes_if rfl (by simp [hl, hb, h])
  case count => exact becomes_if rfl (by simp [State.dicLive, hl, hm])
  case item => exact becomes_if rfl (by simp [State.dicLive, hl, hm])
  case other => exact becomes_else rfl (by rcases hne with h | h <;> simp [h])
  case persist =>
    refine becomes_done (s := s) ((congrArg done (if_pos (by simp [hn, hd, hi]))).trans ?_)
    exact congrArg done (if_pos hp)

/-- Settles O25: a raw edge fires or only takes the level, a return revokes, and each hold ends by its own timer. -/
theorem skipEvents : Obligations.SkipEvents := by
  intro n s
  refine ⟨fun hl => ⟨fun level ts hs => ?edge, fun level ts hs => ?level, becomes_if rfl hl⟩, fun h hh => ⟨fun h3 => ?pulse,
    fun h2 hk => ?timeout, endHold_ch n⟩⟩
  case edge =>
    intro u
    have he : exec (.reflexFire n level ts) s = done (if s.fenced .skip || (s.ch n).fire.isSome then u else fireAll n level ts u) := by
      refine (congrArg done (if_pos hl)).trans ?_
      have hs' : ((level != s.invert n) == s.flag (chA n 0x50) 0) = false := by simpa using hs
      simp only [hs', Bool.or_false, Bool.false_eq_true, if_false]
      rfl
    refine ⟨fun h1 h2 => becomes_else he (by simp [h1, h2]), fun h => becomes_if he ?_⟩
    rcases h with h | h
    · simp [h]
    · simpa using .inr (Option.isSome_iff_ne_none.2 h)
  case level =>
    refine becomes_done (s := s) ((congrArg done (if_pos hl)).trans ?_)
    have hs' : ((level != s.invert n) == s.flag (chA n 0x50) 0) = true := by simpa using hs
    simp only [hs', Bool.or_true, if_true]
  case pulse =>
    have he : exec (.pulseEnd n) s = done (match (s.ch n).hold with
      | some h => if bits h.act 0 3 = 3 then endHold n s else s
      | none => s) := rfl
    rw [hh] at he
    exact becomes_if he h3
  case timeout =>
    have he : exec (.reflexHoldTimeout n) s = done (match (s.ch n).hold with
      | some h => if bits h.act 0 3 ≤ 2 ∧ bits h.act 12 2 = 2 then endHold n s else s
      | none => s) := rfl
    rw [hh] at he
    exact becomes_if he ⟨h2, hk⟩
end

section
/-!
PROOFS. What a trip leaves of its switch (R226, R227), and the counts of a counting channel (R178, R179, R182, R172).
-/
namespace Sys2Proof.Machine

/-! ### Bits of a register beside a write -/

theorem State.flag_setFld_beside (s : State) (k lo w v i : Nat) (h : swf resetWord s.regs = true) (hi : i < lo ∨ lo + w ≤ i) :
    (s.setFld k lo w v).flag k i = s.flag k i := by
  rw [State.flag, State.flag, s.reg_setFld_same _ _ _ _ h, bit_setBits_other _ _ _ _ _ hi]

theorem State.fld_setFlag_beside (s : State) (k i lo w : Nat) (b : Bool) (h : swf resetWord s.regs = true) (hi : i < lo ∨ lo + w ≤ i) :
    (s.setFlag k i b).fld k lo w = s.fld k lo w :=
  State.fld_setFld_beside s k i 1 b.toNat lo w h (by omega)

/-- A field stays where its bits stay. -/
theorem State.fld_of_flags {s t : State} {k lo w : Nat} (h : ∀ i, lo ≤ i → i < lo + w → t.flag k i = s.flag k i) :
    t.fld k lo w = s.fld k lo w := by
  apply Nat.eq_of_testBit_eq
  intro i
  rw [State.fld, State.fld, testBit_bits, testBit_bits]
  by_cases hi : i < w
  · have hf := h (lo + i) (by omega) (by omega)
    rw [State.flag, State.flag, bit, bit] at hf
    rw [hf]
  · simp [hi]

theorem aSafeCh_beside (n : Nat) : aSafeCh n ≠ chA n 0 ∧ aSafeCh n ≠ aStat n := by unfold aSafeCh aStat chA; omega
theorem aChst_beside (n : Nat) : aChst n ≠ chA n 0 ∧ aChst n ≠ aStat n := by unfold aChst aStat chA; omega

/-! ### What follows the driver of a switch leaves of its status -/

/-- From s to t the driver of the switch n may have moved and its safe state begun or ended: its mode, its heat and its request
stay, and of its status every bit but 0, 23 and 24. -/
structure KeepsTrip (n : Nat) (s t : State) : Prop where
  mode  : t.mode n = s.mode n
  stat  : ∀ i, i ≠ 0 → i ≠ 23 → i ≠ 24 → t.flag (aStat n) i = s.flag (aStat n) i
  heat  : (t.ch n).heat = (s.ch n).heat
  req   : (t.ch n).clearReq = (s.ch n).clearReq
  canon : swf resetWord t.regs = true
  chans : swf (fun _ => ({} : ChanAux)) t.chn = true

namespace KeepsTrip
variable {n : Nat} {s t u : State}

theorem refl (hw : swf resetWord s.regs = true) (hwc : swf (fun _ => ({} : ChanAux)) s.chn = true) : KeepsTrip n s s :=
  ⟨rfl, fun _ _ _ _ => rfl, rfl, rfl, hw, hwc⟩

theorem trans (h : KeepsTrip n s t) (g : KeepsTrip n t u) : KeepsTrip n s u :=
  ⟨g.mode.trans h.mode, fun i h0 h23 h24 => (g.stat i h0 h23 h24).trans (h.stat i h0 h23 h24), g.heat.trans h.heat, g.req.trans h.req,
    g.canon, g.chans⟩

theorem ite {a b : State} {c : Prop} [Decidable c] (ha : KeepsTrip n s a) (hb : KeepsTrip n s b) : KeepsTrip n s (if c then a else b) := by
  split
  · exact ha
  · exact hb

variable (h : KeepsTrip n s t)
include h

theorem setStat (i : Nat) (b : Bool) (hi : i = 0 ∨ i = 23 ∨ i = 24) : KeepsTrip n s (t.setFlag (aStat n) i b) := by
  refine h.trans ⟨State.fld_of_reg (State.reg_setFlag_other _ _ _ _ _ ?_) .., fun j h0 h23 h24 => ?_, rfl, rfl, State.swf_setReg _ _ _ h.canon,
    h.chans⟩
  · unfold aStat chA
    omega
  · exact State.flag_setFlag_beside _ _ _ _ _ h.canon (by omega)

theorem setReg (k : Nat) (v : Word) (hk : k ≠ chA n 0 ∧ k ≠ aStat n) : KeepsTrip n s (t.setReg k v) :=
  h.trans ⟨State.fld_of_reg (State.reg_setReg_other _ _ _ _ hk.1.symm) ..,
    fun i _ _ _ => State.flag_of_reg (State.reg_setReg_other _ _ _ _ hk.2.symm) i, rfl, rfl,
    State.swf_setReg _ _ _ h.canon, h.chans⟩

theorem emit (c : Ev) (o : Obj) (d : List Fld) : KeepsTrip n s (t.emit c o d) :=
  h.trans ⟨rfl, fun _ _ _ _ => rfl, rfl, rfl, h.canon, h.chans⟩

theorem capture (v : BitVec 16) : KeepsTrip n s (t.capture n v) := by
  have hch := State.ch_setCh_same t n { t.ch n with held := v, holdAt := t.clk.raw, holding := true } h.chans
  exact h.trans ⟨rfl, fun _ _ _ _ => rfl, by rw [State.capture, hch], by rw [State.capture, hch], h.canon, swf_sset _ _ _ _ h.chans⟩

/-- The driver of a switch moves: only bits 23 and 24 of its status follow. -/
theorem gateMoved (hm : s.mode n = 3) (a : State) : KeepsTrip n s (a.gateMoved t n) := by
  unfold State.gateMoved
  rw [if_neg (by rw [h.mode, hm]; decide)]
  exact .ite (h.setStat _ _ (by decide)) (.ite ((h.setStat _ _ (by decide)).setStat _ _ (by decide)) h)

theorem enterSafe : KeepsTrip n s (enterSafe n t) := by
  unfold Machine.enterSafe
  refine .ite ?_ h
  exact ((KeepsTrip.ite (h.capture _) h).setReg _ _ (aChst_beside n)).setStat _ _ (by decide)

theorem holdFault (hm : s.mode n = 3) : KeepsTrip n s (holdCh 12 n t) := by
  have hset : KeepsTrip n s (causeSet (aSafeCh n) 12 (.ch n) t) :=
    ((h.setReg (aSafeCh n) _ (aSafeCh_beside n)).setReg (aSafeCh n) _ (aSafeCh_beside n)).emit ..
  exact .ite (.ite h (hset.enterSafe.gateMoved hm _)) h

theorem refreshFault (hm : s.mode n = 3) : KeepsTrip n s (refreshFault n t) :=
  .ite (h.holdFault hm) (.ite h ((h.setReg (aSafeCh n) _ (aSafeCh_beside n)).emit ..))

end KeepsTrip

/-- A protected driver is off. -/
theorem drive_of_prot {s : State} {n : Nat} (h : s.prot n = true) : (s.drive n).2 = 0 := by
  have hs : (s.selects n).2 = 0 := by
    unfold State.selects
    dsimp only
    split
    · rfl
    · rfl
  unfold State.drive
  dsimp only
  split <;> exact hs

/-- The status of a switch that trips, before what follows its driver. -/
def tripStat (c : Nat) (latch : Bool) (n : Nat) (t : State) : State :=
  (((t.setFlag (aStat n) 16 true).setFld (aStat n) 17 3 c).setFlag (aStat n) 20 latch).setFlag (aStat n) 25 true

section
variable {c n : Nat} {latch : Bool} {s : State} (hw : swf resetWord s.regs = true)
include hw

theorem tripStat_canon : swf resetWord (tripStat c latch n s).regs = true :=
  State.swf_setReg _ _ _ (State.swf_setReg _ _ _ (State.swf_setReg _ _ _ (State.swf_setReg _ _ _ hw)))

theorem tripStat_fields (hc : c < 8) : (tripStat c latch n s).flag (aStat n) 16 = true ∧ (tripStat c latch n s).fld (aStat n) 17 3 = c ∧
    (tripStat c latch n s).flag (aStat n) 20 = latch ∧ (tripStat c latch n s).flag (aStat n) 25 = true := by
  have h1 : swf resetWord (s.setFlag (aStat n) 16 true).regs = true := State.swf_setReg _ _ _ hw
  have h2 : swf resetWord ((s.setFlag (aStat n) 16 true).setFld (aStat n) 17 3 c).regs = true := State.swf_setReg _ _ _ h1
  have h3 : swf resetWord (((s.setFlag (aStat n) 16 true).setFld (aStat n) 17 3 c).setFlag (aStat n) 20 latch).regs = true :=
    State.swf_setReg _ _ _ h2
  unfold tripStat
  refine ⟨?_, ?_, ?_, State.flag_setFlag_same _ _ _ _ h3 (by decide)⟩
  · rw [State.flag_setFlag_beside _ _ _ _ _ h3 (by decide), State.flag_setFlag_beside _ _ _ _ _ h2 (by decide),
      State.flag_setFld_beside _ _ _ _ _ _ h1 (by decide), State.flag_setFlag_same _ _ _ _ hw (by decide)]
  · rw [State.fld_setFlag_beside _ _ _ _ _ _ h3 (by decide), State.fld_setFlag_beside _ _ _ _ _ _ h2 (by decide),
      State.fld_setFld_same _ _ _ _ _ h1 (by decide)]
    omega
  · rw [State.flag_setFlag_beside _ _ _ _ _ h3 (by decide), State.flag_setFlag_same _ _ _ _ h2 (by decide)]

omit hw in
theorem tripStat_moves : Moves (safeReg [n]) (· = n) s (tripStat c latch n s) := by
  have hk : safeReg [n] (aStat n) := ⟨n, List.mem_singleton.2 rfl, .inr (.inl rfl)⟩
  exact (((moves_setFlag s _ _ _ hk).trans (moves_setFld _ _ _ _ _ hk)).trans (moves_setFlag _ _ _ _ hk)).trans (moves_setFlag _ _ _ _ hk)

end

theorem Moves.mode {K C : Nat → Prop} {s t : State} (h : Moves K C s t) {n : Nat} (hk : ¬ K (chA n 0)) : t.mode n = s.mode n := by
  rw [State.mode, State.mode, h.fld hk]

theorem mode_of_reg {s t : State} {n : Nat} (h : t.reg (chA n 0) = s.reg (chA n 0)) : t.mode n = s.mode n := by
  rw [State.mode, State.mode, State.fld_of_reg h]

/-- The driver of the switch has moved with its status. -/
def tripMoved (c : Nat) (latch : Bool) (n : Nat) (s : State) : State := s.gateMoved (tripStat c latch n s) n

/-- The request of the host is void, the trip counted and reported. -/
def tripCounted (ev : Ev) (n : Nat) (v : State) : State :=
  ((v.setCh n { v.ch n with clearReq := false }).count (chA n 0x154)).emit ev (.ch n) []

theorem trip_eq (c : Nat) (ev : Ev) (latch : Bool) (n : Nat) (s : State) :
    trip c ev latch n s = refreshFault n (tripCounted ev n (tripMoved c latch n s)) := rfl

theorem not_safeReg_of {n k : Nat} (h1 : k ≠ aChst n) (h2 : k ≠ aStat n) (h3 : k ≠ aSafeCh n) : ¬ safeReg [n] k := by
  rintro ⟨m, hm, h⟩
  obtain rfl := List.mem_singleton.1 hm
  exact h.elim h1 (·.elim h2 h3)

/-- The registers that a switch works with beside its status and its causes. -/
theorem not_safeReg_chA {n o : Nat} (ho : o ≠ 0x14) : ¬ safeReg [n] (chA n o) :=
  not_safeReg_of (by unfold aChst chA; omega) (by unfold aStat chA; omega) (by unfold aSafeCh chA; omega)

section
variable {ev : Ev} {n : Nat} {v : State}

theorem tripCounted_ch (hwc : swf (fun _ => ({} : ChanAux)) v.chn = true) :
    (tripCounted ev n v).ch n = { v.ch n with clearReq := false } := State.ch_setCh_same v n _ hwc

theorem tripCounted_reg {k : Nat} (hk : k ≠ chA n 0x154) : (tripCounted ev n v).reg k = v.reg k := by
  rw [tripCounted, State.reg_emit, State.reg_count_other _ _ _ hk]
  rfl

theorem tripCounted_count (hw : swf resetWord v.regs = true) :
    (tripCounted ev n v).reg (chA n 0x154) = v.reg (chA n 0x154) + 1 := State.reg_setReg_same (v.setCh n _) _ _ hw

theorem tripCounted_wf (hw : swf resetWord v.regs = true) (hwc : swf (fun _ => ({} : ChanAux)) v.chn = true) :
    KeepsTrip n (tripCounted ev n v) (tripCounted ev n v) :=
  .refl (State.swf_setReg _ _ _ hw) (swf_sset _ _ _ _ hwc)

theorem tripCounted_event (ev : Ev) (n : Nat) (v : State) : { cls := ev, obj := .ch n } ∈ (tripCounted ev n v).evNew := List.mem_append_right _ (List.mem_singleton.2 rfl)

theorem tripCounted_other {m : Nat} (hm : m ≠ n) : (tripCounted ev n v).ch m = v.ch m := State.ch_setCh_other v n m _ hm

end

/-- A trip of a switch, stage by stage: its mode, its status as written, its driver's channel and its count. -/
theorem trip_stages {c n : Nat} {ev : Ev} {latch : Bool} {s : State} (hwf : Memory.wf s = true) (hm : s.mode n = 3) :
    (trip c ev latch n s).mode n = 3 ∧
    (∀ i, i ≠ 0 → i ≠ 23 → i ≠ 24 → (trip c ev latch n s).flag (aStat n) i = (tripStat c latch n s).flag (aStat n) i) ∧
    ((trip c ev latch n s).ch n).clearReq = false ∧ ((trip c ev latch n s).ch n).heat = (s.ch n).heat ∧
    (trip c ev latch n s).reg (chA n 0x154) = s.reg (chA n 0x154) + 1 ∧
    { cls := ev, obj := .ch n } ∈ (trip c ev latch n s).evNew ∧
    (∀ k, k ≠ chA n 0x154 → ¬ safeReg [n] k → (trip c ev latch n s).reg k = s.reg k) ∧
    ∀ m, m ≠ n → (trip c ev latch n s).ch m = s.ch m := by
  have hw := Memory.wf_regs hwf
  have hmu := tripStat_moves (c := c) (n := n) (latch := latch) (s := s)
  have hu : KeepsTrip n (tripStat c latch n s) (tripStat c latch n s) :=
    .refl (tripStat_canon hw) (hmu.chans (Memory.wf_chn hwf))
  have hmode : (tripStat c latch n s).mode n = 3 := (hmu.mode (not_safeReg_chA (by decide))).trans hm
  have hv : KeepsTrip n (tripStat c latch n s) (tripMoved c latch n s) := hu.gateMoved hmode s
  have hmv : Moves (safeReg [n]) (· = n) s (tripMoved c latch n s) :=
    hmu.trans (moves_gateMoved _ _ n (fun k hk => safeReg_gate List.mem_cons_self hk) rfl)
  have hx := tripCounted_wf (ev := ev) (n := n) hv.canon hv.chans
  have hmx : (tripCounted ev n (tripMoved c latch n s)).mode n = 3 :=
    (mode_of_reg (tripCounted_reg (by unfold chA; omega))).trans (hv.mode.trans hmode)
  have ht := hx.refreshFault hmx
  have hmt := moves_refreshFault n (tripCounted ev n (tripMoved c latch n s))
  have hch := tripCounted_ch (ev := ev) (n := n) hv.chans
  rw [trip_eq]
  refine ⟨ht.mode.trans hmx, fun i h0 h23 h24 => ?stat, ?req, ?heat, ?count, hmt.event (tripCounted_event ..), fun k hk hs => ?reg,
    fun m hne => ?other⟩
  case stat =>
    exact (ht.stat i h0 h23 h24).trans ((State.flag_of_reg (tripCounted_reg (by unfold aStat chA; omega)) i).trans
      (hv.stat i h0 h23 h24))
  case req => rw [ht.req, hch]
  case heat =>
    rw [ht.heat, hch]
    exact hv.heat
  case count =>
    rw [hmt.reg _ (not_safeReg_chA (by decide)), tripCounted_count hv.canon, hmv.reg _ (not_safeReg_chA (by decide))]
  case reg => rw [hmt.reg k hs, tripCounted_reg hk, hmv.reg k hs]
  case other => rw [hmt.ch m hne, tripCounted_other hne, hmv.ch m hne]

end Sys2Proof.Machine

open Sys2Proof Sys2Proof.Machine

/-- Settles O28: the status is written first, and what follows the driver and the fault touches other bits, the causes and the
safe state only. -/
theorem tripEffect : Obligations.TripEffect := by
  intro c n ev latch s hwf hc hn hm
  obtain ⟨hmode, hstat, hreq, hheat, hcount, hev, hreg, hother⟩ := trip_stages (c := c) (ev := ev) (latch := latch) hwf hm
  obtain ⟨h16, h17, h20, h25⟩ := tripStat_fields (n := n) (latch := latch) (Memory.wf_regs hwf) hc
  have ht16 := (hstat 16 (by decide) (by decide) (by decide)).trans h16
  refine ⟨ht16, ?cause, (hstat 20 (by decide) (by decide) (by decide)).trans h20, (hstat 25 (by decide) (by decide) (by decide)).trans h25,
    ?gate, hreq, hheat, hcount, ⟨_, hev, rfl, rfl⟩, fun k h1 h2 h3 h4 => hreg k h2 (not_safeReg_of h4 h1 h3), hother, fun hl hh => ?wait,
    fun hl => if_neg (by simp [hl])⟩
  case cause => exact (State.fld_of_flags fun i hi hi' => hstat i (by omega) (by omega) (by omega)).trans h17
  case gate =>
    have hp : (trip c ev latch n s).prot n = true := by simp [State.prot, hmode, ht16]
    simp [State.gate, drive_of_prot hp]
  case wait =>
    unfold tripClear
    rw [if_pos hl, if_neg (by simp [hh])]
end

section
/-!
PROOFS. The counts of a counting channel (R178, R179, R182, R172).
-/
namespace Sys2Proof.Machine

@[simp] theorem State.ch_setReg (s : State) (k n : Nat) (v : Word) : (s.setReg k v).ch n = s.ch n := rfl
@[simp] theorem State.ch_setFld (s : State) (k lo w v n : Nat) : (s.setFld k lo w v).ch n = s.ch n := rfl
@[simp] theorem State.ch_setFlag (s : State) (k i n : Nat) (b : Bool) : (s.setFlag k i b).ch n = s.ch n := rfl
@[simp] theorem State.ch_setPair (s : State) (k n : Nat) (v : BitVec 64) : (s.setPair k v).ch n = s.ch n := rfl
@[simp] theorem State.chn_setPair (s : State) (k : Nat) (v : BitVec 64) : (s.setPair k v).chn = s.chn := rfl
@[simp] theorem State.ch_emit (s : State) (c : Ev) (o : Obj) (d : List Fld) (n : Nat) : (s.emit c o d).ch n = s.ch n := rfl

theorem State.swf_setCh {s : State} {n : Nat} {a : ChanAux} (hw : swf (fun _ => ({} : ChanAux)) s.chn = true) :
    swf (fun _ => ({} : ChanAux)) (s.setCh n a).chn = true := swf_sset _ _ _ _ hw

/-! ### Register pairs -/

section
variable {s : State} {lo : Nat} {v : BitVec 64}

theorem State.reg_setPair_other {k : Nat} (h : k ≠ lo) (h4 : k ≠ lo + 4) : (s.setPair lo v).reg k = s.reg k := by
  rw [State.setPair, State.reg_setReg_other _ _ _ _ h4, State.reg_setReg_other _ _ _ _ h]

theorem State.pair_setPair_other {k : Nat} (h : k + 4 < lo ∨ lo + 4 < k) : (s.setPair lo v).pair k = s.pair k := by
  rw [State.pair, State.pair, State.reg_setPair_other (by omega) (by omega), State.reg_setPair_other (by omega) (by omega)]

theorem State.pair_setPair_same (hw : swf resetWord s.regs = true) : (s.setPair lo v).pair lo = v := by
  have hlo : (s.setPair lo v).reg lo = v.extractLsb' 0 32 := by
    rw [State.setPair, State.reg_setReg_other _ _ _ _ (by omega), State.reg_setReg_same _ _ _ hw]
  have hhi : (s.setPair lo v).reg (lo + 4) = v.extractLsb' 32 32 := State.reg_setReg_same _ _ _ (State.swf_setReg _ _ _ hw)
  rw [State.pair, hlo, hhi]
  ext i hi
  rw [BitVec.getElem_append]
  split
  · simp [BitVec.getLsbD_eq_getElem hi]
  · simp only [BitVec.getElem_extractLsb']
    rw [Nat.add_sub_of_le (by omega), BitVec.getLsbD_eq_getElem]

end

/-! ### A slot made valid, and a snapshot -/

section
variable {n : Nat} {s : State}

theorem slotValid_reg {k : Nat} (h : k ≠ chA n 0x84) (hs : k ≠ aStat n) : (slotValid n s).reg k = s.reg k := by
  rw [slotValid, State.reg_setFlag_other _ _ _ _ _ hs, State.reg_setFlag_other _ _ _ _ _ h, State.reg_setFld_other _ _ _ _ _ _ h]
  rfl

theorem slotValid_pair {o : Nat} (ho : o + 4 < 0x84) (hs : o ≠ 0x14) (hs' : o ≠ 0x10) : (slotValid n s).pair (chA n o) = s.pair (chA n o) := by
  rw [State.pair, State.pair, slotValid_reg (by unfold chA; omega) (by unfold aStat chA; omega), slotValid_reg (by unfold chA; omega)
    (by unfold aStat chA; omega)]

theorem slotValid_ch (hw : swf (fun _ => ({} : ChanAux)) s.chn = true) : (slotValid n s).ch n = { s.ch n with slotTs := s.clk.ts } := by
  rw [slotValid, State.ch_setFlag, State.ch_setFlag, State.ch_setFld, State.ch_setCh_same _ _ _ hw]

theorem slotValid_ch_other {m : Nat} (h : m ≠ n) : (slotValid n s).ch m = s.ch m := by
  rw [slotValid, State.ch_setFlag, State.ch_setFlag, State.ch_setFld, State.ch_setCh_other _ _ _ _ h]

theorem slotValid_chn (hw : swf (fun _ => ({} : ChanAux)) s.chn = true) : swf (fun _ => ({} : ChanAux)) (slotValid n s).chn = true := by
  rw [slotValid, State.setFlag_chn, State.setFlag_chn, State.setFld_chn]
  exact State.swf_setCh hw

theorem persist_pair (k : Nat) : (persist n s).pair k = s.pair k := by
  unfold persist
  split <;> rfl

/-- A snapshot writes only what it remembers of the count. -/
theorem persist_ch (hw : swf (fun _ => ({} : ChanAux)) s.chn = true) :
    ∃ x y z, (persist n s).ch n = { s.ch n with snapCount := x, snapAt := y, snapped := z } := by
  unfold persist
  split
  · exact ⟨_, _, _, State.ch_setCh_same s n _ hw⟩
  · exact ⟨_, _, _, rfl⟩

theorem persist_ch_other {m : Nat} (h : m ≠ n) : (persist n s).ch m = s.ch m := by
  unfold persist
  split
  · exact State.ch_setCh_other s n m _ h
  · rfl

end

/-! ### The stages of a count -/

/-- The group's count is the base, and an edge whose time has come is seen. -/
def countBased (n : Nat) (s : State) : State :=
  s.setCh n { s.ch n with base := (s.ch n).cnt16, baseOk := true, edgeSeen := (s.ch n).edgeSeen || (s.ch n).edgeTs.isSome }

/-- The time of the last edge comes with the count. -/
def edgeTaken (n : Nat) (s : State) : State :=
  match (s.ch n).edgeTs with
  | some v => (countBased n s).setPair (chA n 0x54) v
  | none => countBased n s

/-- What the group has counted since the last item. -/
def countDelta (n : Nat) (s : State) : BitVec 64 := if (s.ch n).baseOk then ((s.ch n).cnt16 - (s.ch n).base).setWidth 64 else 0

/-- The live count with what has come. -/
def countTaken (n : Nat) (s : State) : State := slotValid n ((edgeTaken n s).setPair (chA n 0x48) (s.liveCount n + countDelta n s))

theorem takeCount_cases (n : Nat) (s : State) : takeCount n s = persist n (countTaken n s) ∨ takeCount n s = countTaken n s := by
  have h : takeCount n s = if ((countTaken n s).reg (chA n 0x60)).toNat ≠ 0 ∧ ((countTaken n s).reg (chA n 0x60)).toNat ≤
      ((countTaken n s).liveCount n - ((countTaken n s).ch n).snapCount).toNat then persist n (countTaken n s) else countTaken n s := rfl
  rw [h]
  split
  · exact .inl rfl
  · exact .inr rfl

section
variable {n : Nat} {s : State}

theorem edgeTaken_ch (m : Nat) : (edgeTaken n s).ch m = (countBased n s).ch m := by
  unfold edgeTaken
  split <;> rfl

theorem edgeTaken_canon (hw : swf resetWord s.regs = true) : swf resetWord (edgeTaken n s).regs = true := by
  unfold edgeTaken
  split
  · exact State.swf_setReg _ _ _ (State.swf_setReg _ _ _ hw)
  · exact hw

theorem edgeTaken_chn (hw : swf (fun _ => ({} : ChanAux)) s.chn = true) : swf (fun _ => ({} : ChanAux)) (edgeTaken n s).chn = true := by
  unfold edgeTaken
  split <;> exact swf_sset _ _ _ _ hw

theorem edgeTaken_edge (hw : swf resetWord s.regs = true) :
    (edgeTaken n s).pair (chA n 0x54) = (s.ch n).edgeTs.getD (s.pair (chA n 0x54)) := by
  unfold edgeTaken
  split
  · next v hv => rw [State.pair_setPair_same (s := countBased n s) hw, hv, Option.getD_some]
  · next hv =>
    rw [hv]
    rfl

theorem countTaken_live (hw : swf resetWord s.regs = true) : (countTaken n s).liveCount n = s.liveCount n + countDelta n s := by
  rw [countTaken, State.liveCount, slotValid_pair (by decide) (by decide) (by decide), State.pair_setPair_same (edgeTaken_canon hw)]

theorem countTaken_edge (hw : swf resetWord s.regs = true) :
    (countTaken n s).pair (chA n 0x54) = (s.ch n).edgeTs.getD (s.pair (chA n 0x54)) := by
  rw [countTaken, slotValid_pair (by decide) (by decide) (by decide), State.pair_setPair_other (by unfold chA; omega), edgeTaken_edge hw]

theorem countTaken_chn (hw : swf (fun _ => ({} : ChanAux)) s.chn = true) : swf (fun _ => ({} : ChanAux)) (countTaken n s).chn = true :=
  slotValid_chn (by rw [State.chn_setPair]; exact edgeTaken_chn hw)

theorem countTaken_ch (hw : swf (fun _ => ({} : ChanAux)) s.chn = true) : ∃ x y, (countTaken n s).ch n =
    { s.ch n with base := (s.ch n).cnt16, baseOk := true, edgeSeen := x, slotTs := y } := by
  rw [countTaken, slotValid_ch (by rw [State.chn_setPair]; exact edgeTaken_chn hw), State.ch_setPair, edgeTaken_ch, countBased,
    State.ch_setCh_same s n _ hw]
  exact ⟨_, _, rfl⟩

theorem countTaken_ch_other {m : Nat} (h : m ≠ n) : (countTaken n s).ch m = s.ch m := by
  rw [countTaken, slotValid_ch_other h, State.ch_setPair, edgeTaken_ch, countBased, State.ch_setCh_other _ _ _ _ h]

end

/-! ### The stages of a confirmed edge -/

/-- The slot of a channel whose edge is confirmed. -/
def edgeSlot (n : Nat) (level : Bool) (s : State) : State :=
  slotValid n ((s.setFlag (chA n 0x50) 0 level).setFld (chA n 0x50) 16 16 (s.fld (chA n 0x50) 16 16 + 1))

/-- What the group remembers of a confirmed edge. -/
def edgeAux (counts : Bool) (raw : Bool) (ts : BitVec 64) (a : ChanAux) : ChanAux :=
  if counts then { a with raw := raw, run := none, cnt16 := a.cnt16 + 1, edgeTs := some ts } else { a with raw := raw, run := none }

theorem confirmEdge_eq (n : Nat) (level : Bool) (ts : BitVec 64) (s : State) : confirmEdge n level ts s =
    (edgeSlot n level s).setCh n (edgeAux (decide (s.mode n = 2) && s.counts n level) (level != s.invert n) ts ((edgeSlot n level s).ch n)) := rfl

section
variable {n : Nat} {level : Bool} {s : State}

theorem edgeSlot_reg {k : Nat} (h : k ≠ chA n 0x50) (h1 : k ≠ chA n 0x84) (h2 : k ≠ aStat n) : (edgeSlot n level s).reg k = s.reg k := by
  rw [edgeSlot, slotValid_reg h1 h2, State.reg_setFld_other _ _ _ _ _ _ h, State.reg_setFlag_other _ _ _ _ _ h]

theorem edgeSlot_state (hw : swf resetWord s.regs = true) : (edgeSlot n level s).flag (chA n 0x50) 0 = level ∧
    (edgeSlot n level s).fld (chA n 0x50) 16 16 = (s.fld (chA n 0x50) 16 16 + 1) % 2 ^ 16 := by
  have hreg (u : State) : (slotValid n u).reg (chA n 0x50) = u.reg (chA n 0x50) :=
    slotValid_reg (by unfold chA; omega) (by unfold aStat chA; omega)
  have h1 : swf resetWord (s.setFlag (chA n 0x50) 0 level).regs = true := State.swf_setReg _ _ _ hw
  rw [edgeSlot, State.flag_of_reg (hreg _), State.fld_of_reg (hreg _)]
  exact ⟨(State.flag_setFld_beside _ _ _ _ _ _ h1 (by decide)).trans (State.flag_setFlag_same _ _ _ _ hw (by decide)),
    State.fld_setFld_same _ _ _ _ _ h1 (by decide)⟩

theorem edgeSlot_ch (hw : swf (fun _ => ({} : ChanAux)) s.chn = true) : (edgeSlot n level s).ch n = { s.ch n with slotTs := s.clk.ts } := by
  rw [edgeSlot, slotValid_ch (by simpa using hw)]
  simp

theorem edgeSlot_chn (hw : swf (fun _ => ({} : ChanAux)) s.chn = true) : swf (fun _ => ({} : ChanAux)) (edgeSlot n level s).chn = true :=
  slotValid_chn (by simpa using hw)

variable {ts : BitVec 64}

theorem confirmEdge_reg (k : Nat) : (confirmEdge n level ts s).reg k = (edgeSlot n level s).reg k := by
  rw [confirmEdge_eq, State.reg_setCh]

theorem confirmEdge_ch (hw : swf (fun _ => ({} : ChanAux)) s.chn = true) : (confirmEdge n level ts s).ch n =
    edgeAux (decide (s.mode n = 2) && s.counts n level) (level != s.invert n) ts { s.ch n with slotTs := s.clk.ts } := by
  rw [confirmEdge_eq, State.ch_setCh_same _ _ _ (edgeSlot_chn hw), edgeSlot_ch hw]

end

end Sys2Proof.Machine

open Sys2Proof Sys2Proof.Machine

/-- Settles O22: the count is added to a stored pair of registers, and an edge adds to its own field and the group's count. -/
theorem countArithmetic : Obligations.CountArithmetic := by
  intro n s hwf
  have hw := Memory.wf_regs hwf
  have hwc := Memory.wf_chn hwf
  refine ⟨?take, fun level ts => ?edge⟩
  case take =>
    obtain ⟨x, y, hch⟩ := countTaken_ch (n := n) hwc
    rcases takeCount_cases n s with h | h
    · obtain ⟨a, b, c, hp⟩ := persist_ch (n := n) (countTaken_chn (n := n) hwc)
      rw [h, State.liveCount, persist_pair, persist_pair, hp, hch]
      exact ⟨countTaken_live hw, rfl, rfl, rfl, countTaken_edge hw, fun m hm => (persist_ch_other hm).trans (countTaken_ch_other hm)⟩
    · rw [h, hch]
      exact ⟨countTaken_live hw, rfl, rfl, rfl, countTaken_edge hw, fun m hm => countTaken_ch_other hm⟩
  case edge =>
    obtain ⟨hflag, hfld⟩ := edgeSlot_state (n := n) (level := level) hw
    rw [State.flag_of_reg (confirmEdge_reg _), State.fld_of_reg (confirmEdge_reg _), confirmEdge_ch hwc]
    refine ⟨hflag, hfld, ?_, ?_, ?_, fun k h1 h2 h3 => (confirmEdge_reg k).trans (edgeSlot_reg h1 h2 h3)⟩
    all_goals
      simp only [edgeAux, Bool.and_eq_true, decide_eq_true_eq]
      split <;> simp
end

section
/-!
PROOFS. What a fired action meets (R198, R200, R22).
-/
namespace Sys2Proof.Machine

section
variable {k src : Nat} {lev : Bool} {ts : BitVec 64} {s : State} (ha : bits (s.skAct k) 0 3 ≤ 3)
include ha

/-- An action on an output toward a latch that acts alone is lost in the lane. -/
theorem dispatch_lost (h : (s.powered (actTarget (s.skAct k) / 16) && s.linkUp (actTarget (s.skAct k) / 16) &&
    (s.gr (actTarget (s.skAct k) / 16)).acts) = true) : dispatch k src lev ts s = (s, false) := by
  unfold dispatch
  dsimp only
  rw [if_neg (by omega), if_neg (by omega), if_pos h]

theorem dispatch_discarded {why : Nat} (h : (s.powered (actTarget (s.skAct k) / 16) && s.linkUp (actTarget (s.skAct k) / 16) &&
    (s.gr (actTarget (s.skAct k) / 16)).acts) = false) (hd : s.discards k (s.skAct k) ts = some why) : dispatch k src lev ts s =
    ((s.count (skA k 0x18)).record 0x28 0 0 (skipMark k (s.skAct k) ts ++ [word why]), false) := by
  unfold dispatch
  dsimp only
  rw [if_neg (by omega), if_neg (by omega), if_neg (by rw [h]; decide), hd]

/-- The hold that an action puts on its output. -/
def actHold (k src : Nat) (lev : Bool) (ts : BitVec 64) (s : State) : SkipHold :=
  { k := k, val := s.actValue (s.skAct k), ts := ts, src := src, lev := lev, act := s.skAct k }

theorem dispatch_acts (h : (s.powered (actTarget (s.skAct k) / 16) && s.linkUp (actTarget (s.skAct k) / 16) &&
    (s.gr (actTarget (s.skAct k) / 16)).acts) = false) (hd : s.discards k (s.skAct k) ts = none) : dispatch k src lev ts s =
    (withGates [actTarget (s.skAct k)] (fun t => t.setCh (actTarget (s.skAct k))
      { t.ch (actTarget (s.skAct k)) with hold := some (actHold k src lev ts s) }) s, true) := by
  unfold dispatch
  dsimp only
  rw [if_neg (by omega), if_neg (by omega), if_neg (by rw [h]; decide), hd]
  rfl

end

section
variable {k : Nat} {a : Word} {ts : BitVec 64} {s : State}

/-- What discards an action: no way to the output, a safe value against it, or a later hold. -/
theorem discards_some (h : s.powered (actTarget a / 16) = false ∨ s.linkUp (actTarget a / 16) = false ∨
    s.chst (actTarget a) ≠ 0 ∧ (s.actValue a != decide (s.safeVal (actTarget a) ≠ 0)) = true ∨
    ∃ x, (s.ch (actTarget a)).hold = some x ∧ (ts.toNat < x.ts.toNat ∨ ts = x.ts ∧ x.k < k)) : ∃ why, s.discards k a ts = some why := by
  unfold State.discards
  dsimp only
  split
  · exact ⟨_, rfl⟩
  · next hway =>
    split
    · exact ⟨_, rfl⟩
    · next hval =>
      rcases h with h | h | ⟨h1, h2⟩ | ⟨x, hx, hl⟩
      · exact absurd (by simp [h]) hway
      · exact absurd (by simp [h]) hway
      · exact absurd (by rw [h2, decide_eq_true h1]; rfl) hval
      · rw [hx]
        exact ⟨1, if_pos hl⟩

theorem discards_none (hp : s.powered (actTarget a / 16) = true) (hl : s.linkUp (actTarget a / 16) = true)
    (hv : s.chst (actTarget a) = 0 ∨ s.actValue a = decide (s.safeVal (actTarget a) ≠ 0))
    (hh : ∀ x, (s.ch (actTarget a)).hold = some x → x.ts.toNat ≤ ts.toNat ∧ (ts = x.ts → k ≤ x.k)) : s.discards k a ts = none := by
  unfold State.discards
  dsimp only
  rw [if_neg (by simp [hp, hl]), if_neg (by rcases hv with h | h <;> simp [h])]
  split
  · next x hx =>
    obtain ⟨h1, h2⟩ := hh x hx
    exact if_neg fun h => h.elim (by omega) fun ⟨he, hk⟩ => by have := h2 he; omega
  · rfl

end

/-- A hold taken: the output holds it, and only what follows its selector moves beside. -/
theorem withGates_hold {s : State} (m : Nat) (x : SkipHold) (hw : Memory.wf s = true) :
    ((withGates [m] (fun t => t.setCh m { t.ch m with hold := some x }) s).ch m).hold = some x ∧
    (∀ j, j ≠ aStat m → j ≠ aSafeCh m → (withGates [m] (fun t => t.setCh m { t.ch m with hold := some x }) s).reg j = s.reg j) ∧
    ∀ j, j ≠ m → (withGates [m] (fun t => t.setCh m { t.ch m with hold := some x }) s).ch j = s.ch j := by
  have hmoves : Moves (gateReg m) (· ∈ [m]) s (withGates [m] (fun t => t.setCh m { t.ch m with hold := some x }) s) :=
    moves_withGates (moves_setCh s m { s.ch m with hold := some x } List.mem_cons_self)
      (fun n hn j hj => List.mem_singleton.1 hn ▸ hj) fun _ => id
  refine ⟨?_, fun j h1 h2 => hmoves.reg j (fun h => h.elim h1 h2), fun j hj => hmoves.ch j (hj ∘ List.mem_singleton.1)⟩
  have hset := State.ch_setCh_same s m { s.ch m with hold := some x } (Memory.wf_chn hw)
  obtain ⟨y, hy⟩ := gateMoved_ch s (t := s.setCh m { s.ch m with hold := some x }) m (State.swf_setCh (Memory.wf_chn hw))
  have h : (withGates [m] (fun t => t.setCh m { t.ch m with hold := some x }) s).ch m =
    (s.gateMoved (s.setCh m { s.ch m with hold := some x }) m).ch m := rfl
  rw [h, hy, hset]

end Sys2Proof.Machine

open Sys2Proof Sys2Proof.Machine

/-- Settles O26: the branches of the dispatch of an action on an output, each with what it leaves. -/
theorem reflexPrecedence : Obligations.ReflexPrecedence := by
  intro k src lev ts s hw hk ha m
  refine ⟨fun hp hl hacts => dispatch_lost ha (by simp [m, hp, hl, hacts]), fun h => ?discard, fun hp hl hacts hv hh => ?take⟩
  case discard =>
    have hfree : (s.powered (m / 16) && s.linkUp (m / 16) && (s.gr (m / 16)).acts) = false := by
      rcases h with h | h | ⟨h, _⟩ <;> simp [h]
    obtain ⟨why, hwhy⟩ := discards_some (k := k) (a := s.skAct k) (ts := ts) (h.imp_right (·.imp_right And.right))
    have hr := (Stays.refl none noReg (s.count (skA k 0x18))).record 0x28 0 0 (skipMark k (s.skAct k) ts ++ [word why])
    rw [dispatch_discarded ha hfree hwhy]
    exact ⟨rfl, (hr.regSkA (by omega) _ (by decide)).trans (State.reg_setReg_same _ _ _ (Memory.wf_regs hw)), hr.chn⟩
  case take =>
    rw [dispatch_acts ha (by simp [m, hacts]) (discards_none hp hl hv hh)]
    obtain ⟨hhold, hreg, hch⟩ := withGates_hold m (actHold k src lev ts s) hw
    exact ⟨rfl, ⟨_, hhold, rfl, rfl, rfl⟩, hreg, hch⟩
end

section
/-!
PROOFS. The release of causes (R305): where the statement's frame names a channel that the part does not have.
-/
namespace Sys2Proof.Machine

/-- Channel 0 in safe state as power is applied, which its status says. -/
def leftSafe : State := (State.reset.setFld (aChst 0) 0 2 1).setFlag (aStat 0) 0 true

/-- The number whose safe state would stand at the address of the status of channel 0. -/
def beyondChan : Nat := (aStat 0 - 0x30300) / 4

end Sys2Proof.Machine

open Sys2Proof Sys2Proof.Machine

/-- Refutes O40: its last clause speaks of every number and not only of the channels of the part. In `leftSafe` a release of
channel 0, which is no output, takes it out of safe state and clears bit 0 of its status; read at that address, the safe state of
channel `beyondChan` changes though the release does not name it. -/
theorem not_releaseRules : ¬ Obligations.ReleaseRules := by
  unfold Obligations.ReleaseRules
  intro h
  obtain ⟨-, -, -, -, -, hframe⟩ := h (.ch ⟨0, 0⟩) leftSafe (by decide) (by decide)
  obtain ⟨-, hchst⟩ := hframe beyondChan (by decide)
  exact absurd hchst (by decide)
end

section
/-!
PROOFS. The entry of a received slot (R337, R338).
-/
namespace Sys2Proof.Machine

/-! ### The ages of an entry -/

section
variable {c r v : Nat} {s : State}

theorem setLage_reg {j : Nat} (hj : j ≠ aRxStat c r + 4) : (setLage c r v s).reg j = s.reg j := by
  rw [setLage, State.reg_setFld_other _ _ _ _ _ _ hj, State.reg_setFld_other _ _ _ _ _ _ hj]

theorem setLage_chn : (setLage c r v s).chn = s.chn := rfl

theorem setLage_ages (hw : swf resetWord s.regs = true) : (setLage c r v s).fld (aRxStat c r + 4) 0 16 = min 0xFFFF v ∧
    (setLage c r v s).fld (aRxStat c r + 4) 16 16 = min 0xFFFF (min 0xFFFF v + s.fld (aRxStat c r) 24 8) := by
  have h1 : swf resetWord (s.setFld (aRxStat c r + 4) 0 16 (min 0xFFFF v)).regs = true := State.swf_setReg _ _ _ hw
  have hstat : (s.setFld (aRxStat c r + 4) 0 16 (min 0xFFFF v)).fld (aRxStat c r) 24 8 = s.fld (aRxStat c r) 24 8 :=
    State.fld_of_reg (State.reg_setFld_other _ _ _ _ _ _ (by omega)) ..
  unfold setLage
  dsimp only
  refine ⟨?_, ?_⟩
  · rw [State.fld_setFld_beside _ _ _ _ _ _ _ h1 (by decide), State.fld_setFld_same _ _ _ _ _ hw (by decide)]
    exact Nat.mod_eq_of_lt (by omega)
  · rw [State.fld_setFld_same _ _ _ _ _ h1 (by decide), hstat]
    exact Nat.mod_eq_of_lt (by omega)

end

/-! ### The cells of an entry -/

/-- The cells of a frame written into an entry. -/
def putCells (c r : Nat) (l : List (Word × Nat)) (s : State) : State := l.foldl (fun u x => u.setReg (aRxCell c r x.2) x.1) s

section
variable {c r : Nat}

theorem putCells_reg {k : Nat} (l : List (Word × Nat)) (hk : ∀ x ∈ l, k ≠ aRxCell c r x.2) (s : State) :
    (putCells c r l s).reg k = s.reg k := by
  induction l generalizing s with
  | nil => rfl
  | cons x l ih =>
    refine (ih (fun y hy => hk y (List.mem_cons_of_mem x hy)) _).trans (State.reg_setReg_other _ _ _ _ ?_)
    exact hk x List.mem_cons_self

theorem putCells_canon (l : List (Word × Nat)) {s : State} (hw : swf resetWord s.regs = true) :
    swf resetWord (putCells c r l s).regs = true := by
  induction l generalizing s with
  | nil => exact hw
  | cons x l ih => exact ih (State.swf_setReg _ _ _ hw)

theorem putCells_chn (l : List (Word × Nat)) (s : State) : (putCells c r l s).chn = s.chn := by
  induction l generalizing s with
  | nil => rfl
  | cons x l ih => exact ih _

/-- Each cell of an entry reads what was put there. -/
theorem putCells_cell (l : List Word) (i j : Nat) {s : State} (hw : swf resetWord s.regs = true) (hi : i < l.length) :
    (putCells c r (l.zipIdx j) s).reg (aRxCell c r (j + i)) = l.getD i 0 := by
  induction l generalizing s i j with
  | nil => exact absurd hi (by simp)
  | cons x l ih =>
    rw [List.zipIdx_cons]
    have hw' : swf resetWord (s.setReg (aRxCell c r j) x).regs = true := State.swf_setReg _ _ _ hw
    cases i with
    | zero =>
      refine (putCells_reg (l.zipIdx (j + 1)) (fun y hy => ?_) _).trans (State.reg_setReg_same _ _ _ hw)
      have := List.le_snd_of_mem_zipIdx hy
      unfold aRxCell
      omega
    | succ i =>
      have h := ih i (j + 1) hw' (by simpa using hi)
      rwa [Nat.add_assoc, Nat.add_comm 1 i] at h

end

/-- An entry in which a frame is stored, before its ages and its time. -/
def entryStat (c n : Nat) (f : Frame) (s : State) : State :=
  (putCells c (s.rxIdx c n) f.cells.zipIdx s).setReg (aRxStat c (s.rxIdx c n))
    (word (n + f.seq.toNat * 0x10000 + f.age.toNat * 0x1000000))

/-- The time at which an entry is stored. -/
def entryTime (c r : Nat) (t : State) : State :=
  (t.setReg (aRxStat c r + 8) (t.clk.ts.extractLsb' 0 32)).setReg (aRxStat c r + 12) (t.clk.ts.extractLsb' 32 32)

theorem storeEntry_eq (c n : Nat) (f : Frame) (s : State) :
    storeEntry c n f s = entryTime c (s.rxIdx c n) (setLage c (s.rxIdx c n) 0 (entryStat c n f s)) := rfl

theorem entryTime_reg {c r k : Nat} {t : State} (h8 : k ≠ aRxStat c r + 8) (h12 : k ≠ aRxStat c r + 12) :
    (entryTime c r t).reg k = t.reg k := by
  rw [entryTime, State.reg_setReg_other _ _ _ _ h12, State.reg_setReg_other _ _ _ _ h8]

theorem aRxCell_ne_aRxStat {c r i o : Nat} (hc : c < 2) (hr : r < 256) (hi : i < 64) (c' r' : Nat) :
    aRxCell c r i ≠ aRxStat c' r' + o := by
  unfold aRxCell aRxStat
  omega

section
variable {c n : Nat} {f : Frame} {s : State}

theorem storeEntry_reg {k : Nat} (hk : ∀ o, k ≠ aRxStat c (s.rxIdx c n) + o) :
    (storeEntry c n f s).reg k = (putCells c (s.rxIdx c n) f.cells.zipIdx s).reg k := by
  rw [storeEntry_eq, entryTime_reg (hk 8) (hk 12), setLage_reg (hk 4), entryStat, State.reg_setReg_other _ _ _ _ (by simpa using hk 0)]

theorem entryStat_canon (hw : swf resetWord s.regs = true) : swf resetWord (entryStat c n f s).regs = true :=
  State.swf_setReg _ _ _ (putCells_canon _ hw)

theorem entryStat_reg (hw : swf resetWord s.regs = true) : (entryStat c n f s).reg (aRxStat c (s.rxIdx c n)) =
    word (n + f.seq.toNat * 0x10000 + f.age.toNat * 0x1000000) := State.reg_setReg_same _ _ _ (putCells_canon _ hw)

/-- The status word of an entry, field by field. -/
theorem entryStat_fields (hn : n < 4096) (hw : swf resetWord s.regs = true) :
    (entryStat c n f s).fld (aRxStat c (s.rxIdx c n)) 24 8 = f.age.toNat ∧
    (entryStat c n f s).fld (aRxStat c (s.rxIdx c n)) 16 8 = f.seq.toNat := by
  have ha := f.age.isLt
  have hs := f.seq.isLt
  rw [State.fld, State.fld, entryStat_reg hw, bits, bits, word, BitVec.toNat_ofNat, Nat.shiftRight_eq_div_pow, Nat.shiftRight_eq_div_pow]
  omega

theorem storeEntry_chn : (storeEntry c n f s).chn = s.chn := by
  rw [storeEntry_eq, entryTime, State.setReg_chn, State.setReg_chn, setLage_chn, entryStat, State.setReg_chn, putCells_chn]

end

end Sys2Proof.Machine

open Sys2Proof Sys2Proof.Machine

/-- Settles O42: the cells, the status word and the ages of an entry stand in registers of their own. -/
theorem receivedSlot : Obligations.ReceivedSlot := by
  intro c n s hwf hc hr
  have hw := Memory.wf_regs hwf
  refine ⟨fun f hn hlen => ⟨fun i hi => ?cell, ?age, ?seq, ?lage, ?total, storeEntry_chn⟩, fun k => ⟨?miss, ?sum, fun j hj => setLage_reg hj⟩⟩
  case cell =>
    rw [storeEntry_reg fun o => aRxCell_ne_aRxStat hc hr (by omega) _ _]
    simpa using putCells_cell f.cells i 0 hw hi
  case age =>
    rw [storeEntry_eq, State.fld_of_reg (entryTime_reg (by omega) (by omega)), State.fld_of_reg (setLage_reg (by omega))]
    exact (entryStat_fields hn hw).1
  case seq =>
    rw [storeEntry_eq, State.fld_of_reg (entryTime_reg (by omega) (by omega)), State.fld_of_reg (setLage_reg (by omega))]
    exact (entryStat_fields hn hw).2
  case lage =>
    rw [storeEntry_eq, State.fld_of_reg (entryTime_reg (by omega) (by omega))]
    exact (setLage_ages (entryStat_canon hw)).1
  case total =>
    rw [storeEntry_eq, State.fld_of_reg (entryTime_reg (by omega) (by omega)), (setLage_ages (entryStat_canon hw)).2,
      (entryStat_fields hn hw).1]
    have := f.age.isLt
    omega
  case miss => exact (setLage_ages hw).1
  case sum => rw [(setLage_ages hw).2, (setLage_ages hw).1]
end

section
/-!
PROOFS. The steps of the modulator rotation (R276 to R283, Table 10.5).
-/
namespace Sys2Proof.Machine

@[simp] theorem State.gr_setReg (s : State) (k g : Nat) (v : Word) : (s.setReg k v).gr g = s.gr g := rfl
@[simp] theorem State.gr_setFld (s : State) (k lo w v g : Nat) : (s.setFld k lo w v).gr g = s.gr g := rfl
@[simp] theorem State.gr_setFlag (s : State) (k i g : Nat) (b : Bool) : (s.setFlag k i b).gr g = s.gr g := rfl
@[simp] theorem State.gr_count (s : State) (k g : Nat) : (s.count k).gr g = s.gr g := rfl
@[simp] theorem State.gr_setCh (s : State) (n g : Nat) (a : ChanAux) : (s.setCh n a).gr g = s.gr g := rfl
@[simp] theorem State.gr_emit (s : State) (c : Ev) (o : Obj) (d : List Fld) (g : Nat) : (s.emit c o d).gr g = s.gr g := rfl

theorem gr_swapSpare (g n : Nat) (s : State) : (swapSpare g n s).gr g = s.gr g := by
  rw [swapSpare, State.gr_setFld, State.gr_setFld, State.gr_setFld]

/-- A step of the rotation takes the channel that comes next, where there is one. -/
def stepTo (g : Nat) (t : State) : Option Nat → State
  | some c => (t.setFld (aRot g) 8 4 c).setGr g { t.gr g with conv := { (t.gr g).conv with next := (c + 1) % 16 } }
  | none => t

section
variable {g : Nat} {s : State} (h : s.modLive g = true)
include h

theorem exec_rotationStepStart (hon : s.rotOn g = true) (hs : s.rotSt g = 0) {t : State} (ht : s.setFld (aRot g) 0 3 1 = t) {o : Option Nat}
    (ho : t.stepFrom g 16 (t.gr g).conv.next = o) : exec (.rotationStepStart g) s = done (stepTo g t o) := by
  have he : exec (.rotationStepStart g) s = execRotationStepStart g s := rfl
  rw [he, execRotationStepStart, if_pos (by simp [h, hon, hs]), ht]
  dsimp only
  rw [ho]
  cases o <;> rfl

theorem exec_calComplete (zero ref : Int) (hs : s.rotSt g = 1) : exec (.calComplete g zero ref) s = done
    (if (calOf zero ref).isNone then mismatch g s
      else if (calSpare g zero ref s).flag (grA g 0x44) 12 then (calSpare g zero ref s).setFld (aRot g) 0 3
        (if ((calSpare g zero ref s).stepFrom g 16 0).isNone || isAo ((calSpare g zero ref s).mode ((calSpare g zero ref s).rotCh g)) then 0 else 2)
      else (calSpare g zero ref s).setFld (aRot g) 0 3 6) := congrArg done (if_pos (by simp [h, hs]))

theorem exec_rotConnect (hs : s.rotSt g = 2) : exec (.rotConnect g) s = done
    (if isAo (s.mode (s.rotCh g)) then s.setFld (aRot g) 0 3 0
      else if isAi (s.mode (s.rotCh g)) then
        if decide (s.nSettle (s.rotCh g) ≤ (s.ch (s.rotCh g)).conv.outs) && s.active (s.rotCh g) then
          (s.setFld (aRot g) 0 3 3).setGr g { s.gr g with conv := { (s.gr g).conv with spare1 := 0, spare2 := 0 } }
        else s
      else swapSpare g (s.rotCh g) s) := congrArg done (if_pos (by simp [h, hs]))

end

/-- A channel that measures is no output. -/
theorem isAo_of_isAi {m : Nat} (h : isAi m = true) : isAo m = false := by
  simp only [isAi, isAo, decide_eq_true_eq, decide_eq_false_iff_not] at *
  omega

end Sys2Proof.Machine

open Sys2Proof Sys2Proof.Machine

/-- Settles O35: each event is met in its state of the rotation, and moves it on as Table 10.5 says. -/
theorem rotationSteps : Obligations.RotationSteps := by
  intro g s h
  refine ⟨fun hon hst => ⟨fun c hc => ?step, fun hc => ?none_⟩, fun zero ref hst => ⟨fun hc => ?bad, fun hc => ⟨fun hf => ?off,
    fun hf hs ha => ?on, fun hf hs => ?skip⟩⟩, fun hst => ⟨fun hi ho ha => ?connect, fun hao => ?output, fun hi hao => ?swap⟩,
    fun hst => ?settled, fun hst hp => ?handover, fun zero ref hst => ?recal, fun m hm hf => ?fail⟩
  case step =>
    refine becomes_done ((exec_rotationStepStart h hon hst rfl (o := some c) (by rw [State.gr_setFld, hc])).trans ?_)
    rw [stepTo, State.gr_setFld]
  case none_ => exact becomes_done (exec_rotationStepStart h hon hst rfl (o := none) (by rw [State.gr_setFld, hc]))
  case bad => exact becomes_if (exec_calComplete h zero ref hst) (by simp [hc])
  case off =>
    refine becomes_done ((exec_calComplete h zero ref hst).trans ?_)
    rw [if_neg (by simpa using hc), if_neg (by rw [hf]; decide)]
  case on =>
    refine becomes_done ((exec_calComplete h zero ref hst).trans ?_)
    rw [if_neg (by simpa using hc), if_pos hf, if_neg (by simpa [ha] using hs)]
  case skip =>
    refine becomes_done ((exec_calComplete h zero ref hst).trans ?_)
    rw [if_neg (by simpa using hc), if_pos hf, if_pos (by rcases hs with hs | hs <;> simp [hs])]
  case connect =>
    refine becomes_done ((exec_rotConnect h hst).trans ?_)
    rw [if_neg (by simp [isAo_of_isAi hi]), if_pos hi, if_pos (by simp [ho, ha])]
  case output => exact becomes_if (exec_rotConnect h hst) hao
  case swap =>
    refine becomes_done ((exec_rotConnect h hst).trans ?_)
    rw [if_neg (by simp [hao]), if_neg (by simp [hi])]
  case settled => exact becomes_if rfl (by simp [h, hst])
  case handover =>
    refine becomes_done (s := s) ((congrArg done (if_pos (by simp [h, hst, hp]))).trans ?_)
    dsimp only
    rw [State.gr_count, State.gr_setFld, State.gr_setCh, gr_swapSpare]
  case recal => exact becomes_if rfl (by simp [h, hst])
  case fail => exact becomes_if rfl (by simp [h, hm, hf])
end

section
/-!
PROOFS. A boundary of a conversion filter (R239, R265 to R269, R278): the value, its time and its age.
-/
namespace Sys2Proof.Machine

/-! ### What a result leaves of its slot -/

/-- The registers of the slot of an analogue input: its mode, filter, age, value, code and time. -/
def slotOffsets : List Nat := [0, 0x80, 0x84, 0x248, 0x250, 0x254, 0x258]

/-- From s to t the slot of the channel n stays, with SATUR and the mark of no value in its status. -/
structure KeepsSlot (n : Nat) (s t : State) : Prop where
  reg    : ∀ o ∈ slotOffsets, t.reg (chA n o) = s.reg (chA n o)
  stat   : ∀ i, i = 1 ∨ i = 18 → t.flag (aStat n) i = s.flag (aStat n) i
  member : t.member = s.member
  canon  : swf resetWord t.regs = true

namespace KeepsSlot
variable {n : Nat} {s t u : State}

theorem refl (hw : swf resetWord s.regs = true) : KeepsSlot n s s := ⟨fun _ _ => rfl, fun _ _ => rfl, rfl, hw⟩

theorem trans (h : KeepsSlot n s t) (g : KeepsSlot n t u) : KeepsSlot n s u :=
  ⟨fun o ho => (g.reg o ho).trans (h.reg o ho), fun i hi => (g.stat i hi).trans (h.stat i hi), g.member.trans h.member, g.canon⟩

theorem ite {a b : State} {c : Prop} [Decidable c] (ha : KeepsSlot n s a) (hb : KeepsSlot n s b) : KeepsSlot n s (if c then a else b) := by
  split
  · exact ha
  · exact hb

variable (h : KeepsSlot n s t)
include h

theorem mode : t.mode n = s.mode n := mode_of_reg (h.reg 0 (by decide))

/-- A change that touches no register. -/
theorem of_regs (hr : u.regs = t.regs) (hm : u.member = t.member) : KeepsSlot n s u :=
  have hreg (k : Nat) : u.reg k = t.reg k := by rw [State.reg, State.reg, hr]
  h.trans ⟨fun o _ => hreg _, fun i _ => State.flag_of_reg (hreg _) i, hm, hr ▸ h.canon⟩

theorem setCh (m : Nat) (a : ChanAux) : KeepsSlot n s (t.setCh m a) := h.of_regs rfl rfl
theorem setGr (g : Nat) (a : GrpAux) : KeepsSlot n s (t.setGr g a) := h.of_regs rfl rfl
theorem emit (c : Ev) (o : Obj) (d : List Fld) : KeepsSlot n s (t.emit c o d) := h.of_regs rfl rfl

theorem setReg (k : Nat) (v : Word) (hk : ∀ o ∈ slotOffsets, chA n o ≠ k) (hs : aStat n ≠ k) : KeepsSlot n s (t.setReg k v) :=
  h.trans ⟨fun o ho => State.reg_setReg_other _ _ _ _ (hk o ho), fun i _ => State.flag_of_reg (State.reg_setReg_other _ _ _ _ hs) i, rfl,
    State.swf_setReg _ _ _ h.canon⟩

/-- A register of the channel outside its slot. -/
theorem setChA (o : Nat) (v : Word) (ho : o ∉ slotOffsets ∧ o ≠ 0x14) : KeepsSlot n s (t.setReg (chA n o) v) :=
  h.setReg _ v (fun p hp he => ho.1 (by rw [chA, chA, Nat.add_left_cancel_iff] at he; exact Eq.subst he hp)) fun he => ho.2 (by
    rw [aStat, chA, chA, Nat.add_left_cancel_iff] at he; exact he.symm)

theorem setGrA (g o : Nat) (v : Word) (ho : o < 0x1000) : KeepsSlot n s (t.setReg (grA g o) v) := by
  refine h.setReg _ v (fun p hp => ?_) (by unfold aStat chA grA; omega)
  simp only [slotOffsets, List.mem_cons, List.not_mem_nil, or_false] at hp
  unfold chA grA
  omega

theorem setStat (i : Nat) (b : Bool) (hi : i ≠ 1 ∧ i ≠ 18) : KeepsSlot n s (t.setFlag (aStat n) i b) := by
  refine h.trans ⟨fun o ho => State.reg_setFlag_other _ _ _ _ _ fun he => ?_, fun j hj => State.flag_setFlag_beside _ _ _ _ _ h.canon ?_,
    rfl, State.swf_setReg _ _ _ h.canon⟩
  · rw [aStat, chA, chA, Nat.add_left_cancel_iff] at he
    exact absurd (he ▸ ho) (by decide)
  · rcases hj with rfl | rfl
    · exact hi.1.symm
    · exact hi.2.symm

/-- What moves only registers outside the slot. -/
theorem moves {K C : Nat → Prop} (g : Moves K C t u) (hK : ∀ o ∈ slotOffsets, ¬ K (chA n o)) (hs : ¬ K (aStat n)) : KeepsSlot n s u :=
  h.trans ⟨fun o ho => g.reg _ (hK o ho), fun i _ => g.flag hs i, g.rest.member, g.canon h.canon⟩

/-- The fault of another channel. -/
theorem refreshFault {w : Nat} (hw : w < 128) (hne : w ≠ n) : KeepsSlot n s (refreshFault w t) := by
  have hnot (o : Nat) (hs : chA n o ≠ aStat w) : ¬ safeReg [w] (chA n o) := not_safeReg_of (by unfold chA aChst; omega) hs
    (by unfold chA aSafeCh; omega)
  refine h.moves (moves_refreshFault w t) (fun o ho => hnot o ?_) (hnot 0x14 fun he => hne (aStat_inj _ _ he).symm)
  simp only [slotOffsets, List.mem_cons, List.not_mem_nil, or_false] at ho
  unfold aStat chA
  omega

theorem cfgErr (b : Bool) : KeepsSlot n s (cfgErr n b t) := .ite (h.setStat _ _ (by decide)) h

theorem rangeToggle (b : Nat) (hb : b = 16 ∨ b = 17) : KeepsSlot n s (rangeToggle n b t) := by
  have hset : KeepsSlot n s (t.setFlag (aStat n) b (!t.flag (aStat n) b)) := h.setStat _ _ (by omega)
  exact .ite ((hset.setStat _ _ (by decide)).emit ..) hset

theorem rangeResult (v : Int) : KeepsSlot n s (rangeResult n v t) := by
  unfold Machine.rangeResult
  dsimp only
  exact .ite (.rangeToggle (.ite (.rangeToggle (h.setCh ..) _ (.inl rfl)) (h.setCh ..)) _ (.inr rfl))
    (.ite (.rangeToggle (h.setCh ..) _ (.inl rfl)) (h.setCh ..))

/-- The fault of the target of a window, which is an output. -/
theorem refreshTarget (hm : isOut (s.mode n) = false) : KeepsSlot n s (refreshTarget n t) := by
  unfold Machine.refreshTarget
  dsimp only
  split
  · next hw =>
    obtain ⟨hlt, hout⟩ := hw
    refine h.refreshFault (hlt.trans_le (channels_le _)) fun he => ?_
    rw [he, h.mode, hm] at hout
    cases hout
  · exact h

theorem winResult (hm : isOut (s.mode n) = false) (v : Int) : KeepsSlot n s (winResult n v t) := by
  unfold Machine.winResult
  dsimp only
  refine .ite h (.ite (h.setCh ..) (.ite ?_ (h.setCh ..)))
  exact ((((h.setCh ..).setChA 0x98 _ (by decide)).setChA 0x98 _ (by decide)).emit ..).cfgErr _ |>.refreshTarget hm

theorem xchkResult (v : Int) : KeepsSlot n s (xchkResult n v t) := by
  unfold Machine.xchkResult
  dsimp only
  exact .ite ((h.setGr ..).setGrA _ _ _ (by decide)) h

theorem rangeIdle : KeepsSlot n s (rangeIdle n t) := h.setCh ..

theorem periodEnd : KeepsSlot n s (periodEnd n t) := by
  unfold Machine.periodEnd
  dsimp only
  have hx : KeepsSlot n s (if t.xch (n / 16) = n then t.setGr (n / 16) { t.gr (n / 16) with
    conv := { (t.gr (n / 16)).conv with xSum := 0, xNum := 0 } } else t) := .ite (h.setGr ..) h
  exact .ite ((hx.setCh ..).setCh ..) (hx.setCh ..)

end KeepsSlot

/-! ### The slot of a valid result -/

/-- The slot that a valid result fills, before what its value means for the range, the window and the cross-check. -/
def filledSlot (n : Nat) (x : Int × Bool × Bool × Int) (s : State) : State :=
  let t := (slotValid n s).draw
  let t := (t.setReg (chA n 0x248) (wordI x.1)).setReg (chA n 0x24C) (wordI x.2.2.2)
  let t := t.setPair (chA n 0x254) t.clk.ts
  (t.setFlag (aStat n) 18 x.2.1).setFlag (aStat n) 23 x.2.2.1

theorem inputResult_eq (n : Nat) (v : Int) (s : State) : inputResult n v s =
    xchkResult n (s.convert n v).1 (winResult n (s.convert n v).1 (rangeResult n (s.convert n v).1 (filledSlot n (s.convert n v) s))) := rfl

/-- A field all of whose bits are clear. -/
theorem State.fld_zero_of_flags {t : State} {k lo w : Nat} (h : ∀ i, lo ≤ i → i < lo + w → t.flag k i = false) : t.fld k lo w = 0 := by
  apply Nat.eq_of_testBit_eq
  intro i
  rw [State.fld, testBit_bits, Nat.zero_testBit]
  by_cases hi : i < w
  · have hf := h (lo + i) (by omega) (by omega)
    rw [State.flag, bit] at hf
    rw [hf, Bool.and_false]
  · simp [hi]

section
variable {n : Nat} {x : Int × Bool × Bool × Int} {s : State}

theorem slotValid_canon (hw : swf resetWord s.regs = true) : swf resetWord (slotValid n s).regs = true := by
  rw [slotValid]
  exact State.swf_setReg _ _ _ (State.swf_setReg _ _ _ (State.swf_setReg _ _ _ hw))

/-- The age, the mark of a stale slot and the mark of no value, cleared. -/
theorem cleared_slot (hw : swf resetWord s.regs = true) :
    (((s.setFld (chA n 0x84) 0 16 0).setFlag (chA n 0x84) 16 false).setFlag (aStat n) 1 false).fld (chA n 0x84) 0 17 = 0 ∧
    (((s.setFld (chA n 0x84) 0 16 0).setFlag (chA n 0x84) 16 false).setFlag (aStat n) 1 false).flag (aStat n) 1 = false := by
  have h1 : swf resetWord (s.setFld (chA n 0x84) 0 16 0).regs = true := State.swf_setReg _ _ _ hw
  have h2 : swf resetWord ((s.setFld (chA n 0x84) 0 16 0).setFlag (chA n 0x84) 16 false).regs = true := State.swf_setReg _ _ _ h1
  refine ⟨State.fld_zero_of_flags fun i _ hi => ?_, State.flag_setFlag_same _ _ _ _ h2 (by decide)⟩
  rw [State.flag_of_reg (State.reg_setFlag_other _ _ _ _ _ (by unfold aStat chA; omega))]
  by_cases he : i = 16
  · rw [he, State.flag_setFlag_same _ _ _ _ h1 (by decide)]
  · rw [State.flag_setFlag_beside _ _ _ _ _ h1 he, State.flag, bit, s.reg_setFld_same (chA n 0x84) 0 16 0 hw, getLsbD_setBits,
      if_pos ⟨Nat.zero_le i, by omega, by omega⟩, Nat.zero_testBit]

/-- A slot made valid has no age, is not stale and holds a value. -/
theorem slotValid_clears (hw : swf resetWord s.regs = true) :
    (slotValid n s).fld (chA n 0x84) 0 17 = 0 ∧ (slotValid n s).flag (aStat n) 1 = false := by
  rw [slotValid]
  exact cleared_slot (by rw [State.setCh_regs]; exact hw)

/-- The slot with the value, before its time and its status. -/
def valuedSlot (n : Nat) (x : Int × Bool × Bool × Int) (s : State) : State :=
  ((slotValid n s).draw.setReg (chA n 0x248) (wordI x.1)).setReg (chA n 0x24C) (wordI x.2.2.2)

theorem filledSlot_eq : filledSlot n x s = (((valuedSlot n x s).setPair (chA n 0x254) s.clk.ts).setFlag (aStat n) 18 x.2.1).setFlag
    (aStat n) 23 x.2.2.1 := rfl

theorem valuedSlot_canon (hw : swf resetWord s.regs = true) : swf resetWord (valuedSlot n x s).regs = true := by
  rw [valuedSlot]
  exact State.swf_setReg _ _ _ (State.swf_setReg _ _ _ (by rw [State.draw_regs]; exact slotValid_canon hw))

theorem valuedSlot_reg {k : Nat} (h1 : k ≠ chA n 0x248) (h2 : k ≠ chA n 0x24C) : (valuedSlot n x s).reg k = (slotValid n s).reg k := by
  rw [valuedSlot, State.reg_setReg_other _ _ _ _ h2, State.reg_setReg_other _ _ _ _ h1, State.reg_draw]

theorem filledSlot_reg {k : Nat} (h1 : k ≠ chA n 0x254) (h2 : k ≠ chA n 0x258) (h3 : k ≠ aStat n) :
    (filledSlot n x s).reg k = (valuedSlot n x s).reg k := by
  rw [filledSlot_eq, State.reg_setFlag_other _ _ _ _ _ h3, State.reg_setFlag_other _ _ _ _ _ h3, State.reg_setPair_other h1 (by
    unfold chA at *; omega)]

variable (hw : swf resetWord s.regs = true)
include hw

theorem timedSlot_canon : swf resetWord ((valuedSlot n x s).setPair (chA n 0x254) s.clk.ts).regs = true := by
  rw [State.setPair]
  exact State.swf_setReg _ _ _ (State.swf_setReg _ _ _ (valuedSlot_canon hw))

theorem filledSlot_canon : swf resetWord (filledSlot n x s).regs = true := by
  rw [filledSlot_eq]
  exact State.swf_setReg _ _ _ (State.swf_setReg _ _ _ (timedSlot_canon hw))

theorem filledSlot_value : (filledSlot n x s).reg (chA n 0x248) = wordI x.1 := by
  rw [filledSlot_reg (by unfold chA; omega) (by unfold chA; omega) (by unfold aStat chA; omega), valuedSlot,
    State.reg_setReg_other _ _ _ _ (by unfold chA; omega), State.reg_setReg_same _ _ _ (by
      rw [State.draw_regs]
      exact slotValid_canon hw)]

omit hw in
theorem filledSlot_code : (filledSlot n x s).reg (chA n 0x250) = s.reg (chA n 0x250) := by
  rw [filledSlot_reg (by unfold chA; omega) (by unfold chA; omega) (by unfold aStat chA; omega), valuedSlot_reg (by unfold chA; omega)
    (by unfold chA; omega), slotValid_reg (by unfold chA; omega) (by unfold aStat chA; omega)]

theorem filledSlot_time : (filledSlot n x s).pair (chA n 0x254) = s.clk.ts := by
  have hne (o : Nat) (ho : o ≠ 0x14) (t : State) (i : Nat) (b : Bool) : (t.setFlag (aStat n) i b).reg (chA n o) = t.reg (chA n o) :=
    State.reg_setFlag_other _ _ _ _ _ (by unfold aStat chA; omega)
  have hs : chA n 0x254 + 4 = chA n 0x258 := rfl
  rw [filledSlot_eq, State.pair, hs, hne _ (by decide), hne _ (by decide), hne _ (by decide), hne _ (by decide), ← hs, ← State.pair,
    State.pair_setPair_same (valuedSlot_canon hw)]

theorem filledSlot_age : (filledSlot n x s).fld (chA n 0x84) 0 17 = 0 := by
  rw [State.fld_of_reg (filledSlot_reg (by unfold chA; omega) (by unfold chA; omega) (by unfold aStat chA; omega)),
    State.fld_of_reg (valuedSlot_reg (by unfold chA; omega) (by unfold chA; omega)), (slotValid_clears hw).1]

theorem filledSlot_stat : (filledSlot n x s).flag (aStat n) 1 = false ∧ (filledSlot n x s).flag (aStat n) 18 = x.2.1 := by
  have h1 := timedSlot_canon (n := n) (x := x) hw
  have h2 : swf resetWord (((valuedSlot n x s).setPair (chA n 0x254) s.clk.ts).setFlag (aStat n) 18 x.2.1).regs = true :=
    State.swf_setReg _ _ _ h1
  rw [filledSlot_eq]
  refine ⟨?_, ?_⟩
  · rw [State.flag_setFlag_beside _ _ _ _ _ h2 (by decide), State.flag_setFlag_beside _ _ _ _ _ h1 (by decide),
      State.flag_of_reg (State.reg_setPair_other (by unfold aStat chA; omega) (by unfold aStat chA; omega)),
      State.flag_of_reg (valuedSlot_reg (by unfold aStat chA; omega) (by unfold aStat chA; omega)), (slotValid_clears hw).2]
  · rw [State.flag_setFlag_beside _ _ _ _ _ h2 (by decide), State.flag_setFlag_same _ _ _ _ h1 (by decide)]

end

/-! ### The boundary -/

section
variable {n : Nat} {x : Int} {s : State}

theorem boundary_regs : (boundary n x s).regs = s.regs := rfl

theorem boundary_outs (hw : swf (fun _ => ({} : ChanAux)) s.chn = true) :
    ((boundary n x s).ch n).conv.outs = min 5 ((s.ch n).conv.outs + 1) := by
  rw [boundary, State.ch_setCh_same _ _ _ hw]

theorem boundary_chn (hw : swf (fun _ => ({} : ChanAux)) s.chn = true) : swf (fun _ => ({} : ChanAux)) (boundary n x s).chn = true :=
  State.swf_setCh hw

theorem rangeIdle_regs : (rangeIdle n s).regs = s.regs := rfl

theorem rangeIdle_outs (hw : swf (fun _ => ({} : ChanAux)) s.chn = true) : ((rangeIdle n s).ch n).conv.outs = (s.ch n).conv.outs := by
  rw [rangeIdle, State.ch_setCh_same _ _ _ hw]

theorem rangeIdle_chn (hw : swf (fun _ => ({} : ChanAux)) s.chn = true) : swf (fun _ => ({} : ChanAux)) (rangeIdle n s).chn = true :=
  State.swf_setCh hw

/-- The sums of a scan period begin anew. -/
def clearSums (m : Nat) (t : State) : State :=
  t.setCh m { t.ch m with conv := { (t.ch m).conv with priSum := 0, priNum := 0, secSum := 0, secNum := 0 } }

/-- The sums of the cross-check begin anew. -/
def clearXchk (n : Nat) (s : State) : State :=
  if s.xch (n / 16) = n then s.setGr (n / 16) { s.gr (n / 16) with conv := { (s.gr (n / 16)).conv with xSum := 0, xNum := 0 } } else s

theorem periodEnd_eq (n : Nat) (s : State) : periodEnd n s = if (clearXchk n s).flag (chA n 0) 4 then
    clearSums (n + 1) (clearSums n (clearXchk n s)) else clearSums n (clearXchk n s) := rfl

theorem clearXchk_regs : (clearXchk n s).regs = s.regs := by unfold clearXchk; split <;> rfl
theorem clearXchk_chn : (clearXchk n s).chn = s.chn := by unfold clearXchk; split <;> rfl

theorem periodEnd_regs : (periodEnd n s).regs = s.regs := by
  rw [periodEnd_eq, ← clearXchk_regs (n := n) (s := s)]
  split <;> rfl

theorem clearSums_outs (hw : swf (fun _ => ({} : ChanAux)) s.chn = true) : ((clearSums n s).ch n).conv.outs = (s.ch n).conv.outs := by
  rw [clearSums, State.ch_setCh_same _ _ _ hw]

theorem periodEnd_outs (hw : swf (fun _ => ({} : ChanAux)) s.chn = true) : ((periodEnd n s).ch n).conv.outs = (s.ch n).conv.outs := by
  have hx : ((clearXchk n s).ch n).conv.outs = (s.ch n).conv.outs := by rw [State.ch, State.ch, clearXchk_chn]
  have hw' : swf (fun _ => ({} : ChanAux)) (clearXchk n s).chn = true := by rw [clearXchk_chn]; exact hw
  rw [periodEnd_eq]
  split
  · rw [clearSums, State.ch_setCh_other _ _ _ _ (by omega), clearSums_outs hw', hx]
  · rw [clearSums_outs hw', hx]

theorem reg_of_regs {t : State} (h : t.regs = s.regs) (k : Nat) : t.reg k = s.reg k := by rw [State.reg, State.reg, h]

/-- A boundary without a result, past its Becomes: the age counts, the output counts toward the settling. -/
theorem missedBoundary (hwf : Memory.wf s = true) :
    (periodEnd n (rangeIdle n (ageUp n (boundary n x s.draw)))).fld (chA n 0x84) 0 16 = min 65535 (s.fld (chA n 0x84) 0 16 + 1) ∧
    ((periodEnd n (rangeIdle n (ageUp n (boundary n x s.draw)))).ch n).conv.outs = min 5 ((s.ch n).conv.outs + 1) ∧
    ∀ k, k ≠ chA n 0x84 → (periodEnd n (rangeIdle n (ageUp n (boundary n x s.draw)))).reg k = s.reg k := by
  have hb : (boundary n x s.draw).regs = s.regs := by rw [boundary_regs, State.draw_regs]
  have hwc : swf (fun _ => ({} : ChanAux)) s.draw.chn = true := by rw [State.draw_chn]; exact Memory.wf_chn hwf
  have hr (k : Nat) : (periodEnd n (rangeIdle n (ageUp n (boundary n x s.draw)))).reg k = (ageUp n (boundary n x s.draw)).reg k :=
    reg_of_regs (by rw [periodEnd_regs, rangeIdle_regs]) k
  have ha : swf (fun _ => ({} : ChanAux)) (ageUp n (boundary n x s.draw)).chn = true := by
    rw [ageUp, State.setFld_chn]
    exact boundary_chn hwc
  refine ⟨?_, ?_, fun k hk => ?_⟩
  · rw [State.fld_of_reg (hr _), ageUp, State.fld_setFld_same _ _ _ _ _ (by rw [hb]; exact Memory.wf_regs hwf) (by decide),
      State.fld_of_reg (reg_of_regs hb _)]
    exact Nat.mod_eq_of_lt (by omega)
  · rw [periodEnd_outs (rangeIdle_chn ha), rangeIdle_outs ha, ageUp, State.ch_setFld, boundary_outs hwc, State.ch, State.draw_chn]
    rfl
  · rw [hr, ageUp, State.reg_setFld_other _ _ _ _ _ _ hk, reg_of_regs hb]

end

/-! ### The value of an AIC or AIV channel -/

section
variable {n : Nat} {m : Measure} {s : State}

/-- The code of a boundary. -/
def boundCode (n : Nat) (m : Measure) (s : State) : Int :=
  notch (s.fld (chA n 0x80) 4 2) (streamOut (s.outD n) m.src) (s.ch n).conv.x1 (s.ch n).conv.x2

/-- The channel after its boundary, with the code in its slot. -/
def codedSlot (n : Nat) (m : Measure) (s : State) : State :=
  (boundary n (streamOut (s.outD n) m.src) s).setReg (chA n 0x250) (wordI (boundCode n m s) &&& 0xFFFFFF)

/-- The span of the values of an input, and whether a value lies beyond it. -/
theorem convert_span {v : Int} (hm : s.mode n = 5 ∨ s.mode n = 6) :
    (s.convert n v).1 = max (if s.mode n = 5 then 0 else -11000000) (min (if s.mode n = 5 then 25000000 else 11000000) v) ∧
    (s.convert n v).2.1 = decide (v < (if s.mode n = 5 then 0 else -11000000) ∨ (if s.mode n = 5 then (25000000 : Int) else 11000000) < v) := by
  have hclamp (lo hi : Int) (h : lo ≤ hi) : clampI lo hi v = max lo (min hi v) := by
    unfold clampI
    omega
  rcases hm with hm | hm
  all_goals
    simp only [State.convert, hm]
    exact ⟨hclamp _ _ (by decide), rfl⟩

theorem rtdPeriod_other {high : Bool} {v : Option Int} (hm : s.mode n ≠ 7) : rtdPeriod n high v s = s := if_pos hm

theorem codedSlot_mode : (codedSlot n m s).mode n = s.mode n := by
  refine mode_of_reg ?_
  rw [codedSlot, State.reg_setReg_other _ _ _ _ (by unfold chA; omega), reg_of_regs boundary_regs]

variable (hm : s.mode n = 5 ∨ s.mode n = 6) (hf : s.gFenced (n / 16) .mod = false) (hsp : m.spare = none)

/-- A boundary of an AIC or AIV channel past its item. -/
def boundResult (n : Nat) (m : Measure) (s : State) : State :=
  if (boundary n (streamOut (s.outD n) m.src) s).nSettle n ≤ ((boundary n (streamOut (s.outD n) m.src) s).ch n).conv.outs then
    periodEnd n (inputResult n (s.valueOf n m.full (boundCode n m s)) (codedSlot n m s))
  else periodEnd n (rangeIdle n (ageUp n (codedSlot n m s)))

include hm hf hsp in
theorem convResult_eq {a : State} (ha : a.item (n / 16) = s) : convResult n m a = boundResult n m s := by
  unfold convResult
  rw [ha]
  extract_lets u c x y low t ok v t1 t2 t3 t4
  have hmt : t.mode n = s.mode n := mode_of_reg (reg_of_regs boundary_regs _)
  have hlow : low = false := hf
  have h1 : t1 = t := rtdPeriod_other (by omega)
  have h2 : t2 = codedSlot n m s := by
    have hai : isAi (t1.mode n) = true := by rw [h1, hmt]; rcases hm with h | h <;> rw [h] <;> rfl
    exact (if_pos (by rw [hai, hlow]; rfl)).trans (by rw [h1]; rfl)
  have hm2 : t2.mode n = s.mode n := by rw [h2, codedSlot_mode]
  have h7 : decide (t2.mode n = 7) = false := decide_eq_false (by omega)
  have hai : isAi (t2.mode n) = true := by rw [hm2]; rcases hm with h | h <;> rw [h] <;> rfl
  unfold boundResult
  by_cases hs : (boundary n (streamOut (s.outD n) m.src) s).nSettle n ≤ ((boundary n (streamOut (s.outD n) m.src) s).ch n).conv.outs
  · rw [if_pos hs]
    have hok : ok = true := decide_eq_true hs
    have hv : v = some (s.valueOf n m.full (boundCode n m s)) := (if_neg (by rw [hok]; decide)).trans (if_neg (by rw [hlow]; decide))
    have h3 : t3 = inputResult n (s.valueOf n m.full (boundCode n m s)) (codedSlot n m s) := by
      simp only [t3, hv]
      rw [if_neg (by rw [h7]; simp), if_pos hai, h2]
    rw [hsp]
    simp only [t4, h3]
  · rw [if_neg hs]
    have hok : ok = false := decide_eq_false hs
    have hv : v = none := if_pos (by rw [hok]; rfl)
    have h3 : t3 = rangeIdle n (ageUp n (codedSlot n m s)) := by simp only [t3, hv, h2]
    rw [hsp]
    simp only [t4, h3]

theorem boundary_nSettle (x : Int) : (boundary n x s).nSettle n = s.nSettle n := by
  rw [State.nSettle, State.nSettle, State.fld_of_reg (reg_of_regs boundary_regs _)]

theorem codedSlot_canon (hw : swf resetWord s.regs = true) : swf resetWord (codedSlot n m s).regs = true := by
  rw [codedSlot]
  exact State.swf_setReg _ _ _ (by rw [boundary_regs]; exact hw)

theorem codedSlot_code (hw : swf resetWord s.regs = true) :
    (codedSlot n m s).reg (chA n 0x250) = wordI (boundCode n m s) &&& 0xFFFFFF := by
  rw [codedSlot, State.reg_setReg_same _ _ _ (by rw [boundary_regs]; exact hw)]

theorem codedSlot_reg {k : Nat} (hk : k ≠ chA n 0x250) : (codedSlot n m s).reg k = s.reg k := by
  rw [codedSlot, State.reg_setReg_other _ _ _ _ hk, reg_of_regs boundary_regs]

theorem codedSlot_clk : (codedSlot n m s).clk = s.clk := by
  rw [codedSlot, State.setReg_clk]
  rfl

variable (hw : swf resetWord s.regs = true) (hwc : swf (fun _ => ({} : ChanAux)) s.chn = true)
include hw hwc

include hm in
/-- A settled boundary fills the slot. -/
theorem boundResult_settled (hs : s.nSettle n ≤ min 5 ((s.ch n).conv.outs + 1)) :
    KeepsSlot n (filledSlot n ((codedSlot n m s).convert n (s.valueOf n m.full (boundCode n m s))) (codedSlot n m s)) (boundResult n m s) := by
  have hout : isOut ((filledSlot n ((codedSlot n m s).convert n (s.valueOf n m.full (boundCode n m s))) (codedSlot n m s)).mode n) = false := by
    rw [mode_of_reg ((filledSlot_reg (by unfold chA; omega) (by unfold chA; omega) (by unfold aStat chA; omega)).trans
      ((valuedSlot_reg (by unfold chA; omega) (by unfold chA; omega)).trans (slotValid_reg (by unfold chA; omega)
        (by unfold aStat chA; omega)))), codedSlot_mode]
    rcases hm with h | h <;> rw [h] <;> rfl
  rw [boundResult, if_pos (by rw [boundary_nSettle, boundary_outs hwc]; exact hs), inputResult_eq]
  exact ((((KeepsSlot.refl (filledSlot_canon (codedSlot_canon hw))).rangeResult _).winResult hout _).xchkResult _).periodEnd

/-- A boundary before the filter has settled ages the slot. -/
theorem boundResult_settling (hs : min 5 ((s.ch n).conv.outs + 1) < s.nSettle n) :
    KeepsSlot n (ageUp n (codedSlot n m s)) (boundResult n m s) := by
  rw [boundResult, if_neg (by rw [boundary_nSettle, boundary_outs hwc]; omega)]
  exact (KeepsSlot.refl (State.swf_setReg _ _ _ (codedSlot_canon hw))).rangeIdle.periodEnd

end

end Sys2Proof.Machine

open Sys2Proof Sys2Proof.Machine

/-- Settles O32: the boundary counts, and where the filter has settled the slot is filled with what its code stands for. -/
theorem conversionResults : Obligations.ConversionResults := by
  refine ⟨fun n s => ⟨fun m hd => becomes_if rfl hd, fun hc hd hcr => becomes_if rfl (by simp [hc, hd, hcr]), missedBoundary⟩,
    fun n m s hi hd hf hm hsp => ?_⟩
  intro lim low y v
  obtain ⟨f, hitem⟩ := item_stays (n / 16) s
  generalize hu : s.item (n / 16) = u at hitem
  have hw : swf resetWord u.regs = true := hitem.canon (Memory.wf_regs hi.1)
  have hwc : swf (fun _ => ({} : ChanAux)) u.chn = true := by rw [hitem.chn]; exact Memory.wf_chn hi.1
  have hch : u.ch n = s.ch n := hitem.ch n
  have hreg (o : Nat) : u.reg (chA n o) = s.reg (chA n o) := hitem.regChA n o
  have hmu : u.mode n = 5 ∨ u.mode n = 6 := by rw [mode_of_reg (hreg 0)]; exact hm
  have hset : u.nSettle n = s.nSettle n := by rw [State.nSettle, State.nSettle, State.fld_of_reg (hreg _)]
  have hy : boundCode n m u = y := by
    rw [boundCode, State.outD, State.fld_of_reg (hreg _), State.fld_of_reg (hreg _), hch]
    rfl
  have hval : u.valueOf n m.full (boundCode n m u) = v := by
    rw [hy, State.valueOf, State.modCode, State.cal, State.modOf, State.fld_of_reg (hreg _), hitem.gr]
    rfl
  have hn : n < 128 := by
    have hc : n < s.member.channels := by
      simp only [State.delivers, State.converts, Bool.and_eq_true, decide_eq_true_eq] at hd
      exact hd.1.1.1.1.1
    exact hc.trans_le (channels_le _)
  have hfu : u.gFenced (n / 16) .mod = false := (hitem.gFenced _ _ (by omega)).trans hf
  have hrun : exec (.conversionResult n m) s = done (boundResult n m u) :=
    (congrArg done (if_pos hd)).trans (congrArg done (convResult_eq hmu hfu hsp hu))
  have hflush : Stays none noReg (boundResult n m u) (boundResult n m u).flush := (Stays.refl ..).flush
  have hspan := convert_span (s := codedSlot n m u) (n := n) (v := v) (codedSlot_mode.symm ▸ hmu)
  rw [codedSlot_mode, mode_of_reg (hreg 0)] at hspan
  refine ⟨_, hrun, ?codeWord, fun hs => ?settled, fun hs => ?settling⟩
  case settled =>
    have hkeep := boundResult_settled (m := m) hmu hw hwc (by rw [hset, hch]; exact hs)
    have hcw := codedSlot_canon (n := n) (m := m) hw
    rw [hval] at hkeep
    have hto (o : Nat) (ho : o ∈ slotOffsets) := (hflush.regChA n o).trans (hkeep.reg o ho)
    refine ⟨?_, ?_, ?_, ?_, ?_⟩
    · rw [hto _ (by decide), filledSlot_value hcw, hspan.1]
      rfl
    · have h4 : chA n 0x254 + 4 = chA n 0x258 := rfl
      rw [State.pair, h4, hto _ (by decide), hto _ (by decide), ← h4, ← State.pair, filledSlot_time hcw, codedSlot_clk, hitem.clk]
    · rw [State.fld_of_reg (hto _ (by decide)), filledSlot_age hcw]
    · rw [hflush.flagStat, hkeep.stat 1 (by decide), (filledSlot_stat hcw).1]
    · rw [hflush.flagStat, hkeep.stat 18 (by decide), (filledSlot_stat hcw).2, hspan.2]
  case settling =>
    have hkeep := boundResult_settling (m := m) hw hwc (by rw [hset, hch]; exact hs)
    have hto (o : Nat) (ho : o ∈ slotOffsets) := (hflush.regChA n o).trans (hkeep.reg o ho)
    have hold {o : Nat} (ho : o ∈ slotOffsets) (h1 : o ≠ 0x84) (h2 : o ≠ 0x250) :
        (boundResult n m u).flush.reg (chA n o) = s.reg (chA n o) := by
      rw [hto o ho, ageUp, State.reg_setFld_other _ _ _ _ _ _ (by unfold chA; omega), codedSlot_reg (by unfold chA; omega), hreg]
    have hage : (codedSlot n m u).fld (chA n 0x84) 0 16 = s.fld (chA n 0x84) 0 16 :=
      State.fld_of_reg ((codedSlot_reg (by unfold chA; omega)).trans (hreg _)) ..
    refine ⟨hold (by decide) (by decide) (by decide), ?_, ?_, ?_⟩
    · have h4 : chA n 0x254 + 4 = chA n 0x258 := rfl
      rw [State.pair, h4, hold (by decide) (by decide) (by decide), hold (by decide) (by decide) (by decide)]
      rfl
    · rw [State.fld_of_reg (hto _ (by decide)), ageUp, State.fld_setFld_same _ _ _ _ _ (codedSlot_canon hw) (by decide), hage]
      exact Nat.mod_eq_of_lt (by omega)
    · have hstat : (ageUp n (codedSlot n m u)).reg (aStat n) = s.reg (aStat n) := by
        rw [ageUp, State.reg_setFld_other _ _ _ _ _ _ (by unfold aStat chA; omega), codedSlot_reg (by unfold aStat chA; omega), aStat, hreg]
      rw [hflush.flagStat, hkeep.stat 1 (by decide), State.flag_of_reg hstat]
  case codeWord =>
    by_cases hs : s.nSettle n ≤ min 5 ((s.ch n).conv.outs + 1)
    · have hkeep := boundResult_settled (m := m) hmu hw hwc (by rw [hset, hch]; exact hs)
      rw [hflush.regChA, hkeep.reg _ (by decide), filledSlot_code, codedSlot_code hw, hy]
    · have hkeep := boundResult_settling (m := m) hw hwc (by rw [hset, hch]; omega)
      rw [hflush.regChA, hkeep.reg _ (by decide), ageUp, State.reg_setFld_other _ _ _ _ _ _ (by unfold chA; omega), codedSlot_code hw, hy]
end

section
/-!
PROOFS. The supply and the bring-up of a group (R15, R17, R150 to R154, R58, R59).
-/
namespace Sys2Proof.Machine

/-- A group whose field supply has failed drives nothing. -/
theorem supplyLost_drive {g n : Nat} {s : State} (hwf : Memory.wf s = true) (hn : n / 16 = g) : (supplyLost g s).drive n = (4, 0) := by
  have hmoves : Moves (fun _ => True) (fun _ => True) (s.setGr g { s.gr g with vf := false, acts := true }) (supplyLost g s) :=
    moves_gates (fun t => t.setGr g { t.gr g with vf := false, acts := true }) (grpChans g) s (fun _ _ _ _ => trivial) fun _ _ => trivial
  have hgr : (supplyLost g s).gr g = { s.gr g with vf := false, acts := true } := by
    rw [State.gr, hmoves.grp, ← State.gr, State.gr_setGr_same _ _ _ (Memory.wf_grp hwf)]
  have hsel : (supplyLost g s).selects n = (4, 0) := by
    unfold State.selects
    dsimp only
    rw [if_pos (by rw [hn, hgr]; simp)]
  unfold State.drive
  dsimp only
  rw [hsel, if_neg (by simp)]

/-- A hold that has run its time: the output drives OFF, and the end is reported. -/
theorem expireHold_ends {n : Nat} {s : State} (hw : swf resetWord s.regs = true) (hn : n < 128) :
    (expireHold n s).chst n = 2 ∧ { cls := .safeHoldexp, obj := .ch n } ∈ (expireHold n s).evNew := by
  have hgates := moves_gates (K := gateReg n) (C := (· ∈ [n])) (fun t => t.setFld (aChst n) 0 2 2) [n] s
    (fun m hm k hk => List.mem_singleton.1 hm ▸ hk) fun _ => id
  refine ⟨?_, List.mem_append_right _ (List.mem_singleton.2 rfl)⟩
  have hreg : (expireHold n s).reg (aChst n) = (s.setFld (aChst n) 0 2 2).reg (aChst n) := by
    rw [expireHold, chEvent, State.reg_emit, hgates.reg _ (not_gateReg_aChst hn hn)]
  rw [State.chst, State.fld_of_reg hreg]
  exact State.fld_setFld_same _ _ _ _ _ hw (by decide)

/-- The link of a group is up, its trainings counted, and it is reported. -/
def linkTrained (g : Nat) (s : State) : State :=
  ((s.setFlag (aGstat g) 1 true).setFld (aGstat g) 8 8 (min 0xFF (s.fld (aGstat g) 8 8 + 1))).emit .linkUp (.grp g) []

theorem linkTrained_event (g : Nat) (s : State) : { cls := .linkUp, obj := .grp g } ∈ (linkTrained g s).evNew := by
  rw [linkTrained]
  exact List.mem_append_right _ (List.mem_singleton.2 rfl)

theorem trainOk_eq (g : Nat) (s : State) : trainOk g s = (clearCause (aSafeGrp g) 6 (.grp g) (linkTrained g s)).setGr g
    { (clearCause (aSafeGrp g) 6 (.grp g) (linkTrained g s)).gr g with lost := false, bringing := true, unanswered := 0 } := rfl

section
variable {g : Nat} {s : State} (hw : swf resetWord s.regs = true) (hwg : swf (fun _ => ({} : GrpAux)) s.grp = true) (hg : g < 8)
include hw hwg hg

/-- A group whose link is trained: counted, reported, and to be brought up. -/
theorem trainOk_trains : (trainOk g s).fld (aGstat g) 8 8 = min 0xFF (s.fld (aGstat g) 8 8 + 1) ∧
    ((trainOk g s).gr g).bringing = true ∧ ((trainOk g s).gr g).lost = false ∧ { cls := .linkUp, obj := .grp g } ∈ (trainOk g s).evNew := by
  have h1 : swf resetWord (s.setFlag (aGstat g) 1 true).regs = true := State.swf_setReg _ _ _ hw
  have hclear : Moves (· = aSafeGrp g) (fun _ => False) (linkTrained g s) (clearCause (aSafeGrp g) 6 (.grp g) (linkTrained g s)) :=
    moves_clearCause _ _ _ _ rfl
  have hgrp : swf (fun _ => ({} : GrpAux)) (clearCause (aSafeGrp g) 6 (.grp g) (linkTrained g s)).grp = true := by
    rw [hclear.grp, linkTrained, State.emit_grp, State.setFld_grp, State.setFlag_grp]
    exact hwg
  have hgr := State.gr_setGr_same _ g { (clearCause (aSafeGrp g) 6 (.grp g) (linkTrained g s)).gr g with
    lost := false, bringing := true, unanswered := 0 } hgrp
  rw [trainOk_eq]
  refine ⟨?_, by rw [hgr], by rw [hgr], by rw [State.setGr_evNew]; exact hclear.event (linkTrained_event ..)⟩
  have hreg : ∀ (u : State) (a : GrpAux), (u.setGr g a).reg (aGstat g) = u.reg (aGstat g) := fun u a => State.reg_setGr u g a _
  rw [State.fld_of_reg (hreg _ _), hclear.fld (by unfold aGstat aSafeGrp grA; omega), linkTrained, State.fld_of_reg (State.reg_emit ..),
    State.fld_setFld_same _ _ _ _ _ h1 (by decide)]
  exact Nat.mod_eq_of_lt (by omega)

omit hw hwg hg in
theorem gFenced_flag (k : GUn) : s.gFenced g k = s.flag (0x40 + 4 * g) k.bit := rfl

omit hw hwg hg in
theorem gFenced_setGr (h : Nat) (a : GrpAux) (k : GUn) : (s.setGr h a).gFenced g k = s.gFenced g k := by
  rw [gFenced_flag, gFenced_flag, State.flag_of_reg (State.reg_setGr ..)]

omit hwg hg in
theorem fenceUnit_grp {k : GUn} (hg : g < s.member.groups) (hf : s.gFenced g k = false) :
    (fenceUnit true (.grp g k) s).gFenced g k = true :=
  (gFenced_flag (g := g) (s := fenceUnit true (.grp g k) s) k).trans (fenceUnit_fences (u := .grp g k) hw rfl (decide_eq_true hg) hf).1

omit hwg hg in
/-- The third training that fails within 10 s fences the link. -/
theorem attempt_fences (hr : s.retraining g = true)
    (hl : 2 ≤ ((s.gr g).fails.filter fun x => decide (s.clk.raw < x + 4000000000)).length) :
    (attempt g .failed s).gFenced g .link = true := by
  simp only [State.retraining, Bool.and_eq_true, decide_eq_true_eq, Bool.not_eq_true'] at hr
  obtain ⟨⟨⟨⟨⟨hg, -⟩, -⟩, hf⟩, -⟩, -⟩ := hr
  unfold attempt
  dsimp only
  rw [if_pos (by simp only [List.length_cons]; omega)]
  refine fenceUnit_grp ?_ ?_ ?_
  · rw [State.setGr_regs, State.setGr_regs]
    exact hw
  · rw [State.setGr_member, State.setGr_member]
    exact hg
  · exact (gFenced_setGr ..).trans ((gFenced_setGr ..).trans hf)

end

end Sys2Proof.Machine

open Sys2Proof Sys2Proof.Machine

/-- Settles O17: each event is met where the group stands as it must, and its supply, its training and its holds end as stated. -/
theorem groupSupply : Obligations.GroupSupply := by
  refine ⟨fun g s hg => ⟨fun hl => ?fail, fun hl hv => ?gone, fun hwf n hn => supplyLost_drive hwf hn, fun kept hu hd hc hf => ?back,
    fun kept ho hv => ?supply, fun r hd hc hb => ?bring, fun hr => ⟨becomes_if rfl hr, fun r => becomes_if rfl hr⟩⟩,
    fun g s hwf hg hr => ?train, fun n s hn => ⟨fun ha hh => ?expire, fun ha hh => ?latch, fun hwf => ?ends⟩⟩
  case fail =>
    refine becomes_done (s := s) ((congrArg done (if_pos (by simpa using hg))).trans ?_)
    rw [if_pos hl]
  case gone =>
    refine becomes_done (s := s) ((congrArg done (if_pos (by simpa using hg))).trans ?_)
    rw [if_neg (by simp [hl]), if_pos hv]
  case back => exact becomes_if rfl (by simp [hg, hu, hd, hc, hf])
  case supply =>
    refine becomes_done (s := s) ((congrArg done (if_neg ?_)).trans ?_)
    · rcases ho with h | h | h | h <;> simp [h]
    · rw [if_pos (by simp [hg, hv])]
  case bring => exact becomes_if rfl (by simp [hg, hb, hd, hc])
  case train =>
    obtain ⟨h1, h2, h3, h4⟩ := trainOk_trains (Memory.wf_regs hwf) (Memory.wf_grp hwf) hg
    exact ⟨h1, h2, h3, h4, attempt_fences (Memory.wf_regs hwf) hr⟩
  case expire =>
    refine becomes_done (s := s) ((congrArg done (if_pos hn)).trans ?_)
    rw [if_neg (by simp [ha]), if_pos hh]
  case latch =>
    refine becomes_done (s := s) ((congrArg done (if_pos hn)).trans ?_)
    rw [if_pos ha, if_pos (Option.isSome_iff_ne_none.2 hh)]
  case ends => exact expireHold_ends (Memory.wf_regs hwf) (hn.trans_le (channels_le _))
end

section
/-!
PROOFS. Joining and keeping a Ringlet (R351 to R364, R390).
-/
namespace Sys2Proof.Machine

/-! ### What the events of a controller come to, past their conditions -/

/-- The time of a header that matched (R351). -/
def hunted (c : Nat) (t : State) : State := t.setRg c { t.rg c with huntAt := some t.clk.raw }

/-- A header that matches at the hunting port, past the counts of its frame (R351). -/
def huntNext (c : Nat) (f : Frame) (s t : State) : State :=
  if !hchkOk f then t
  else if s.ringSt c = 1 ∧ t.role c = 1 then tkConflict c (hunted c t)
  else if !frameOk f then hunted c t
  else if s.ringSt c = 2 then (hunted c t).setRg c { (hunted c t).rg c with cands := ((hunted c t).rg c).cands + 1 }
  else (ringTo c 2 (hunted c t)).setRg c { (hunted c t).rg c with fromSt := s.ringSt c, cands := 1 }

theorem role_hunted (c : Nat) (t : State) : (hunted c t).role c = t.role c := by
  rw [State.role, State.role, hunted, State.fld_of_reg (State.reg_setRg ..)]

/-- A candidate past its check, confirmed or not (R352). -/
def confirmNext (c : Nat) (r : Confirm) (t : State) : State :=
  if !(r.ok && decide (r.frame.slot = 0) && t.frameValid c r.frame) then
    if (t.rg c).cands ≤ 1 then ringTo c (t.rg c).fromSt (t.setRg c { t.rg c with cands := (t.rg c).cands - 1 })
    else t.setRg c { t.rg c with cands := (t.rg c).cands - 1 }
  else match (t.rg c).wake with
    | some (no, m, e) =>
      if r.frame.cells.getD 4 0 = no then takeRound c r.frame (enterJoin c (wakeOk c m e r.delta t))
      else wakeMissed c (t.eExp c m + r.delta) t
    | none => takeRound c r.frame (enterJoin c t)

/-- No position is free (R359). -/
def noPos (c : Nat) (t : State) : State := (joinFlag c 2 true t).emit .nopos (.unit (ringUn c)) []

/-- A probe that met another node at its position goes on to the next free one, or starts again (R359). -/
def probeNext (c : Nat) (t : State) : Option Nat → State
  | some p => t.setRg c { t.rg c with probe := p }
  | none => (noPos c t).setRg c { (noPos c t).rg c with probe := ((noPos c t).followers c).headD 1 }

section
variable {c : Nat} {s : State}

theorem exec_huntCandidate (f : Frame) (h : (s.portRuns c f.port && decide (f.port = s.inPort c) && (decide (s.ringSt c = 1) ||
    decide (s.ringSt c = 2) || decide (s.ringSt c = 7)) && s.engineFree c && !(decide (s.ringSt c = 2) && decide (4 ≤ (s.rg c).cands))) = true) :
    exec (.huntCandidate ⟨c, f⟩) s = done (huntNext c f s (checkFrame c f s)) := by
  have he : exec (.huntCandidate ⟨c, f⟩) s = execHuntCandidate ⟨c, f⟩ s := rfl
  rw [he, execHuntCandidate]
  dsimp only
  rw [if_pos h]
  generalize checkFrame c f s = t
  rw [← hunted, role_hunted, huntNext]

theorem exec_candidateConfirm (r : Confirm) (h : (s.portRuns c r.frame.port && decide (s.ringSt c = 2)) = true) :
    exec (.candidateConfirm c r) s = done (confirmNext c r (checkFrame c r.frame s)) := by
  have he : exec (.candidateConfirm c r) s = execCandidateConfirm c r s := rfl
  rw [he, execCandidateConfirm]
  dsimp only
  rw [if_pos h]
  generalize checkFrame c r.frame s = t
  rfl

theorem exec_joinProbe (busy : List Nat) {o : Option Nat} {t : State} (h : (s.ringRuns c && decide (s.ringSt c = 3) && !(s.rg c).fixed &&
    s.byHop c && !s.flag (rgA c 0x2C) 0) = true) (ht : ringSend c (s.probeFrame c (s.rg c).probe) s = t)
    (ho : (t.followers c).find? (fun p => decide ((s.rg c).probe < p) && !busy.contains p) = o) :
    exec (.joinProbe c true busy) s = done (probeNext c t o) := by
  have he : exec (.joinProbe c true busy) s = execJoinProbe c true busy s := rfl
  rw [he, execJoinProbe, if_pos h]
  dsimp only
  rw [ht, if_neg (by decide), ho]
  cases o <;> rfl

theorem portUp_flag (p i : Nat) (b : Bool) : (s.setFlag (rpA c p 0) 0 b).flag (rgA c 0x44) i = s.flag (rgA c 0x44) i :=
  State.flag_of_reg (State.reg_setFlag_other _ _ _ _ _ (by unfold rpA rgA; omega)) i

theorem portUp_ringSt (p : Nat) (b : Bool) : (s.setFlag (rpA c p 0) 0 b).ringSt c = s.ringSt c := by
  rw [State.ringSt, State.ringSt, State.fld_of_reg (State.reg_setFlag_other _ _ _ _ _ (by unfold rpA rgA; omega))]

end

end Sys2Proof.Machine

open Sys2Proof Sys2Proof.Machine

/-- Settles O44: each event is met in the states of the controller that Table 13.2 gives it, and moves it on as stated. -/
theorem ringJoin : Obligations.RingJoin := by
  intro c s hr
  refine ⟨fun f hp hin hst => ⟨fun he => ?busy, fun he hc => ?hunt⟩, fun hst r hp => ?confirm, fun busy hst hf hh hs => ?probe, fun hst => ?dup,
    fun hst hro => ⟨fun hw => ?listen, fun no m e hw => ?wake⟩, fun hst hm rank => ⟨fun hro => ⟨?foreign, ?backup⟩, fun hro => ⟨fun b hb => ?yield,
      fun hk => ?conflict, fun hk => ?equal⟩⟩, fun hro hk hpos hst => ?takeover, fun port hp h0 h6 hf => ?wrap,
    fun port hp => ⟨fun hf => ?up, fun hf hst => ?rejoin, fun hu hf => ?unwrap⟩⟩
  case busy => exact becomes_else rfl (by simp [he])
  case hunt =>
    have h3 : (decide (s.ringSt c = 1) || decide (s.ringSt c = 2) || decide (s.ringSt c = 7)) = true := by simpa [or_assoc] using hst
    have h4 : (!(decide (s.ringSt c = 2) && decide (4 ≤ (s.rg c).cands))) = true := by simpa using Decidable.not_or_of_imp hc
    intro t u
    have hrun : exec (.huntCandidate ⟨c, f⟩) s = done (huntNext c f s t) :=
      exec_huntCandidate f (by simp only [hp, decide_eq_true hin, h3, he, h4, Bool.and_self])
    have hu : u = hunted c t := rfl
    rw [hu]
    clear_value t
    refine ⟨fun hk => ?_, fun hk => ⟨fun h1 hro => ?_, fun hn => ⟨fun hf => ?_, fun hf h2 => ?_, fun hf h2 => ?_⟩⟩⟩
    · exact becomes_done (hrun.trans (congrArg done (if_pos (by simp [hk]))))
    · exact becomes_done (hrun.trans (congrArg done ((if_neg (by simp [hk])).trans (if_pos ⟨h1, hro⟩))))
    · exact becomes_done (hrun.trans (congrArg done ((if_neg (by simp [hk])).trans ((if_neg hn).trans (if_pos (by simp [hf]))))))
    · exact becomes_done (hrun.trans (congrArg done ((if_neg (by simp [hk])).trans ((if_neg hn).trans
        ((if_neg (by simp [hf])).trans (if_pos h2))))))
    · exact becomes_done (hrun.trans (congrArg done ((if_neg (by simp [hk])).trans ((if_neg hn).trans
        ((if_neg (by simp [hf])).trans (if_neg h2))))))
  case confirm =>
    intro t
    have hrun : exec (.candidateConfirm c r) s = done (confirmNext c r t) := exec_candidateConfirm r (by simp [hp, hst])
    clear_value t
    refine ⟨fun hok hslot hv => ?good, fun hbad => ?bad⟩
    case good =>
      have hg : ¬ (!(r.ok && decide (r.frame.slot = 0) && t.frameValid c r.frame)) = true := by simp [hok, hslot, hv]
      unfold confirmNext at hrun
      rw [if_neg hg] at hrun
      refine ⟨fun hw => ?_, fun no m e hw => ⟨fun hno => ?_, fun hno => ?_⟩⟩
      · rw [hw] at hrun
        exact becomes_done hrun
      · rw [hw] at hrun
        exact becomes_done (hrun.trans (congrArg done (if_pos hno)))
      · rw [hw] at hrun
        exact becomes_done (hrun.trans (congrArg done (if_neg hno)))
    case bad =>
      have hb : (!(r.ok && decide (r.frame.slot = 0) && t.frameValid c r.frame)) = true := by rcases hbad with h | h | h <;> simp [h]
      unfold confirmNext at hrun
      rw [if_pos hb] at hrun
      exact ⟨fun h1 => becomes_done (hrun.trans (congrArg done (if_neg (by omega)))), fun h1 => becomes_done (hrun.trans (congrArg done (if_pos h1)))⟩
  case probe =>
    have hcond : (s.ringRuns c && decide (s.ringSt c = 3) && !(s.rg c).fixed && s.byHop c && !s.flag (rgA c 0x2C) 0) = true := by
      simp [hr, hst, hf, hh, hs]
    intro x t
    refine ⟨?_, fun p hp => becomes_done (exec_joinProbe busy hcond rfl hp), fun hp => becomes_done (exec_joinProbe busy hcond rfl hp)⟩
    refine becomes_done (s := s) ((congrArg done (if_pos hcond)).trans ?_)
    exact congrArg done (if_pos rfl)
  case dup =>
    intro t
    have hcond : (s.ringRuns c && ((decide (s.ringSt c = 3) && (s.rg c).fixed) || decide (s.ringSt c = 4))) = true := by
      rcases hst with ⟨h3, hf⟩ | h4
      · simp [hr, h3, hf]
      · simp [hr, h4]
    refine ⟨fun ho => ?_, fun h1 h2 => ?_⟩
    · refine becomes_done (s := s) ((congrArg done (if_pos hcond)).trans (congrArg done (if_neg ?_)))
      rcases ho with h | h <;> simp [h]
    · exact becomes_done (s := s) ((congrArg done (if_pos hcond)).trans (congrArg done (if_pos ⟨h1, h2⟩)))
  case listen =>
    refine becomes_done (s := s) ((congrArg done (if_pos (by simp [hr, hst, hro]))).trans ?_)
    dsimp only
    rw [hw]
  case wake =>
    refine becomes_done (s := s) ((congrArg done (if_pos (by simp [hr, hst, hro]))).trans ?_)
    dsimp only
    rw [hw]
  case foreign =>
    refine becomes_done (s := s) ((congrArg done (if_pos (by simp [hr, hst, hm]))).trans ?_)
    exact congrArg done ((if_pos hro).trans (if_neg (by decide)))
  case backup =>
    refine becomes_done (s := s) ((congrArg done (if_pos (by simp [hr, hst, hm]))).trans ?_)
    exact congrArg done ((if_pos hro).trans (if_pos rfl))
  case yield =>
    refine becomes_done (s := s) ((congrArg done (if_pos (by simp [hr, hst, hm]))).trans ?_)
    exact congrArg done ((if_neg hro).trans (if_pos (by rcases hb with h | h <;> simp [h])))
  case conflict =>
    refine becomes_done (s := s) ((congrArg done (if_pos (by simp [hr, hst, hm]))).trans ?_)
    exact congrArg done ((if_neg hro).trans ((if_neg (by simp; omega)).trans (if_pos hk)))
  case equal =>
    refine becomes_done (s := s) ((congrArg done (if_pos (by simp [hr, hst, hm]))).trans ?_)
    exact congrArg done ((if_neg hro).trans ((if_neg (by simp; omega)).trans (if_neg (by omega))))
  case takeover =>
    refine becomes_if rfl ?_
    rcases hst with h7 | ⟨h1, hb⟩
    · simp [hr, hro, hk, hpos, h7]
    · simp [hr, hro, hk, hpos, h1, hb]
  case wrap => exact becomes_if rfl (by simp [hr, hp, h0, h6, hf])
  case up =>
    refine becomes_done (s := s) ((congrArg done (if_pos hp)).trans ?_)
    exact congrArg done (if_neg (by simp [portUp_flag, hf]))
  case rejoin =>
    refine becomes_done (s := s) ((congrArg done (if_pos hp)).trans ?_)
    exact congrArg done (if_pos (by simp [portUp_flag, portUp_ringSt, hf, hst]))
  case unwrap => exact becomes_if rfl (by simp [hp, hu, hf])
end

section
/-!
PROOFS. The rounds of a Ringlet (R318, R319, R324, R328 to R350): a frame read off its line, and what the events come to.
-/
namespace Sys2Proof.Machine

/-! ### A frame on its line -/

/-- A line read from the last 16 bits of its preamble on: the descrambler then holds what the scrambler held. -/
theorem descramble_line (h l : List Bool) (hh : h.length = 58) (hl : 16 ≤ l.length) :
    descramble ((((h.reverse ++ scramble h l).drop 16).take 58).reverse) (((h.reverse ++ scramble h l).drop 16).drop 58) = l.drop 16 := by
  have hscr : (scramble h l).take 16 = scramble h (l.take 16) := by
    clear hh hl
    generalize 16 = k
    induction k generalizing h l with
    | zero => rfl
    | succ k ih =>
      cases l with
      | nil => rfl
      | cons d l => simp only [scramble, List.take_succ_cons, ih]
  have hdrop : ((h.reverse ++ scramble h l).drop 16).drop 58 = (scramble h l).drop 16 := by
    rw [List.drop_drop, List.drop_append, List.length_reverse, hh, List.drop_of_length_le (by simp [hh]), List.nil_append]
  have htake : (((h.reverse ++ scramble h l).drop 16).take 58).reverse = ((scramble h (l.take 16)).reverse ++ h).take 58 := by
    have hlen : (scramble h (l.take 16)).length = 16 := by rw [scramble_length, List.length_take, Nat.min_eq_left hl]
    have hr : h.reverse.drop 16 = (h.take 42).reverse := by rw [List.drop_reverse, hh]
    have hr' : (h.take 42).length = 42 := by rw [List.length_take, hh]; rfl
    rw [List.drop_append_of_le_length (by simp [hh]), hr, List.take_append, List.take_append, List.length_reverse, List.length_reverse, hr',
      hlen, List.take_of_length_le (by simp [hr']), List.take_of_length_le (l := (scramble h (l.take 16)).reverse) (by simp [hlen]), hscr,
      List.reverse_append, List.reverse_reverse]
  rw [hdrop, htake, scramble_drop 16 h l hh, descramble_scramble]

/-- The bytes of a frame after its delimiter, with the idle bits that follow it. -/
def frameBytes (f : Frame) : List Byte := f.header ++ [f.hchk] ++ msbBytes f.cells ++ wordBytes f.crc

theorem frameBits_eq (f : Frame) : frameBits f =
    bitsOfBytes [0x55, 0x55] ++ (bitsOfBytes (delimiter f.slot) ++ (bitsOfBytes (frameBytes f) ++ List.replicate 32 false)) := by
  have hr : [0x55, 0x55] ++ delimiter f.slot ++ f.header ++ [f.hchk] ++ msbBytes f.cells ++ wordBytes f.crc =
      [0x55, 0x55] ++ (delimiter f.slot ++ frameBytes f) := by simp only [frameBytes, List.append_assoc]
  rw [frameBits, hr, bitsOfBytes_append, bitsOfBytes_append]
  simp only [List.append_assoc]

/-- The bytes read after the delimiter, field by field. -/
theorem frameBytes_eq (f : Frame) (r : List Byte) : frameBytes f ++ r =
    (f.kind ++ f.fslot.extractLsb' 8 4) :: f.fslot.extractLsb' 0 8 :: f.source.seg :: f.source.pos :: f.len :: f.age :: f.seq :: f.hchk ::
      (msbBytes f.cells ++ (f.crc.extractLsb' 0 8 :: f.crc.extractLsb' 8 8 :: f.crc.extractLsb' 16 8 :: f.crc.extractLsb' 24 8 :: r)) := by
  simp [frameBytes, Frame.header, wordBytes]

theorem leWord_bytes (x : Word) : leWord (x.extractLsb' 0 8) (x.extractLsb' 8 8) (x.extractLsb' 16 8) (x.extractLsb' 24 8) = x := by
  have h := msbWords_msbBytes [x]
  simp only [msbBytes, wordBytes, List.flatMap_cons, List.flatMap_nil, List.append_nil, List.reverse_cons, List.reverse_nil, List.nil_append,
    List.cons_append, msbWords, List.cons.injEq, and_true] at h
  exact h

theorem kind_first (k x : BitVec 4) : (k ++ x : BitVec 8).extractLsb' 4 4 = k := by
  revert k x
  decide

theorem slot_first (k x : BitVec 4) : (k ++ x : BitVec 8).extractLsb' 0 4 = x := by
  revert k x
  decide

theorem slot_bytes (x : BitVec 12) : (x.extractLsb' 8 4 ++ x.extractLsb' 0 8 : BitVec 12) = x := by
  apply BitVec.eq_of_getLsbD_eq
  intro i hi
  simp only [BitVec.getLsbD_append, BitVec.getLsbD_extractLsb']
  interval_cases i <;> simp

section
variable {f : Frame} {r : List Byte}

/-- The bytes of the frame's head. -/
theorem frameBytes_head {i : Nat} (hi : i < 8) : (frameBytes f ++ r).getD i 0 =
    [f.kind ++ f.fslot.extractLsb' 8 4, f.fslot.extractLsb' 0 8, f.source.seg, f.source.pos, f.len, f.age, f.seq, f.hchk].getD i 0 := by
  rw [frameBytes_eq]
  interval_cases i <;> rfl

/-- The bytes of its check value, after the cells. -/
theorem frameBytes_crc (hc : f.cells.length = f.len.toNat) (j : Nat) :
    (frameBytes f ++ r).getD (8 + 4 * f.len.toNat + j) 0 = (wordBytes f.crc ++ r).getD j 0 := by
  have hlen : (f.header ++ [f.hchk] ++ msbBytes f.cells).length = 8 + 4 * f.len.toNat := by
    simp only [List.length_append, msbBytes_length, hc]
    rfl
  rw [frameBytes, List.append_assoc, List.getD_eq_getElem?_getD, List.getElem?_append_right (by omega), hlen, Nat.add_sub_cancel_left,
    List.getD_eq_getElem?_getD]

theorem frameBytes_cells (hc : f.cells.length = f.len.toNat) : ((frameBytes f ++ r).drop 8).take (4 * f.len.toNat) = msbBytes f.cells := by
  have hlen : (msbBytes f.cells).length = 4 * f.len.toNat := by rw [msbBytes_length, hc]
  rw [frameBytes_eq]
  exact List.take_left' hlen

end

/-- A frame on the line is read as it was sent (R318, R319). -/
theorem rxFrame_frameBits (h : List Bool) (f : Frame) (hh : h.length = 58) (hc : f.cells.length = f.len.toNat) :
    rxFrame f.port f.slot ((h.reverse ++ scramble h (frameBits f)).drop 16) = some f := by
  have hdrop : (frameBits f).drop 16 = bitsOfBytes (delimiter f.slot) ++ (bitsOfBytes (frameBytes f) ++ List.replicate 32 false) := by
    rw [frameBits_eq, List.drop_left' (by simp)]
  have hline := descramble_line h (frameBits f) hh (by rw [frameBits_eq]; simp)
  have hbytes : bytesOfBits (bitsOfBytes (frameBytes f) ++ List.replicate 32 false) = frameBytes f ++ [0, 0, 0, 0] := by
    rw [bytesOfBits_append]
    rfl
  unfold rxFrame
  dsimp only
  rw [hline, hdrop, List.take_left, if_neg (by simp), List.drop_left, hbytes]
  have hlen : (frameBytes f ++ [0, 0, 0, 0]).getD 4 0 = f.len := frameBytes_head (by decide)
  have hcrc (j : Nat) := frameBytes_crc (r := [0, 0, 0, 0]) hc j
  rw [hlen, frameBytes_cells hc, msbWords_msbBytes, hcrc 1, hcrc 2, hcrc 3, ← Nat.add_zero (8 + 4 * f.len.toNat), hcrc 0,
    frameBytes_head (by decide), frameBytes_head (by decide), frameBytes_head (by decide), frameBytes_head (by decide),
    frameBytes_head (by decide), frameBytes_head (by decide), frameBytes_head (by decide)]
  simp only [List.getD_cons_zero, List.getD_cons_succ, wordBytes, List.cons_append, leWord_bytes, kind_first, slot_first, slot_bytes]

/-! ### What the rounds leave -/

/-- A cell that holds more than what an unlisted key reads is read back from any store. -/
theorem State.rg_setRg_ne {s : State} {c : Nat} {a : RingAux} (h : a ≠ {}) : (s.setRg c a).rg c = a := by
  rw [State.setRg, State.rg, sset, if_neg h, sget_sput_same]

section
variable {c : Nat} {s : State}

/-- What the controller remembers of the mark that it takes as its anchor (R328). -/
def anchored (c : Nat) (s : State) : RingAux :=
  let a := s.rg c
  let n := match a.markAt with
    | some x => (s.clk.raw - x) / (if s.long c then 16 else 4)
    | none => a.meas
  { a with meas := n, markAt := some s.clk.raw, markTs := s.clk.ts, mute := false, round := a.round + 1 }

theorem anchor_eq : anchor c s = (((s.setRg c (anchored c s)).setReg (rgA c 0x24) (s.clk.ts.extractLsb' 0 32)).setReg (rgA c 0x28)
    (s.clk.ts.extractLsb' 32 32)).setFld (rgA c 0x44) 8 2 0 := rfl

theorem State.rg_setReg (k : Nat) (v : Word) : (s.setReg k v).rg c = s.rg c := rfl
theorem State.rg_setFld (k lo w v : Nat) : (s.setFld k lo w v).rg c = s.rg c := rfl

theorem anchor_rg : (anchor c s).rg c = anchored c s := by
  have h : anchored c s ≠ {} := fun h => by cases congrArg RingAux.markAt h
  rw [anchor_eq, State.rg_setFld, State.rg_setReg, State.rg_setReg, State.rg_setRg_ne h]

theorem anchor_flag (i : Nat) : (anchor c s).flag (rgA c 0x2C) i = s.flag (rgA c 0x2C) i := by
  refine State.flag_of_reg ?_ i
  rw [anchor_eq, State.reg_setFld_other _ _ _ _ _ _ (by unfold rgA; omega), State.reg_setReg_other _ _ _ _ (by unfold rgA; omega),
    State.reg_setReg_other _ _ _ _ (by unfold rgA; omega), State.reg_setRg]

/-- A frame passed on changes no register. -/
theorem passOn_regs (f : Frame) : (passOn c f s).regs = s.regs := by
  unfold passOn ringPut
  split
  · split
    · rfl
    · split <;> rfl
  · rfl

theorem passOn_ringSt (f : Frame) : (passOn c f s).ringSt c = s.ringSt c := State.fld_of_reg (reg_of_regs (passOn_regs f) _) ..

/-- A mark that a joining or running controller accepts, past its anchor. -/
theorem exec_roundMarkAccept (e : RoundEnd) (hf : s.follows c = true) (h3 : s.ringSt c ≠ 4) {t : State} (ht : anchor c s = t) :
    exec (.roundMarkAccept c e) s = done (if (t.rg c).fixed && !t.flag (rgA c 0x2C) 0 then
      if (t.rg c).begun then joinRun c t else t.setRg c { t.rg c with begun := true } else t) := by
  have he : exec (.roundMarkAccept c e) s = execRoundMarkAccept c e s := rfl
  rw [he, execRoundMarkAccept, if_pos hf, if_neg h3]
  dsimp only
  rw [ht]

/-- A missed mark, past the end of its round. -/
def missedNext (c : Nat) (t : State) : State :=
  let t := t.setRg c { t.rg c with mute := true, round := (t.rg c).round + 1 }
  let t := ageBad c 1 (forAll (t.rxData c) (ageSlot c 1) t)
  if t.fld (rgA c 0x44) 8 2 < 3 then t.setFld (rgA c 0x44) 8 2 (t.fld (rgA c 0x44) 8 2 + 1)
  else ((ringTo c 7 t).setRg c { (ringTo c 7 t).rg c with cands := 0, bkWait := false }).emit .markLoss (.unit (ringUn c)) []

theorem exec_markMissed (port : Nat) (e : RoundEnd) (h : (s.follows c && decide (s.ringSt c = 4)) = true) :
    exec (.markMissed c port false e) s = done (missedNext c (roundEnd c e s)) := by
  have he : exec (.markMissed c port false e) s = execMarkMissed c port false e s := rfl
  rw [he, execMarkMissed, if_pos h]
  generalize roundEnd c e s = t
  rfl

/-- A line that a port receives: no frame, or one that is passed on and taken. -/
def lineNext (c : Nat) (s : State) : Option Frame → State
  | none => s
  | some f => if s.replaying then passOn c f s else takeFrame c f (passOn c f s)

theorem exec_frameReceive {port slot : Nat} {line : List Bool} (hp : s.portRuns c port = true) {o : Option Frame}
    (ho : rxFrame port slot line = o) : exec (.frameReceive c ⟨port, slot, line⟩) s = done (lineNext c s o) := by
  have he : exec (.frameReceive c ⟨port, slot, line⟩) s = execFrameReceive c ⟨port, slot, line⟩ s := rfl
  rw [he, execFrameReceive, if_pos hp]
  dsimp only
  rw [ho]
  cases o <;> rfl

/-- A frame taken, past the counts of its check. -/
def takenFrame (c : Nat) (f : Frame) (u : State) : State :=
  if !u.frameValid c f || (u.rg c).mute then u
  else if f.slot = 0 then (if u.follows c then takeRound c f u else u)
  else if u.ringSt c = 4 then
    if u.ringDelivers c then deliver c f.slot f u
    else if (u.rxData c).contains f.slot then ageSlot c 1 f.slot u
    else u
  else u

theorem takeFrame_eq (f : Frame) (t : State) : takeFrame c f t =
    if !(decide (t.ringSt c = 3) || decide (t.ringSt c = 4)) then t else takenFrame c f (checkFrame c f t) := rfl

/-- The slot of a frame that leaves, with its sequence number. -/
def launched (c slot : Nat) (f : TxFrame) (s : State) : State :=
  let x := sget {} (s.rg c).slots slot
  ringSend c { f with seq := (x.seq + 1) % 256 } (s.setRg c { s.rg c with
    slots := sset {} (s.rg c).slots slot { x with seq := (x.seq + 1) % 256, ready := none, owed := false }
    queue := if f.kind = 4 then (s.rg c).queue.tail else (s.rg c).queue })

/-- A launch of an own slot: nothing, the frame dropped, or the frame sent. -/
def launchNext (c slot : Nat) (s : State) : Option TxFrame → State
  | none => s
  | some f =>
    if (s.rg c).mute || s.flag (rgA c 0x2C) 0 then setReady c slot { sget {} (s.rg c).slots slot with ready := none } s
    else if f.kind = 4 && ((s.rg c).queue.head?.map (·.reset)).getD false then takeReset 4 (launched c slot f s) else launched c slot f s

theorem exec_slotLaunch {slot : Nat} (h : (s.ringRuns c && decide (s.ringSt c = 4) && s.isOwn c slot) = true) {o : Option TxFrame}
    (ho : (sget {} (s.rg c).slots slot).ready = o) : exec (.slotLaunch c slot) s = done (launchNext c slot s o) := by
  have he : exec (.slotLaunch c slot) s = execSlotLaunch c slot s := rfl
  rw [he, execSlotLaunch, if_pos h]
  dsimp only
  rw [ho]
  cases o <;> rfl

/-- A MAIL frame taken, by its destination. -/
def mailNext (c : Nat) (m : MailFrag) (s : State) : Option Node → State
  | none => bridgeMail c m (mailFrag c m s)
  | some a => if s.isSelf a then mailFrag c m s else bridgeMail c m s

theorem exec_mailFrameReceive {f : Frame} (h : (s.portRuns c f.port && s.ringDelivers c && !(s.rg c).mute && !s.replaying && s.frameValid c f &&
    decide (f.kind = 4)) = true) {o : Option Node} (ho : (fragOf f.cells).dest = o) :
    exec (.mailFrameReceive c f) s = done (mailNext c (fragOf f.cells) s o) := by
  have he : exec (.mailFrameReceive c f) s = execMailFrameReceive c f s := rfl
  rw [he, execMailFrameReceive, if_pos h]
  dsimp only
  rw [ho]
  cases o <;> rfl

end

end Sys2Proof.Machine

open Sys2Proof Sys2Proof.Machine

/-- Settles O41: the line gives back its frame, and each event of a round is met in its state and comes to what is stated. -/
theorem ringRounds : Obligations.RingRounds := by
  refine ⟨rxFrame_frameBits, fun c s hr => ⟨fun e hst hm => ⟨fun hs => ?send, fun t => ?delay⟩, fun hf => ⟨fun e hst => ?accept,
    fun e hst hx hm => ⟨fun hb => ?join, fun hb => ?begin_⟩, fun e hst hx => ?hold, fun port e hst => ?missed⟩, fun hst hs => ?stop,
    fun hst ha => ?tick, fun slot hst ho => ⟨?assemble_, fun f hfr => ⟨fun hm => ?drop_, fun hm hb => ⟨fun hq => ?launch, fun hk hq => ?reset_⟩⟩⟩,
    fun origin p hp ho => ?timeout, fun port slot line hp => ⟨fun hx => ?noFrame, fun f hx => ⟨fun hn => ?pass, fun hst hrep => ?take⟩⟩,
    fun f hp hrep hd hm hv hk => ?mail, fun slot port hst hl hm => ⟨fun hc => ?close, fun hc => ?other⟩⟩⟩
  case send => exact becomes_if rfl (by simp [hr, hst, hm, hs])
  case delay => exact becomes_if rfl (by simp [hr, hst, hm])
  case accept =>
    refine becomes_done (s := s) ((congrArg done (if_pos hf)).trans ?_)
    exact congrArg done (if_pos hst)
  case join =>
    have hrun := exec_roundMarkAccept e hf (by omega) rfl
    rw [anchor_rg, anchor_flag, if_pos (show ((anchored c s).fixed && !s.flag (rgA c 0x2C) 0) = true by rw [hm]; exact (Bool.and_true _).trans hx),
      if_pos (show (anchored c s).begun = true from hb)] at hrun
    exact becomes_done hrun
  case begin_ =>
    have hrun := exec_roundMarkAccept e hf (by omega) rfl
    rw [anchor_flag, if_pos (by rw [anchor_rg, hm]; exact (Bool.and_true _).trans hx),
      if_neg (by rw [anchor_rg]; exact (Bool.eq_false_iff.1 hb))] at hrun
    exact becomes_done hrun
  case hold =>
    have hrun := exec_roundMarkAccept e hf (by omega) rfl
    rw [anchor_flag, if_neg (by
      rw [anchor_rg]
      rcases hx with h | h
      · have h' : (anchored c s).fixed = false := h
        simp [h']
      · simp [h])] at hrun
    exact becomes_done hrun
  case missed =>
    have hrun := exec_markMissed (c := c) (s := s) port e (by simp [hf, hst])
    generalize roundEnd c e s = r at hrun
    intro t u w
    unfold missedNext at hrun
    exact ⟨fun h => becomes_done (hrun.trans (congrArg done (if_pos h))), fun h => becomes_done (hrun.trans (congrArg done (if_neg (Nat.not_lt.2 h))))⟩
  case stop => exact becomes_if rfl (by rcases hst with h | h <;> simp [hr, h, hs])
  case tick =>
    simp only [State.ringRuns, Bool.and_eq_true, decide_eq_true_eq, Bool.not_eq_true'] at hr
    obtain ⟨⟨⟨⟨hc, hd⟩, hcr⟩, -⟩, -⟩ := hr
    exact becomes_if rfl (by simp [hc, hd, hcr, hst, ha])
  case assemble_ => exact becomes_if rfl (by simp [hr, hst, ho])
  case drop_ =>
    exact becomes_done ((exec_slotLaunch (by simp [hr, hst, ho]) hfr).trans (congrArg done (if_pos (by rcases hm with h | h <;> simp [h]))))
  case launch =>
    refine becomes_done ((exec_slotLaunch (by simp [hr, hst, ho]) hfr).trans (congrArg done ((if_neg (by simp [hm, hb])).trans (if_neg ?_))))
    rcases hq with h | h
    · simp [h]
    · intro hh
      simp only [Bool.and_eq_true] at hh
      cases hq : (s.rg c).queue.head?.map (·.reset) with
      | none => rw [hq] at hh; cases hh.2
      | some b => rw [hq] at hh h; exact h (congrArg some hh.2)
  case reset_ =>
    exact becomes_done ((exec_slotLaunch (by simp [hr, hst, ho]) hfr).trans (congrArg done ((if_neg (by simp [hm, hb])).trans
      (if_pos (by rw [hq]; simp [hk])))))
  case timeout =>
    exact becomes_if rfl (by rw [hr, Bool.true_and, List.any_eq_true]; exact ⟨p, hp, decide_eq_true ho⟩)
  case noFrame => exact becomes_done (exec_frameReceive hp hx)
  case pass =>
    have hrun := exec_frameReceive hp hx
    refine becomes_done (hrun.trans (congrArg done ?_))
    rw [lineNext]
    split
    · rfl
    · next hrep =>
      obtain ⟨h3, h4⟩ := hn.resolve_right hrep
      rw [takeFrame_eq, if_pos (by rw [passOn_ringSt]; simp [h3, h4])]
  case take =>
    have hrun := exec_frameReceive hp hx
    rw [lineNext, if_neg (by simp [hrep]), takeFrame_eq, if_neg (by rw [passOn_ringSt]; rcases hst with h | h <;> simp [h])] at hrun
    intro u
    have hrun' : exec (.frameReceive c ⟨port, slot, line⟩) s = done (takenFrame c f u) := hrun
    clear_value u
    refine ⟨fun h => ?_, fun hv hm => ⟨fun h0 hfo => ?_, fun h0 hd => ?_⟩⟩
    · exact becomes_done (hrun'.trans (congrArg done (if_pos (by rcases h with h | h <;> simp [h]))))
    · exact becomes_done (hrun'.trans (congrArg done ((if_neg (by simp [hv, hm])).trans ((if_pos h0).trans (if_pos hfo)))))
    · have h4 : u.ringSt c = 4 := by
        simp only [State.ringDelivers, Bool.and_eq_true, decide_eq_true_eq] at hd
        exact hd.1
      exact becomes_done (hrun'.trans (congrArg done ((if_neg (by simp [hv, hm])).trans ((if_neg h0).trans ((if_pos h4).trans (if_pos hd))))))
  case mail =>
    have hcond : (s.portRuns c f.port && s.ringDelivers c && !(s.rg c).mute && !s.replaying && s.frameValid c f && decide (f.kind = 4)) = true := by
      simp [hp, hd, hm, hrep, hv, hk]
    intro m
    refine ⟨fun hn => becomes_done (exec_mailFrameReceive hcond hn), fun d hn => ⟨fun h => ?_, fun h => ?_⟩⟩
    · exact becomes_done ((exec_mailFrameReceive hcond hn).trans (congrArg done (if_pos h)))
    · exact becomes_done ((exec_mailFrameReceive hcond hn).trans (congrArg done (if_neg (by simp [h]))))
  case close =>
    refine becomes_done (s := s) ((congrArg done (if_pos (by simp [hr, hst, hl, hm]))).trans ?_)
    exact congrArg done (if_pos hc)
  case other =>
    refine becomes_done (s := s) ((congrArg done (if_pos (by simp [hr, hst, hl, hm]))).trans ?_)
    exact congrArg done (if_neg (Bool.eq_false_iff.1 hc))
end

section
/-!
PROOFS. The ends of the operations of the profile flash (R410, R425, R431).
-/
namespace Sys2Proof.Machine

/-! ### What the end of an operation leaves in the bank -/

/-- A store of which the keys that meet p are kept. -/
theorem sget_filter_key {α : Type} (d : α) (p : Nat → Bool) (m : Sparse α) (k : Nat) :
    sget d (m.filter fun c => p c.1) k = if p k = true then sget d m k else d := by
  induction m with
  | nil => exact (ite_self d).symm
  | cons c m ih =>
    obtain ⟨i, v⟩ := c
    rw [List.filter_cons]
    by_cases hik : i = k
    · subst hik
      by_cases hp : p i = true
      · simp only [sget, hp, if_true]
      · simp only [ih, hp, if_false, Bool.false_eq_true]
    · by_cases hp : p i = true
      · simp only [sget, hp, if_true, if_neg hik, ih]
      · simp only [sget, hp, if_false, if_neg hik, ih, Bool.false_eq_true]

theorem record_pf (kind src flag : Nat) (p : List Word) (s : State) : (s.record kind src flag p).pf = s.pf :=
  ((Stays.refl none noReg s).record kind src flag p).pf

@[simp] theorem pfEnd_pf (b code : Nat) (s : State) : (pfEnd b code s).pf = s.pf :=
  (record_pf ..).trans rfl

/-- An ended operation of a bank for which no line waits. -/
theorem pfFinish_of_unasked {b : Nat} {s : State} (hwho : s.pfWho b = none) (code : Nat) :
    pfFinish b code s = pfEnd b code (setPfOp b none s) := by
  have h : (pfEnd b code (setPfOp b none s)).pfWho b = none := by rw [State.pfWho, pfEnd_pf]; exact hwho
  rw [pfFinish, pfAnswer, h]

/-- What the end of an operation leaves: the bank idle, its words as they are, the code in its result, and the end noted. -/
structure Ended (b code : Nat) (s t : State) : Prop where
  op    : t.pfOp b = none
  words : t.pf.words = s.pf.words
  code  : t.fld (aPst b) 8 4 = code % 16
  seen  : t.flag (aPst b) 4 = true

theorem ended_pfEnd (b code : Nat) {s : State} (hregs : swf resetWord s.regs = true)
    (hops : swf (fun _ => (none : Option PfKind)) s.pf.ops = true) : Ended b code s (pfEnd b code (setPfOp b none s)) := by
  have hst := (Stays.refl none noReg (((setPfOp b none s).setFld (aPst b) 8 4 code).setFlag (aPst b) 4 true)).record 0x09 b code []
  have hreg := hst.reg (aPst b) id (not_ioKey_aPst none b)
  have hset : swf resetWord ((setPfOp b none s).setFld (aPst b) 8 4 code).regs = true :=
    State.swf_setReg (setPfOp b none s) _ _ hregs
  refine ⟨?_, ?_, ?_, ?_⟩
  · rw [State.pfOp, pfEnd_pf]; exact sget_sset_same (fun _ => none) _ b none hops
  · rw [pfEnd_pf]; rfl
  · rw [pfEnd, State.fld_of_reg hreg, State.fld_setFlag_beside _ _ _ _ _ _ hset (by omega)]
    exact State.fld_setFld_same (setPfOp b none s) _ _ _ _ hregs (by omega)
  · rw [pfEnd, State.flag_of_reg hreg, State.flag_setFlag_same _ _ _ _ hset (by omega)]

theorem Ended.flush {b code : Nat} {s t : State} (h : Ended b code s t) : Ended b code s t.flush := by
  have hst := (Stays.refl none noReg t).flush
  have hreg := hst.reg (aPst b) id (not_ioKey_aPst none b)
  refine ⟨?_, ?_, ?_, ?_⟩
  · rw [State.pfOp, hst.pf]; exact h.op
  · rw [hst.pf]; exact h.words
  · rw [State.fld_of_reg hreg]; exact h.code
  · rw [State.flag_of_reg hreg]; exact h.seen

/-! ### The operation of a bank completes -/

section
variable {b : Nat} {s : State} {k : PfKind}

theorem pflashOpComplete_ends (hk : s.pfOp b = some k) (hb : b < 2) (hr : s.flashRuns = true) (hs : k.isSnap = false) (bod : Bool) :
    exec (.pflashOpComplete b bod) s = done (if bod = true then pfAbort b k s else pfComplete b k s) := by
  have h : (!s.flashRuns || decide (2 ≤ b) || k.isSnap) = false := by
    rw [hr, hs, decide_eq_false (by omega)]; rfl
  show execPflashOpComplete b bod s = _
  rw [execPflashOpComplete, hk]
  show done (if (!s.flashRuns || decide (2 ≤ b) || k.isSnap) = true then s else _) = _
  rw [h, if_neg Bool.false_ne_true]

/-- A program that the word takes leaves it programmed, and its bank idle. -/
theorem program_ended {a : Nat} {v : BitVec 64} (hw : Memory.wf s = true) (hc : progCode (s.pfWord a) v = 0)
    (hwho : s.pfWho b = none) :
    Ended b 0 (setPfWord a ((s.pfWord a).programmed v) s) (pfComplete b (.program a v) s) := by
  have he : pfComplete b (.program a v) s = pfFinish b 0 (setPfWord a ((s.pfWord a).programmed v) s) := by
    show pfFinish b (pfProgram a v s).1 (pfProgram a v s).2 = _
    simp only [pfProgram, hc, if_true]
  have hregs := Memory.wf_regs hw
  have hops := Memory.wf_pfOps hw
  rw [he, pfFinish_of_unasked (by exact hwho)]
  exact ended_pfEnd b 0 hregs hops

/-- The part with the words of a sector erased. -/
def sectorErased (a : Nat) (s : State) : State :=
  { s with pf := { s.pf with words := eraseWords a (a + 0x1000) s.pf.words } }

theorem pfWord_sectorErased (a x : Nat) (s : State) :
    (sectorErased a s).pfWord x =
      if (!(a ≤ 8 * (x / 8) && 8 * (x / 8) < a + 0x1000 : Bool)) = true then s.pfWord x else {} :=
  sget_filter_key {} (fun i => !(a ≤ 8 * i && 8 * i < a + 0x1000)) s.pf.words (x / 8)

/-- The erase of a last sector leaves its words erased, and its bank idle. -/
theorem erase_ended {a : Nat} (hw : Memory.wf s = true) (hwho : s.pfWho b = none) :
    Ended b 0 (sectorErased a s) (pfComplete b (.eraseSector a [] false) s) := by
  have he : pfComplete b (.eraseSector a [] false) s = pfFinish b 0 (sectorErased a s) := rfl
  have hregs := Memory.wf_regs hw
  have hops := Memory.wf_pfOps hw
  rw [he, pfFinish_of_unasked (by exact hwho)]
  exact ended_pfEnd b 0 hregs hops

end

/-! ### The snapshot of a tally -/

theorem tallySnapshotStart_next {s : State} {n : Nat} {v : BitVec 64} {l : List (Nat × BitVec 64)} (hq : s.pf.queue = (n, v) :: l)
    (hr : s.flashRuns = true) (hp : s.replaying = false) (ht : s.tallyNow = none) :
    exec .tallySnapshotStart s = done (if s.fenced .pflash = true then tallyFail n (popSnap s) else startSnap n v s) := by
  have h : (!s.flashRuns || s.replaying || s.tallyNow.isSome) = false := by rw [hr, hp, ht]; rfl
  show execTallySnapshotStart s = _
  rw [execTallySnapshotStart, hq]
  show done (if (!s.flashRuns || s.replaying || s.tallyNow.isSome) = true then s else _) = _
  rw [h, if_neg Bool.false_ne_true]

theorem tallyFail_ops (n : Nat) (s : State) : (tallyFail n s).pf.ops = s.pf.ops := by
  rw [tallyFail]
  split <;> rfl

theorem tallyEnd_ops (b n : Nat) (v : BitVec 64) (a : Nat) (seq : BitVec 16) (code : Nat) (s : State) :
    (tallyEnd b n v a seq code s).pf.ops = sset none s.pf.ops b none := by
  have h : (pfEnd b code (setPfOp b none s)).pf.ops = sset none s.pf.ops b none := by rw [pfEnd_pf]; rfl
  rw [tallyEnd]
  dsimp only
  split
  · exact h
  · rw [tallyFail_ops]; exact h

theorem pfProgram_ops (a : Nat) (v : BitVec 64) (s : State) : (pfProgram a v s).2.pf.ops = s.pf.ops := by
  rw [pfProgram]
  dsimp only
  split <;> rfl

theorem writeSnap_ops (a : Nat) (v : BitVec 64) (seq : BitVec 16) (s : State) : (writeSnap a v seq s).2.pf.ops = s.pf.ops := by
  rw [writeSnap]
  dsimp only
  split
  · exact pfProgram_ops ..
  · split
    · exact (pfProgram_ops ..).trans (pfProgram_ops ..)
    · exact (pfProgram_ops ..).trans ((pfProgram_ops ..).trans (pfProgram_ops ..))

/-- What the end of a snapshot in bank b makes of the part. -/
def snapEnd (bod : Bool) (b n : Nat) (v : BitVec 64) (a : Nat) (q : BitVec 16) (s : State) : State :=
  if bod = true then pfAbort b (.tally n v a q) s else pfComplete b (.tally n v a q) s

theorem pfOp_snapEnd (bod : Bool) (b n : Nat) (v : BitVec 64) (a : Nat) (q : BitVec 16) (s : State) {c : Nat} (hc : c ≠ b) :
    (snapEnd bod b n v a q s).pfOp c = s.pfOp c := by
  have h : (snapEnd bod b n v a q s).pf.ops = sset none s.pf.ops b none := by
    rw [snapEnd]
    split
    · exact tallyEnd_ops ..
    · exact (tallyEnd_ops ..).trans (congrArg (sset none · b none) (writeSnap_ops ..))
  rw [State.pfOp, h]
  exact sget_sset_other none none s.pf.ops b c none hc

/-- What the end of the snapshots makes of the part in one bank. -/
def snapStep (bod : Bool) (t : State) (b : Nat) : State :=
  match t.pfOp b with
  | some (.tally n v a seq) => if bod = true then pfAbort b (.tally n v a seq) t else pfComplete b (.tally n v a seq) t
  | _ => t

theorem snapStep_tally {bod : Bool} {t : State} {b n : Nat} {v : BitVec 64} {a : Nat} {q : BitVec 16}
    (h : t.pfOp b = some (.tally n v a q)) : snapStep bod t b = snapEnd bod b n v a q t := by
  rw [snapStep, h]; rfl

theorem snapStep_idle {bod : Bool} {t : State} {b : Nat} (h : t.pfOp b = none) : snapStep bod t b = t := by
  rw [snapStep, h]

theorem tallySnapshotDone_next {s : State} (bod : Bool) (hr : s.flashRuns = true) :
    exec (.tallySnapshotDone bod) s = done (snapStep bod (snapStep bod s 0) 1) := by
  have he : exec (.tallySnapshotDone bod) s = done (if (!s.flashRuns) = true then s else snapStep bod (snapStep bod s 0) 1) := rfl
  rw [he, hr]
  rfl

/-- The snapshot that one bank writes, the other idle, ends as its bank ends it. -/
theorem tallySnapshotDone_of_one {s : State} {b n : Nat} {v : BitVec 64} {a : Nat} {q : BitVec 16} (bod : Bool) (hb : b < 2)
    (hr : s.flashRuns = true) (hop : s.pfOp b = some (.tally n v a q)) (hother : s.pfOp (1 - b) = none) :
    exec (.tallySnapshotDone bod) s = done (snapEnd bod b n v a q s) := by
  rw [tallySnapshotDone_next bod hr]
  obtain rfl | rfl : b = 0 ∨ b = 1 := by omega
  · rw [snapStep_tally hop, snapStep_idle ((pfOp_snapEnd bod 0 n v a q s (by omega)).trans hother)]
  · rw [snapStep_idle hother, snapStep_tally hop]

end Sys2Proof.Machine

/-! ### FlashEnds -/

open Sys2Proof Sys2Proof.Machine

/-- Settles O48. The bank of an ended operation is idle with its code, which the flush of the events leaves; the rest is what the
operation makes of the words. -/
theorem flashEnds : Obligations.FlashEnds := by
  intro b s ⟨hw, _⟩ hb hr
  refine ⟨fun a v hop hc hwho => ?program, fun a hop ha hwho => ?erase, fun k hop hs => ?any, fun n v l hq hp ht => ?start,
    fun n v a q bod hop hother => ?snap⟩
  case program =>
    have hend := (program_ended hw hc hwho).flush
    have hword (x : Nat) : (pfComplete b (.program a v) s).flush.pfWord x = (setPfWord a ((s.pfWord a).programmed v) s).pfWord x := by
      rw [State.pfWord, hend.words]; rfl
    refine ⟨_, pflashOpComplete_ends hop hb hr rfl false, hend.op, ?_, hend.code, hend.seen, fun x hx => ?_⟩
    · exact (hword a).trans (pfWord_setPfWord_same hw a _)
    · exact (hword x).trans (sget_sset_other _ _ _ _ _ _ hx)
  case erase =>
    have hend := (erase_ended (a := a) hw hwho).flush
    have hword (x : Nat) : (pfComplete b (.eraseSector a [] false) s).flush.pfWord x = (sectorErased a s).pfWord x := by
      rw [State.pfWord, hend.words]; rfl
    refine ⟨_, pflashOpComplete_ends hop hb hr rfl false, hend.op, hend.seen, fun x hlo hhi => ?_, fun x hx => ?_⟩
    · have hin : (!(a ≤ 8 * (x / 8) && 8 * (x / 8) < a + 0x1000 : Bool)) = false := by simp; omega
      refine (hword x).trans ((pfWord_sectorErased a x s).trans ?_)
      rw [hin, if_neg Bool.false_ne_true]
    · have hout : (!(a ≤ 8 * (x / 8) && 8 * (x / 8) < a + 0x1000 : Bool)) = true := by simp; omega
      exact (hword x).trans ((pfWord_sectorErased a x s).trans (if_pos hout))
  case any =>
    exact ⟨becomes_if (pflashOpComplete_ends hop hb hr hs true) rfl,
      becomes_else (pflashOpComplete_ends hop hb hr hs false) Bool.false_ne_true⟩
  case start =>
    have hpop : popSnap s = { s with pf := { s.pf with queue := l } } := by rw [popSnap, hq]; rfl
    rw [← hpop]
    exact ⟨fun hf => becomes_if (tallySnapshotStart_next hq hr hp ht) hf,
      fun hf => becomes_else (tallySnapshotStart_next hq hr hp ht) (by simp [hf])⟩
  case snap => exact becomes_done (tallySnapshotDone_of_one bod hb hr hop hother)
end

section
/-!
PROOFS. What Chrysalis does on its own (R469 to R489): a staged replay begins or ends in its codes, an injected record moves it, and its end
leaves no replay.
-/
namespace Sys2Proof.Machine

/-! ### The replay state -/

theorem fld_setReplay {s : State} (hw : swf resetWord s.regs = true) {k : Nat} (hk : k < 8) : (setReplay k s).fld aRecStat 0 3 = k := by
  rw [setReplay, State.fld_setFld_same _ _ _ _ _ hw (by omega)]
  exact Nat.mod_eq_of_lt hk

theorem flush_replayState {s : State} (hw : swf resetWord s.regs = true) : s.flush.fld aRecStat 0 3 = s.fld aRecStat 0 3 :=
  (Stays.refl none noReg s).flush.replay id hw

theorem beginRun_state {s : State} (hw : swf resetWord s.regs = true) : (beginRun s).flush.fld aRecStat 0 3 = 2 := by
  have h : swf resetWord (beginRun s).regs = true ∧ (beginRun s).fld aRecStat 0 3 = 2 := by
    rw [beginRun]
    split
    · exact ⟨State.swf_setReg s _ _ hw, fld_setReplay hw (by omega)⟩
    · exact ⟨State.swf_setReg _ _ _ hw, fld_setReplay hw (by omega)⟩
  rw [flush_replayState h.1, h.2]

/-! ### The staging of the pages leaves canonical registers -/

theorem rfReport_canon (b blk p : Nat) (r : PageRead) (erased : Bool) {s : State} (hw : swf resetWord s.regs = true) :
    swf resetWord (rfReport b blk p r erased s).regs = true := by
  unfold rfReport
  extract_lets t1 t2 t3 ev t4
  have h1 : swf resetWord t1.regs = true :=
    State.swf_setReg _ _ _ (State.swf_setReg _ _ _ (State.swf_setReg _ _ _ (State.swf_setReg _ _ _ hw)))
  have h2 : swf resetWord t2.regs = true := ((Stays.refl none noReg _).record ..).canon (State.swf_setReg _ _ _ h1)
  have h3 : swf resetWord t3.regs = true := by
    unfold t3
    split
    · exact State.swf_setReg _ _ _ h2
    · exact h2
  have h4 : swf resetWord t4.regs = true := by
    unfold t4
    split
    · exact h3
    · exact h3
  split
  · exact State.swf_setReg _ _ _ h4
  · exact h4

theorem blockCheck_canon (key : Nat) (ok : Bool) {s : State} (hw : swf resetWord s.regs = true) :
    swf resetWord (blockCheck key ok s).regs = true := by
  unfold blockCheck
  extract_lets b blk p t
  have ht : swf resetWord t.regs = true := State.swf_setReg _ _ _ hw
  split
  · exact ht
  · exact State.swf_setReg _ _ _ (State.swf_setReg _ _ _ ht)

theorem stagePages_canon (id : Nat) (damaged : Option Nat) {s : State} (hw : swf resetWord s.regs = true) :
    swf resetWord (stagePages id damaged s).regs = true := by
  unfold stagePages
  refine List.foldlRecOn (motive := fun u : State => swf resetWord u.regs = true) _ _ hw fun u hu t _ => ?_
  dsimp only
  split
  · split
    · exact rfReport_canon _ _ _ _ _ hu
    · exact blockCheck_canon _ _ hu
  · split
    · split
      · exact blockCheck_canon _ _ hu
      · exact hu
    · exact blockCheck_canon _ _ hu

/-- A replay that ends with page p damaged: the directory shows the capsule damaged, and the page stands in its register. -/
def pageDamaged (id p : Nat) (t : State) : State :=
  let mark (d : DirEnt) : DirEnt := if d.id = id then { d with st := .damaged } else d
  { t with chrys := { t.chrys with dir := t.chrys.dir.map mark } }.setReg 0x7003C (word p)

/-- What the end of the staging makes of a replay of the trail (none) or of a capsule. -/
def stagingNext (damaged : Option Nat) (id : Option Nat) (s : State) : State :=
  match id with
  | none => beginRun s
  | some i =>
    match damaged with
    | none => beginRun (stagePages i damaged s)
    | some p => endReplay 5 (pageDamaged i p (stagePages i damaged s))

theorem endReplay_damaged {i p : Nat} {t : State} (hw : swf resetWord t.regs = true) :
    let u := (endReplay 5 (pageDamaged i p t)).flush
    u.fld aRecStat 0 3 = 4 ∧ u.fld aDivKind 0 4 = 5 ∧ u.reg 0x7003C = word p := by
  have h1 : swf resetWord (pageDamaged i p t).regs = true := State.swf_setReg _ _ _ hw
  have h2 : swf resetWord ((pageDamaged i p t).setFld aDivKind 0 4 5).regs = true := State.swf_setReg _ _ _ h1
  have hst := (Stays.refl none noReg (endReplay 5 (pageDamaged i p t))).flush
  refine ⟨(hst.replay id (State.swf_setReg _ _ _ h2)).trans (fld_setReplay h2 (by omega)), ?_, ?_⟩
  · rw [State.fld_of_reg (hst.reg aDivKind id (by unfold ioKey aDivKind; omega)), endReplay, setReplay,
      State.fld_of_reg (State.reg_setFld_other _ _ _ _ _ _ (by decide))]
    exact State.fld_setFld_same _ _ _ _ _ h1 (by omega)
  · rw [hst.reg 0x7003C id (by unfold ioKey; omega), endReplay, setReplay, State.reg_setFld_other _ _ _ _ _ _ (by decide),
      State.reg_setFld_other _ _ _ _ _ _ (by decide)]
    exact State.reg_setReg_same _ _ _ hw

/-! ### A record is injected -/

/-- What an injected record makes of a replay in progress. -/
def injectNext (x : Inject) (p : Replay) (s : State) : State :=
  let u := { s with chrys := { s.chrys with replay := some (s.injected p) } }
  let last := x.last || s.atLast p
  match x.divs with
  | d :: l =>
    if p.nostop then
      let t := (d :: l).foldl (fun u x => diverge x u) u
      if s.atGap p then endReplay 4 t else if last then endReplay 2 t else t
    else endReplay 2 (diverge d u)
  | [] =>
    if s.atGap p then endReplay 4 u
    else if last then endReplay (if u.fld aDivKind 16 16 = 0 then 1 else 2) u
    else u

section
variable {s : State} {r : Replay} (hr : s.chrys.replay = some r) (hd : s.dead = false) (hst : s.fld aRecStat 0 3 = 2)
include hr hd hst

theorem exec_recordInject (x : Inject) :
    exec (.recordInject x) s = done (if s.injects r = true then injectNext x r s else s) := by
  have hg : (s.dead || decide (s.fld aRecStat 0 3 ≠ 2) || !s.injects r) = !s.injects r := by rw [hd, hst]; rfl
  have he : exec (.recordInject x) s = execRecordInject x s := rfl
  have hn : execRecordInject x s
      = done (if (s.dead || decide (s.fld aRecStat 0 3 ≠ 2) || !s.injects r) = true then s else injectNext x r s) := by
    rw [execRecordInject, hr]; rfl
  rw [he, hn, hg]
  cases s.injects r <;> rfl

end

/-! ### The end of a replay -/

theorem queueEntries_leave (l : List EvEntry) (s : State) :
    (l.foldl (fun u x => queueEntry x u) s).chrys = s.chrys ∧ (l.foldl (fun u x => queueEntry x u) s).clk = s.clk := by
  refine List.foldlRecOn (motive := fun u : State => u.chrys = s.chrys ∧ u.clk = s.clk) l _ ⟨rfl, rfl⟩ fun u ⟨hc, hk⟩ x _ => ?_
  rw [queueEntry]
  split
  · exact ⟨hc, hk⟩
  · exact ⟨hc, hk⟩

theorem dropTags_leaves (e : Ep) (s : State) : (dropTags e s).chrys = s.chrys ∧ (dropTags e s).clk = s.clk := by
  rw [dropTags, State.setPort_chrys, State.setPort_clk]; exact ⟨rfl, rfl⟩

/-- The part with nothing replayed. -/
def playEnded (t : State) : State := { setReplay 0 t with chrys := { t.chrys with replay := none, unread := false } }

/-- The events of the replay are queued and the old tags dropped. -/
def unplayed (r : Replay) (t : State) : State :=
  dropTags .mail (dropTags .cp1 (dropTags .cp0 (r.events.foldl (fun u x => queueEntry x u) (playEnded t))))

/-- The part as a replay leaves it, the watchdog set back. -/
def playLeft (r : Replay) (t : State) : State :=
  let u := unplayed r t
  { u with wdog := { u.wdog with reload := u.clk.raw - r.wdRun } }

/-- The counts that came in during the replay are taken. -/
def countsTaken (counts : List (Nat × BitVec 16)) (t : State) : State :=
  let t := setStale (t.chans.filter fun n => !isOut (t.mode n)) t
  let t := counts.foldl (fun u x => u.setCh x.1 { u.ch x.1 with cnt16 := (u.ch x.1).cnt16 + x.2 }) t
  forAll t.chans (fun n u => if u.dicLive n then (takeCount n u).setFlag (aStat n) 19 true else u) t

theorem playLeft_facts (r : Replay) (t : State) :
    (playLeft r t).chrys.replay = none ∧ (playLeft r t).wdog.reload = t.clk.raw - r.wdRun := by
  have hu : (unplayed r t).chrys.replay = none ∧ (unplayed r t).clk = t.clk := by
    rw [unplayed]
    have hv := queueEntries_leave r.events (playEnded t)
    generalize r.events.foldl (fun u x => queueEntry x u) (playEnded t) = w at hv
    have h0 := dropTags_leaves .cp0 w
    have h1 := dropTags_leaves .cp1 (dropTags .cp0 w)
    have h2 := dropTags_leaves .mail (dropTags .cp1 (dropTags .cp0 w))
    rw [h2.1, h2.2, h1.1, h1.2, h0.1, h0.2, hv.1, hv.2]
    exact ⟨rfl, rfl⟩
  exact ⟨hu.1, congrArg (fun c : Clk => c.raw - r.wdRun) hu.2⟩

namespace CopyLeaves
variable {s t : State} (h : CopyLeaves s t)
include h

theorem setCh (n : Nat) (a : ChanAux) : CopyLeaves s (t.setCh n a) := h.step ⟨rfl, rfl, rfl⟩ rfl rfl rfl

theorem chan {n o : Nat} (ho : o < 0x1000 ∧ o ≠ 0 ∧ o ≠ 0x140) (v : Word) : CopyLeaves s (t.setReg (chA n o) v) :=
  h.setReg _ _ (not_modeReg_chA n ho)
theorem stat (n i : Nat) (b : Bool) : CopyLeaves s (t.setFlag (aStat n) i b) := h.chan (by omega) _

theorem setStale (l : List Nat) : CopyLeaves s (setStale l t) := h.foldl l fun n _ u =>
  have hu := (refl u).chan (n := n) (o := 0x84) (by omega) (setBit (u.reg (chA n 0x84)) 16 true)
  .ite (hu.stat ..) hu

theorem slotValid (n : Nat) : CopyLeaves s (slotValid n t) := (((h.setCh ..).chan (by omega) _).chan (by omega) _).stat ..
theorem persist (n : Nat) : CopyLeaves s (persist n t) := .ite (h.step ⟨rfl, rfl, rfl⟩ rfl rfl rfl) h

theorem countTaken (n : Nat) : CopyLeaves s (countTaken n t) := by
  have hpair {u : State} (hu : CopyLeaves s u) (o : Nat) (ho : o = 0x48 ∨ o = 0x54) (v : BitVec 64) : CopyLeaves s (u.setPair (chA n o) v) :=
    (hu.chan (by omega) _).chan (o := o + 4) (by omega) _
  unfold Machine.countTaken edgeTaken countBased
  split
  · exact (hpair (hpair (h.setCh ..) _ (.inr rfl) _) _ (.inl rfl) _).slotValid n
  · exact (hpair (h.setCh ..) _ (.inl rfl) _).slotValid n

theorem takeCount (n : Nat) : CopyLeaves s (takeCount n t) := by
  obtain he | he := takeCount_cases n t <;> rw [he]
  · exact (h.countTaken n).persist n
  · exact h.countTaken n

theorem countsTaken (counts : List (Nat × BitVec 16)) : CopyLeaves s (countsTaken counts t) := by
  unfold Machine.countsTaken
  extract_lets u v
  have hv : CopyLeaves s v := (h.setStale _).foldl _ fun _ _ x => (refl x).setCh ..
  exact hv.foldl _ fun _ _ x => .ite (((refl x).takeCount _).stat ..) (.refl x)

theorem clearCause {k : Nat} (hk : ¬ modeReg k) (b : Nat) (o : Obj) : CopyLeaves s (clearCause k b o t) :=
  h.trans (.of_moves (moves_clearCause (K := (· = k)) (C := noReg) t k b o rfl) fun _ hj => hj ▸ hk)

theorem startEpoch : CopyLeaves s (startEpoch t) := by
  unfold Machine.startEpoch
  refine .ite h ?_
  extract_lets c kept part line u v
  have hu : CopyLeaves s u := h.withChrys _
  have hv : CopyLeaves s v := ((hu.setReg ..).setReg ..).setFlag ..
  exact (hv.record ..).takeKeyframe

end CopyLeaves

theorem replayEvent_leaves {s : State} {r : Replay} (hr : s.chrys.replay = some r) (c : Ev) (d : List Fld) :
    (∃ l, (replayEvent c d s).chrys.replay = some { r with events := l }) ∧ (replayEvent c d s).clk = s.clk := by
  rw [replayEvent, hr]
  refine ⟨⟨_, rfl⟩, ?_⟩
  dsimp only
  split <;> split <;> simp only [State.send_clk]

theorem exec_replayEnd {s : State} {r : Replay} (hr : s.chrys.replay = some r) (hd : s.dead = false) (hst : s.fld aRecStat 0 3 = 4)
    (counts : List (Nat × BitVec 16)) : ∃ l t, t.clk = s.clk ∧ exec (.replayEnd counts) s
      = done (copyOn (startEpoch (clearCause 0x30004 5 .dev (countsTaken counts (playLeft { r with events := l } t))))) := by
  obtain ⟨⟨l, hl⟩, hk⟩ := replayEvent_leaves hr .replayEnd [fw (resultText (s.fld aDivKind 0 4))]
  refine ⟨l, _, hk, ?_⟩
  have he : exec (.replayEnd counts) s = execReplayEnd counts s := rfl
  rw [he, execReplayEnd, hd, hst, if_neg (by decide)]
  dsimp only
  rw [hl]
  rfl

end Sys2Proof.Machine

/-! ### ChrysalisEvents -/

open Sys2Proof Sys2Proof.Machine

/-- Settles O53: each event of Chrysalis ends in the state of its rule; for the end of a replay, the copy to the record flash and the new
epoch leave what it has restored. -/
theorem chrysalisEvents : Obligations.ChrysalisEvents := by
  intro s hd
  refine ⟨fun hs => ?own, fun r hr hst => ?staging, fun r x hr hst => ?inject, fun r => ?due, fun r counts hr hst => ?ends⟩
  case own =>
    have hoff : ¬ (s.dead || s.asleep) = true := by rw [hd, hs]; decide
    refine ⟨becomes_else rfl hoff, becomes_else rfl hoff, fun hrun => becomes_else rfl (by rw [hd, hs, hrun]; decide),
      becomes_else rfl hoff, fun p hp hc => ?_⟩
    intro t
    have he : exec .pendingCapsuleStart s = execPendingCapsuleStart s := rfl
    refine becomes_done ?_
    rw [he, execPendingCapsuleStart, hp]
    dsimp only
    rw [hd, hs, hc]
    rfl
  case staging =>
    have hg : ¬ (s.dead || decide (s.fld aRecStat 0 3 ≠ 1)) = true := by rw [hd, hst]; decide
    have hrun (d : Option Nat) : exec (.replayStagingDone d) s = done (stagingNext d r.id s) := by
      have he : exec (.replayStagingDone d) s = execReplayStagingDone d s := rfl
      rw [he, execReplayStagingDone, if_neg hg, hr]
      rfl
    refine ⟨fun hid d => ⟨_, hrun d, fun hw => ?_⟩, fun i hid => ⟨_, hrun none, fun hw => ?_⟩, fun i p hid => ⟨_, hrun (some p), fun hw => ?_⟩⟩
    · rw [hid]; exact beginRun_state (Memory.wf_regs hw)
    · rw [hid]; exact beginRun_state (stagePages_canon i none (Memory.wf_regs hw))
    · rw [hid]; exact endReplay_damaged (stagePages_canon i (some p) (Memory.wf_regs hw))
  case inject =>
    have hrun := exec_recordInject hr hd hst x
    refine ⟨fun hi => becomes_else hrun (by simp [hi]), fun hi => ?_⟩
    have hnext : exec (.recordInject x) s = done (injectNext x r s) := hrun.trans (congrArg done (if_pos hi))
    intro u last
    refine ⟨fun hx hg => ?_, fun hx hg hl => ?_, fun hx hg hl => ?_, fun d l hx hn => ?_, fun hn hx hg hl => ?_⟩
    · exact becomes_done (hnext.trans (congrArg done (by rw [injectNext, hx]; exact if_pos hg)))
    · exact becomes_done (hnext.trans (congrArg done (by
        rw [injectNext, hx]; exact (if_neg (ne_true_of_eq_false hg)).trans (if_pos hl))))
    · exact becomes_done (hnext.trans (congrArg done (by
        rw [injectNext, hx]; exact (if_neg (ne_true_of_eq_false hg)).trans (if_neg (ne_true_of_eq_false hl)))))
    · exact becomes_done (hnext.trans (congrArg done (by rw [injectNext, hx]; exact if_neg (by simp [hn]))))
    · obtain ⟨d, l, hx⟩ := List.exists_cons_of_ne_nil hx
      refine becomes_done (hnext.trans (congrArg done ?_))
      rw [injectNext, hx]
      exact (if_pos hn).trans ((if_neg (ne_true_of_eq_false hg)).trans (if_neg (ne_true_of_eq_false hl)))
  case due =>
    refine ⟨fun h => by simp [State.injects, h], fun h => by simp [State.injects, h], rfl, ?_, fun h => ?_⟩
    · show s.due r ≤ max (s.due r) (r.cycle s.clk.raw) + (s.clk.raw - s.clk.raw)
      omega
    · exact congrArg Pipe.inputs (if_pos h)
  case ends =>
    obtain ⟨l, t, hk, he⟩ := exec_replayEnd hr hd hst counts
    have hc := ((((CopyLeaves.refl (playLeft { r with events := l } t)).countsTaken counts).clearCause
      (not_modeReg_low (by decide : 0x30004 < 0x10000000)) 5 .dev).startEpoch).copyOn
    have hf (u : State) : Stays none noReg u u.flush := (Stays.refl none noReg u).flush
    obtain ⟨hp, hw⟩ := playLeft_facts { r with events := l } t
    obtain ⟨u, hu, htame⟩ := replayEnd_runs (s := s) counts
    refine ⟨_, he, ?_, ?_, ?_⟩
    · rw [(hf _).dir.2.1, hc.replay, hp]
    · rw [(hf _).wdog, hc.wdog, hw, hk]
    · have hn := Host.Outcome.next.inj (he.symm.trans hu)
      rw [hn, (hf u).member, htame.member]
end

section
/-!
PROOFS. Lines for other nodes (R123, R125, R126, R127).
-/
namespace Sys2Proof.Machine

/-! ### A tag entry -/

/-- The entry of a line is in the cache of its port. -/
theorem addTag_entry {ln : Line} {g : BitVec 16} (hg : ln.tag = some g) (a : Option Answer) (s : State) :
    ∃ x ∈ ((addTag ln a s).port ln.ep).tags, x.tag = g ∧ x.resp = a := by
  unfold addTag
  rw [hg]
  dsimp only
  rw [State.port_setPort_same]
  exact ⟨_, List.mem_append_right _ List.mem_cons_self, rfl, rfl⟩

theorem addTag_ring (ln : Line) (a : Option Answer) (s : State) : (addTag ln a s).ring = s.ring := by
  unfold addTag
  split
  · rfl
  · dsimp only
    rw [State.setPort_ring]
    split <;> rfl

/-! ### A line is handed on -/

/-- The line stands among those outstanding at its port. -/
def outstanding (ln : Line) (dst : Node) (s : State) : State :=
  let t := addTag ln none s
  let p := t.port ln.ep
  t.setPort ln.ep { p with remote := p.remote ++ [{ id := p.nextId, dst := dst, tag := ln.tag, crc := ln.crc }], nextId := p.nextId + 1 }

theorem forwardLine_eq {ln : Line} {dst : Node} {text : List Byte} {s : State} {c : Nat} (hc : s.route dst = some c) :
    forwardLine ln dst text s = mailPut c ((addTag ln none s).lineFrags ln (some dst) c text) (outstanding ln dst s) := by
  rw [forwardLine, hc]; rfl

@[simp] theorem mailPut_port (c : Nat) (l : List MailFrag) (s : State) (e : Ep) : (mailPut c l s).port e = s.port e := by
  cases e <;> rfl

theorem mailPut_rg_other {c x : Nat} (h : x ≠ c) (l : List MailFrag) (s : State) : (mailPut c l s).rg x = s.rg x :=
  State.rg_setRg_other s c x _ h

namespace Mute
variable {s t : State} (h : Mute s t)
include h

theorem mailPut (c : Nat) (l : List MailFrag) : Mute s (mailPut c l t) := h.setRg ..
theorem mailDiscard (c k : Nat) : Mute s (mailDiscard c k t) := h.setFld ..
theorem kickWdog : Mute s (kickWdog t) := h.trans ⟨rfl, rfl, rfl⟩
theorem holdDev (b : Nat) : Mute s (holdDev b t) := h.holdCause ..

theorem castHere (v : BVerb) : Mute s (castHere v t) := by
  cases v with
  | kick => exact h.kickWdog.clearCause ..
  | safe => exact (h.holdDev 4).clearCause ..
  | sync gs => exact h.requestSync _
  | other l p => exact h

theorem castOut (ln : Line) (text : List Byte) : Mute s (castOut ln text t) :=
  h.forAll _ fun _ u => .ite ((refl u).mailPut ..) ((refl u).mailDiscard ..)

end Mute

/-- The groups of a sync line that the part has. -/
theorem castChecks_sync {gs : List Nat} {s : State} (h : ∀ g ∈ gs, g < s.member.groups) : ∀ p ∈ castChecks (.sync gs) s, p.2 = false := by
  intro p hp
  obtain ⟨g, hg, hp⟩ := List.mem_flatMap.1 hp
  have h1 := h g hg
  have h2 := groups_le s.member
  rw [grObj] at hp
  obtain rfl | hp := List.mem_cons.1 hp
  · exact decide_eq_false (by omega)
  · obtain rfl := List.mem_singleton.1 hp
    exact decide_eq_false (by omega)

/-! ### An answer from another node -/

section
variable {ep : Ep} {x : Outst} {s : State} (hr : s.running = true) (ha : s.asleep = false)
  (hx : (s.port ep).remote.find? (fun y => decide (y.id = x.id)) = some x)
include hr ha hx

theorem exec_remoteResponse (text : List Byte) :
    exec (.remoteResponseArrival ep x.id text) s = done (remoteResponse ep x x.dst text false s) := by
  have he : exec (.remoteResponseArrival ep x.id text) s = execRemoteResponseArrival ep x.id text s := rfl
  rw [he, execRemoteResponseArrival, hr, ha, if_neg (by decide), hx]

theorem exec_noreply : exec (.noreply ep x.id) s = done (remoteResponse ep x x.dst (textBytes "!E NOREPLY") false
    (s.setPort ep { s.port ep with tags := (s.port ep).tags.filter fun t => !(decide (x.tag = some t.tag) && t.resp.isNone) })) := by
  have he : exec (.noreply ep x.id) s = execNoreply ep x.id s := rfl
  rw [he, execNoreply, hr, ha, if_neg (by decide), hx]

end

end Sys2Proof.Machine

/-! ### RemoteLines -/

open Sys2Proof Sys2Proof.Machine

/-- Settles O11: a line handed to MAIL is one more outstanding line with its pending entry, its answer or NOREPLY ends it, and a broadcast
acts here and leaves. -/
theorem remoteLines : Obligations.RemoteLines := by
  refine ⟨fun ln dst text c s hi hmail hp => ?forward, fun ep x text s hr ha hx =>
    ⟨becomes_done (exec_remoteResponse hr ha hx text), becomes_done (exec_noreply hr ha hx)⟩, fun ln v text s hi hp => ?cast⟩
  case forward =>
    intro a herr hroute
    have ha : Stays (some ln.ep) noReg s a := Stays.accepted noReg ln _ s
    have he : exec (.remoteLineForward ln dst text) s = done (forwardLine ln dst text a) := by
      have he : exec (.remoteLineForward ln dst text) s = execRemoteLineForward ln dst text s := rfl
      rw [he, execRemoteLineForward, if_neg hmail]
      exact congrArg done (gateLine_passes hp _ _ herr)
    have hf := (Stays.refl none noReg (forwardLine ln dst text a)).flush
    have hport : ((forwardLine ln dst text a).flush.port ln.ep) = (outstanding ln dst a).port ln.ep := by
      rw [flush_port, forwardLine_eq hroute, mailPut_port]
    refine ⟨_, he, ?_, fun g hg => ?_, fun x hx => ?_, hf⟩
    · rw [hport, outstanding]
      rw [State.port_setPort_same]
      obtain ⟨_, _, _, _, hrem, _⟩ := (ha.addTag ln none).own ln.ep rfl
      rw [List.length_append, hrem]
      rfl
    · rw [hport]
      obtain ⟨y, hy, htag, hresp⟩ := addTag_entry hg none a
      refine ⟨y, ?_, htag, hresp⟩
      rw [outstanding]
      rw [State.port_setPort_same]
      exact hy
    · have hring : (outstanding ln dst a).ring = s.ring := by
        rw [outstanding, State.setPort_ring, addTag_ring]
        exact ha.ring (by simpa using hmail)
      have hrg : ((forwardLine ln dst text a).flush).rg x = (forwardLine ln dst text a).rg x := by
        rw [State.rg, hf.ring (by simp)]; rfl
      rw [hrg, forwardLine_eq hroute, mailPut_rg_other hx, State.rg, hring]
      rfl
  case cast =>
    intro a
    have ha : Stays (some ln.ep) noReg s a := Stays.accepted noReg ln _ s
    have hm : Mute a a := .refl a
    refine ⟨fun hc => does_acts_here rfl hp hi hc rfl ((hm.castHere v).castOut ln text), fun l p hv => ?_, fun gs hv hg => ?_⟩
    · subst hv
      exact does_refused rfl hp hi rfl
    · subst hv
      exact castChecks_sync (ha.member ▸ hg)
end

section
/-!
PROOFS. Refused lines (R96 to R98, R107, R116, R121, R141): what a completed line of faults spells, and what its refusal leaves.
-/
namespace Sys2Proof.Machine

/-! ### What a line of faults spells -/

theorem lineTokens_of_seps {l : List Byte} (h : ∀ b ∈ l, isSep b = true) : lineTokens l = [] := by
  rw [lineTokens, List.filter_eq_nil_iff]
  induction l with
  | nil => simp [tokens]
  | cons b l ih =>
    have hb : b = 0x20 ∨ b = 9 := by simpa [isSep] using h b List.mem_cons_self
    rw [tokens, if_pos hb]
    intro t ht
    obtain rfl | ht := List.mem_cons.1 ht
    · simp
    · exact ih (fun c hc => h c (List.mem_cons_of_mem _ hc)) t ht

theorem printable_of_sep {b : Byte} (h : isSep b = true) : ¬ (b ≠ 9 ∧ (b < 0x20 ∨ 0x7E < b)) := by
  have hb : b = 0x20 ∨ b = 9 := by simpa [isSep] using h
  obtain rfl | rfl := hb <;> decide

/-- The test of R96 on the bytes of a line. -/
def hasBadByte (l : List Byte) : Bool := l.any fun b => !(decide (b = 9) || (decide (0x20 ≤ b) && decide (b ≤ 0x7E)))

theorem hasBadByte_iff (l : List Byte) : hasBadByte l = true ↔ ∃ b ∈ l, b ≠ 9 ∧ (b < 0x20 ∨ 0x7E < b) := by
  rw [hasBadByte, List.any_eq_true]
  refine exists_congr fun b => and_congr_right fun _ => ?_
  simp only [Bool.not_eq_true', Bool.or_eq_false_iff, decide_eq_false_iff_not, Bool.and_eq_false_iff, BitVec.not_le, ne_eq]

section
variable {s : State} {e : Ep} {h : Option MailHead} {l : List RxSym}

theorem lineCommand_char (hb : hasBadByte (symBytes l) = true) : ∃ ln : Line, ln.ep = e ∧ s.lineCommand e h l = some (.lineRefused ln .char) :=
  ⟨_, rfl, if_pos hb⟩

theorem lineCommand_toolong (hb : hasBadByte (symBytes l) = false) (hn : 255 < (symBytes l).length) :
    ∃ ln : Line, ln.ep = e ∧ s.lineCommand e h l = some (.lineRefused ln .toolong) :=
  ⟨_, rfl, (if_neg (ne_true_of_eq_false hb)).trans (if_pos hn)⟩

theorem lineCommand_overrun (hb : hasBadByte (symBytes l) = false) (hn : ¬ 255 < (symBytes l).length) (hl : RxSym.lost ∈ l) :
    ∃ ln : Line, ln.ep = e ∧ s.lineCommand e h l = some (.lineRefused ln .overrun) :=
  ⟨_, rfl, (if_neg (ne_true_of_eq_false hb)).trans ((if_neg hn).trans (if_pos (by simpa using hl)))⟩

theorem lineCommand_empty (hb : hasBadByte (symBytes l) = false) (hn : ¬ 255 < (symBytes l).length) (hl : RxSym.lost ∉ l)
    (ht : lineTokens (symBytes l) = []) : s.lineCommand e h l = none :=
  (if_neg (ne_true_of_eq_false hb)).trans ((if_neg hn).trans ((if_neg (by simpa using hl)).trans (if_pos ht)))

end

/-! ### The response that is sent -/

theorem respond_sends (ln : Line) (a : Answer) (dup : Bool) (s : State) :
    (isSilent ln = false → ∃ l c, ((respond ln a dup s).port ln.ep).tx = l ++ TxItem.resp ln.addr a dup c :: (s.port ln.ep).tx) ∧
      ((respond ln a dup s).port ln.ep).tags = (s.port ln.ep).tags := by
  unfold respond
  split
  next hb => exact ⟨fun h => absurd hb (by rw [isSilent] at h; simp [h]), rfl⟩
  next hb =>
    have hsend : ((s.send ln.ep (.resp ln.addr a dup (s.respCrc ln))).port ln.ep).tx
          = TxItem.resp ln.addr a dup (s.respCrc ln) :: (s.port ln.ep).tx ∧
        ((s.send ln.ep (.resp ln.addr a dup (s.respCrc ln))).port ln.ep).tags = (s.port ln.ep).tags := by simp [State.send]
    generalize s.send ln.ep (.resp ln.addr a dup (s.respCrc ln)) = t at hsend ⊢
    obtain ⟨htx, htags⟩ := hsend
    dsimp only
    split
    · rw [mailRespond_port]; exact ⟨fun _ => ⟨[], _, htx⟩, htags⟩
    · exact ⟨fun _ => ⟨[], _, htx⟩, htags⟩
    · split
      · exact ⟨fun _ => ⟨[], _, htx⟩, htags⟩
      · obtain ⟨l, hl, _, hk⟩ := sendEvents_tx ln.ep t
        refine ⟨fun _ => ⟨.prompt :: l, s.respCrc ln, ?_⟩, ?_⟩
        · simp [State.send, hl, htx]
        · simp [State.send, hk, htags]

/-! ### A line whose suffix passes -/

/-- What the gate makes of a line that is taken. -/
def gateNext (ln : Line) (refusal : State → Option Code) (go : State → State) (o : Option TagEntry) (u : State) : State :=
  match o with
  | some x =>
    if x.fp = ln.fp then
      match x.resp with
      | some a => respond ln a true u
      | none => u
    else respond ln (.loc (.err .tagreuse)) false u
  | none =>
    match refusal u with
    | some c => answer ln (.err c) u
    | none => go u

section
variable {ln : Line} {f : Form} {s : State}

theorem gateLine_taken (hs : s.serves ln.ep = true) (hw : s.waiting ln.ep = false) (hx : suffixErr ln f.core s = none)
    (refusal : State → Option Code) (go : State → State) :
    gateLine ln f refusal go s = gateNext ln refusal go (findTag ln s) (accepted ln f s) := by
  have h1 : suffixErr ln f.core (taken ln s) = none := by
    rw [suffixErr_congr ln f.core (fun k _ => taken_reg ln s k) (Stays.taken noReg ln s).sup]
    exact hx
  have h2 : findTag ln (accepted ln f s) = findTag ln s := findTag_congr ln (accepted_tags ln f s ln.ep).1
  unfold gateLine
  rw [if_neg (by simp [hs, hw])]
  dsimp only
  rw [h1, ← h2]
  rfl

/-- What the checks of every form read, the taking of the line leaves. -/
theorem baseChecks_accepted (hw : Memory.wf s = true) : baseChecks ln f (accepted ln f s) = baseChecks ln f s := by
  have ha := Stays.accepted noReg ln f s
  have hl : (accepted ln f s).locked ln.ep = s.locked ln.ep := by
    rw [State.locked, State.locked, State.pwSet, State.pwSet, ha.pf, (ha.own ln.ep rfl).1]
  rw [baseChecks, baseChecks, ha.sup, hl, ha.replaying (Memory.wf_regs hw)]

/-- A response to a line that is taken. -/
theorem responded (ln' : Line) (hep : ln'.ep = ln.ep) (haddr : ln'.addr = ln.addr) (horig : ln'.origin = ln.origin) (a : Answer) (dup : Bool)
    {w : Nat → Prop} {u : State} (hu : Stays (some ln.ep) w s u)
    (hp : (u.port ln.ep).tags = (s.port ln.ep).tags ∧ (u.port ln.ep).tx = (s.port ln.ep).tx) :
    let t := (respond ln' a dup u).flush
    Stays (some ln.ep) w s t ∧ (t.port ln.ep).tags = (s.port ln.ep).tags ∧
      (isSilent ln = false → ∃ l c, (t.port ln.ep).tx = l ++ TxItem.resp ln.addr a dup c :: (s.port ln.ep).tx) := by
  have hr := respond_sends ln' a dup u
  rw [hep, haddr, isSilent, horig, hp.1, hp.2] at hr
  have hst : Stays (some ln'.ep) w s u := by rw [hep]; exact hu
  have hst' := hst.respond ln' a dup
  rw [hep] at hst'
  dsimp only
  rw [flush_port]
  exact ⟨hst'.flush, hr.2, hr.1⟩

theorem recLine_port (x : Ep) (b : Bool) (l : List Byte) (v : Nat) (s : State) (e : Ep) : (recLine x b l v s).port e = s.port e := by
  unfold recLine
  split
  · rfl
  · exact State.record_port ..

theorem countSuffix_port (ln : Line) (s : State) (e : Ep) : (countSuffix ln s).port e = s.port e := by
  unfold countSuffix
  split
  · cases e <;> rfl
  · rfl

/-- The part with a faulty line taken, its record written and its suffix counted. -/
def refusedTaken (ln : Line) (e : LineErr) (s : State) : State :=
  let t := recLine ln.ep false (takenBytes ln s) ((lineErrCode e).ctorIdx + 1) (taken ln s)
  if ln.ep = .mail then t else if e = .crc then crcFailed ln.ep t else if e = .syntx then countSuffix ln t else t

/-- The registers that a faulty line writes: the status of its port and the counters of its check-value unit. -/
def faultReg (e : Ep) (k : Nat) : Prop := e ≠ .mail ∧ (k = aPstat e ∨ k = 0x40044 ∨ k = 0x40048 ∨ k = 0x40054 ∨ k = 0x40058)

theorem faultReg_cvu {e : Ep} (he : e ≠ .mail) {o : Nat} (ho : o = 4 ∨ o = 8) : faultReg e (aCvu (if e = .cp1 then 5 else 4) o) := by
  refine ⟨he, ?_⟩
  unfold aCvu
  split <;> omega

theorem faultReg_ne_recStat {e : Ep} {k : Nat} (h : faultReg e k) : k ≠ aRecStat := by
  obtain ⟨_, hk⟩ := h
  unfold aPstat at hk
  unfold aRecStat
  split at hk <;> omega

theorem crcFailed_stays {e : Ep} {s u : State} (he : e ≠ .mail) (h : Stays (some e) (faultReg e) s u) :
    Stays (some e) (faultReg e) s (crcFailed e u) := by
  have h4 := faultReg_cvu he (.inl rfl)
  have h8 := faultReg_cvu he (.inr rfl)
  have hs : faultReg e (aPstat e) := ⟨he, .inl rfl⟩
  exact ((h.count _ (.inl h4) (.inl (faultReg_ne_recStat h4))).count _ (.inl h8) (.inl (faultReg_ne_recStat h8))).setFlag _ _ _
    (.inl hs) (.inl (.inl (faultReg_ne_recStat hs)))

theorem crcFailed_port (e : Ep) (s : State) (x : Ep) : (crcFailed e s).port x = s.port x := by
  rw [crcFailed, State.port_setFlag, State.port_count, State.port_count]

theorem refusedTaken_stays (ln : Line) (e : LineErr) (s : State) : Stays (some ln.ep) (faultReg ln.ep) s (refusedTaken ln e s) := by
  have h : Stays (some ln.ep) (faultReg ln.ep) s (recLine ln.ep false (takenBytes ln s) ((lineErrCode e).ctorIdx + 1) (taken ln s)) :=
    (Stays.taken _ ln s).recLine ..
  unfold refusedTaken
  dsimp only
  split
  next => exact h
  next he =>
    split
    · exact crcFailed_stays he h
    · split
      · exact h.countSuffix ln
      · exact h

theorem refusedTaken_port (ln : Line) (e : LineErr) (s : State) (x : Ep) :
    ((refusedTaken ln e s).port x).tags = (s.port x).tags ∧ ((refusedTaken ln e s).port x).tx = (s.port x).tx := by
  have hp : (refusedTaken ln e s).port x = (taken ln s).port x := by
    unfold refusedTaken
    dsimp only
    split
    · exact recLine_port ..
    · split
      · rw [crcFailed_port, recLine_port]
      · split
        · rw [countSuffix_port, recLine_port]
        · exact recLine_port ..
  rw [hp]
  exact taken_tags ln s x

end

end Sys2Proof.Machine

/-! ### RefusedLines -/

open Sys2Proof Sys2Proof.Machine

/-- Settles O14: a completed line spells its first fault, and a refused line sends its answer, makes an entry for VERB only, and changes no
register but the status and the counters of its port. -/
theorem refusedLines : Obligations.RefusedLines := by
  refine ⟨fun s e l r hsplit => ?spells, fun ln s hi hs hw => ⟨fun e he => ?refused, fun hx hf => ?verb, fun hx => ⟨fun c hf hc => ?checked,
    fun x r hf hfp hr => ?duplicate, fun x hf hfp => ?reused⟩⟩⟩
  case spells =>
    intro bad code
    have hspelt : s.spelt e = s.lineCommand e (s.port e).heads.head? l := by rw [State.spelt, hsplit]
    have hgood (h : ∀ b ∈ symBytes l, ¬ bad b) : hasBadByte (symBytes l) = false :=
      Bool.eq_false_iff.2 fun hb => by
        obtain ⟨b, hb, hbad⟩ := (hasBadByte_iff _).1 hb
        exact h b hb hbad
    unfold code
    rw [hspelt]
    exact ⟨fun h => lineCommand_char ((hasBadByte_iff _).2 h), fun h hn => lineCommand_toolong (hgood h) hn,
      fun h hn hl => lineCommand_overrun (hgood h) (by omega) hl, fun h hn hl =>
        lineCommand_empty (hgood fun b hb => printable_of_sep (h b hb)) (by omega) hl (lineTokens_of_seps h)⟩
  case refused =>
    have hrun : exec (.lineRefused ln e) s
        = done (respond { ln with crc := ln.crc || decide (e = .crc) } (.loc (.err (lineErrCode e))) false (refusedTaken ln e s)) :=
      congrArg done ((if_neg he).trans (if_neg (by simp [hs, hw])))
    obtain ⟨hst, htags, htx⟩ := responded { ln with crc := ln.crc || decide (e = .crc) } rfl rfl rfl (.loc (.err (lineErrCode e))) false
      (refusedTaken_stays ln e s) (refusedTaken_port ln e s ln.ep)
    exact ⟨_, hrun, htx, htags, hst⟩
  case verb =>
    have hrun : exec (.lineRefused ln .verb) s = done (gateLine ln { locked := false, core := true } (fun _ => some .verb) id s) := rfl
    rw [gateLine_taken hs hw hx, hf] at hrun
    have hst := Stays.accepted noReg ln { locked := false, core := true } s
    exact ⟨_, hrun, ((answered_answer ..).congr (accepted_tags ..).2).flush, (hst.answer ln _).flush⟩
  case checked =>
    have hrun : exec (.arm ln) s = done (runLine ln { locked := false } (fun _ => []) (okay armPart) s) := rfl
    rw [runLine, execLine, gateLine_taken hs hw hx, hf] at hrun
    have hst := Stays.accepted noReg ln { locked := false } s
    have hpick : pick (baseChecks ln { locked := false } (accepted ln { locked := false } s) ++ []) = some c := by
      rw [List.append_nil, baseChecks_accepted hi.1, hc]
    have hrun' : exec (.arm ln) s = done (answer ln (.err c) (accepted ln { locked := false } s)) := by
      rw [hrun, gateNext, hpick]
    exact ⟨_, hrun', ((answered_answer ..).congr (accepted_tags ..).2).flush, (hst.answer ln _).flush⟩
  case duplicate =>
    have hrun : exec (.arm ln) s = done (runLine ln { locked := false } (fun _ => []) (okay armPart) s) := rfl
    rw [runLine, execLine, gateLine_taken hs hw hx, hf, gateNext, if_pos hfp, hr] at hrun
    obtain ⟨hst, htags, htx⟩ := responded ln rfl rfl rfl r true (Stays.accepted noReg ln { locked := false } s) (accepted_tags ..)
    exact ⟨_, hrun, hst, htags, htx⟩
  case reused =>
    have hrun : exec (.arm ln) s = done (runLine ln { locked := false } (fun _ => []) (okay armPart) s) := rfl
    rw [runLine, execLine, gateLine_taken hs hw hx, hf, gateNext, if_neg hfp] at hrun
    obtain ⟨hst, htags, htx⟩ := responded ln rfl rfl rfl (.loc (.err .tagreuse)) false (Stays.accepted noReg ln { locked := false } s)
      (accepted_tags ..)
    exact ⟨_, hrun, hst, htags, htx⟩
end

section
/-!
PROOFS. Cocoon sleep (R373 to R377): what the stop of the links, the latches, and the bring-up of a group leave alone.
-/
namespace Sys2Proof.Machine

/-! ### A frame over groups and channels -/

/-- The registers of the controllers, the status of the groups, and the modes: no cause, no latch, no filter and no rotation writes them. -/
def quiet (k : Nat) : Prop := (0x50000 ≤ k ∧ k < 0x50200) ∨ (∃ g, k = aGstat g) ∨ modeReg k

/-- From s to t the registers of P, the implied state of the groups of Q and the timestamp stay, and the registers keep their canonical
form. -/
structure Calm (P Q : Nat → Prop) (s t : State) : Prop where
  reg   : ∀ k, P k → t.reg k = s.reg k
  gr    : ∀ g, Q g → t.gr g = s.gr g
  ts    : t.clk.ts = s.clk.ts
  canon : swf resetWord s.regs = true → swf resetWord t.regs = true

theorem not_quiet_chA (n : Nat) {o : Nat} (ho : o < 0x1000 ∧ o ≠ 0 ∧ o ≠ 0x140) : ¬ quiet (chA n o) := by
  rintro (⟨_, h⟩ | ⟨g, h⟩ | h)
  · have := chA_ge n o; omega
  · unfold chA aGstat grA at h; omega
  · exact not_modeReg_chA n ho h

theorem not_quiet_grA (g : Nat) {o : Nat} (h0 : 0 < o) (ho : o < 0x1000) : ¬ quiet (grA g o) := by
  rintro (⟨_, h⟩ | ⟨m, h⟩ | ⟨m, _, h | h⟩)
  · have := grA_ge g o; omega
  all_goals unfold grA at h
  · unfold aGstat grA at h; omega
  all_goals unfold chA at h; omega

theorem not_quiet_skA (k : Nat) : ¬ quiet (skA k 0x14) := by
  rintro (⟨_, h⟩ | ⟨g, h⟩ | ⟨m, _, h | h⟩)
  · unfold skA at h; omega
  · unfold skA aGstat grA at h; omega
  all_goals unfold skA chA at h; omega

theorem not_quiet_low {k : Nat} (h : k < 0x50000) : ¬ quiet k := by
  rintro (⟨h', _⟩ | ⟨g, h'⟩ | hm)
  · omega
  · have := grA_ge g 0; unfold aGstat at h'; omega
  · exact not_modeReg_low (by omega) hm

theorem not_quiet_gate {n k : Nat} (hn : n < 128) (h : gateReg n k) : ¬ quiet k := by
  obtain rfl | rfl := h
  · exact not_quiet_chA n (by omega)
  · exact not_quiet_low (by unfold aSafeCh; omega)

theorem not_quiet_safe {l : List Nat} (hl : ∀ n ∈ l, n < 128) {k : Nat} (h : safeReg l k) : ¬ quiet k := by
  obtain ⟨n, hn, rfl | rfl | rfl⟩ := h
  · have := hl n hn; exact not_quiet_low (by unfold aChst; omega)
  · exact not_quiet_chA n (by omega)
  · have := hl n hn; exact not_quiet_low (by unfold aSafeCh; omega)

theorem grpChan_lt {g n : Nat} (hg : g < 8) (h : n ∈ grpChans g) : n < 128 := by
  have := mem_grpChans.1 h
  omega

theorem actTarget_lt (a : Word) : actTarget a < 128 := by
  unfold actTarget bits
  omega

namespace Calm
variable {P Q : Nat → Prop} {s t u : State}

theorem refl (s : State) : Calm P Q s s := ⟨fun _ _ => rfl, fun _ _ => rfl, rfl, id⟩
theorem trans (h : Calm P Q s t) (g : Calm P Q t u) : Calm P Q s u :=
  ⟨fun k hk => (g.reg k hk).trans (h.reg k hk), fun k hk => (g.gr k hk).trans (h.gr k hk), g.ts.trans h.ts, g.canon ∘ h.canon⟩

theorem ite {a b : State} {c : Prop} [Decidable c] (ha : Calm P Q s a) (hb : Calm P Q s b) : Calm P Q s (if c then a else b) := by
  split
  · exact ha
  · exact hb

theorem foldl {β : Type _} {f : State → β → State} (l : List β) (h : Calm P Q s t) (hf : ∀ x ∈ l, ∀ u, Calm P Q u (f u x)) :
    Calm P Q s (l.foldl f t) := by
  induction l generalizing t with
  | nil => exact h
  | cons x l ih => exact ih (h.trans (hf x List.mem_cons_self t)) fun y hy => hf y (List.mem_cons_of_mem x hy)

theorem forAll {f : Nat → State → State} (l : List Nat) (h : Calm P Q s t) (hf : ∀ n ∈ l, ∀ u, Calm P Q u (f n u)) :
    Calm P Q s (forAll l f t) := h.foldl l fun n hn u => hf n hn u

theorem setReg (h : Calm P Q s t) {k : Nat} (v : Word) (hk : ¬ P k) : Calm P Q s (t.setReg k v) :=
  h.trans ⟨fun j hj => State.reg_setReg_other t k j v (by rintro rfl; exact hk hj), fun _ _ => rfl, rfl, State.swf_setReg t k v⟩

theorem setFld (h : Calm P Q s t) {k : Nat} (lo w v : Nat) (hk : ¬ P k) : Calm P Q s (t.setFld k lo w v) := h.setReg _ hk
theorem setFlag (h : Calm P Q s t) {k : Nat} (i : Nat) (b : Bool) (hk : ¬ P k) : Calm P Q s (t.setFlag k i b) := h.setReg _ hk
theorem setCh (h : Calm P Q s t) (n : Nat) (a : ChanAux) : Calm P Q s (t.setCh n a) := h.trans ⟨fun _ _ => rfl, fun _ _ => rfl, rfl, id⟩
theorem setRg (h : Calm P Q s t) (c : Nat) (a : RingAux) : Calm P Q s (t.setRg c a) := h.trans ⟨fun _ _ => rfl, fun _ _ => rfl, rfl, id⟩
theorem emit (h : Calm P Q s t) (c : Ev) (o : Obj) (d : List Fld) : Calm P Q s (t.emit c o d) :=
  h.trans ⟨fun _ _ => rfl, fun _ _ => rfl, rfl, id⟩

theorem setGr (h : Calm P Q s t) {g : Nat} (a : GrpAux) (hg : ¬ Q g) : Calm P Q s (t.setGr g a) :=
  h.trans ⟨fun _ _ => rfl, fun j hj => State.gr_setGr_other t g j a (by rintro rfl; exact hg hj), rfl, id⟩

theorem of_moves {K C : Nat → Prop} (h : Calm P Q s t) (g : Moves K C t u) (hK : ∀ k, K k → ¬ P k) : Calm P Q s u :=
  h.trans ⟨fun k hk => g.reg k fun hc => hK k hc hk, fun j _ => by rw [State.gr, State.gr, g.grp], congrArg Clk.ts g.rest.clk, g.canon⟩

theorem withGates (hP : ∀ k, P k → quiet k) {f : State → State} {l : List Nat} (hl : ∀ n ∈ l, n < 128)
    (hf : Calm P Q s (f t)) : Calm P Q s (withGates l f t) :=
  hf.of_moves (moves_gates (K := fun k => ∃ n, n < 128 ∧ gateReg n k) (C := fun _ => True) f l t (fun n hn _ hk => ⟨n, hl n hn, hk⟩)
    fun _ _ => trivial) fun k ⟨_, hn, hk⟩ hp => not_quiet_gate hn hk (hP k hp)

section
variable (hP : ∀ k, P k → quiet k) (h : Calm P Q s t)
include hP h

theorem chan {n o : Nat} (ho : o < 0x1000 ∧ o ≠ 0 ∧ o ≠ 0x140) (v : Word) : Calm P Q s (t.setReg (chA n o) v) :=
  h.setReg v fun hk => not_quiet_chA n ho (hP _ hk)

theorem record (kind src flag : Nat) (p : List Word) : Calm P Q s (t.record kind src flag p) := by
  have hr := (Stays.refl none noReg t).record kind src flag p
  refine h.trans ⟨fun k hk => hr.reg k id fun hio => ?_, fun g _ => by rw [State.gr, State.gr, hr.grp], congrArg Clk.ts hr.clk, hr.canon⟩
  obtain ⟨h1, h2⟩ | ⟨g, rfl⟩ | hm := hP k hk
  · unfold ioKey at hio; simp at hio; omega
  · have := grA_ge g 0; unfold ioKey aGstat at hio; simp at hio; omega
  · exact not_modeReg_low (by unfold ioKey at hio; simp at hio; omega) hm

theorem endHold {n : Nat} (hn : n < 128) : Calm P Q s (endHold n t) := .withGates hP (by simpa using hn) (h.setCh n _)

theorem setStale (l : List Nat) : Calm P Q s (setStale l t) := h.forAll l fun n _ u =>
  have hu := (refl u).chan hP (n := n) (o := 0x84) (by omega) (setBit (u.reg (chA n 0x84)) 16 true)
  .ite (hu.setFlag 19 true fun hk => not_quiet_chA n (by omega) (hP _ hk)) hu

theorem revokeFire (n : Nat) : Calm P Q s (revokeFire n t) := by
  unfold Machine.revokeFire
  split
  · exact h
  · refine .foldl _ ((h.setCh ..).setReg _ fun hk => not_quiet_chA n (by omega) (hP _ hk)) fun x _ u => ?_
    extract_lets v w
    have hv : Calm P Q u v := ((refl u).setReg _ fun hk => not_quiet_skA _ (hP _ hk)).record hP ..
    have hw : Calm P Q u w := .ite (hv.emit ..) hv
    split
    · exact .ite (hw.endHold hP (actTarget_lt _)) hw
    · exact hw

theorem skipLost {g : Nat} (hg : g < 8) : Calm P Q s (skipLost g t) :=
  (h.forAll _ fun n _ u => (refl u).revokeFire hP n).forAll _ fun _ hn u => (refl u).endHold hP (grpChan_lt hg hn)

theorem rotLost {g : Nat} (hg : ¬ Q g) : Calm P Q s (rotLost g t) :=
  .ite ((h.setFld _ _ _ fun hk => not_quiet_grA g (by omega) (by omega) (hP _ hk)).setGr _ hg) h

theorem groupLost {g : Nat} (hg : g < 8) (hq : ¬ Q g) : Calm P Q s (groupLost g t) := ((h.skipLost hP hg).setStale hP _).rotLost hP hq

theorem latchAlone {g : Nat} (hg : g < 8) (hq : ¬ Q g) (hs : ¬ P (aGstat g)) : Calm P Q s (latchAlone g t) :=
  .ite h (.withGates hP (fun _ => grpChan_lt hg)
    (((h.forAll _ fun n _ u => (refl u).setCh n _).setGr _ hq).setFlag _ _ hs))

/-! ### The bring-up of a group -/

theorem stat (n i : Nat) (b : Bool) : Calm P Q s (t.setFlag (aStat n) i b) := h.chan hP (by omega) _

theorem slotValid (n : Nat) : Calm P Q s (slotValid n t) :=
  (((h.setCh ..).chan hP (by omega) _).chan hP (by omega) _).stat hP ..

theorem filterStart (n : Nat) : Calm P Q s (filterStart n t) := (h.setCh ..).setStale hP _

theorem startFilter (n : Nat) (raw : Bool) : Calm P Q s (startFilter n raw t) :=
  (((h.setCh ..).setCh ..).chan hP (by omega) _).slotValid hP n

theorem loadCount (n : Nat) : Calm P Q s (loadCount n t) := by
  have hp : Calm P Q s (t.setPair (chA n 0x48) ((if t.flag (chA n 0x5C) 31 && !t.fenced .pflash then
      ((sget {} t.pf.index n).value).map (·.2) else none).getD 0)) :=
    (h.chan hP (by omega) _).chan hP (o := 0x4C) (by omega) _
  exact (((hp.stat hP ..).setCh ..).setCh ..)

theorem enterSafe {n : Nat} (hn : n < 128) : Calm P Q s (enterSafe n t) :=
  h.of_moves (moves_enterSafe_own n t) fun _ hk hp => not_quiet_safe (l := [n]) (by simpa using hn)
    ⟨n, List.mem_singleton.2 rfl, hk.imp id .inl⟩ (hP _ hp)

theorem leaveSafe {n : Nat} (hn : n < 128) : Calm P Q s (leaveSafe n t) :=
  h.of_moves (moves_leaveSafe (K := safeReg [n]) (C := (· = n)) n t ⟨⟨n, by simp, .inl rfl⟩, ⟨n, by simp, .inr (.inl rfl)⟩⟩ rfl)
    fun _ hk hp => not_quiet_safe (by simpa using hn) hk (hP _ hp)

theorem holdCh (b : Nat) {n : Nat} (hn : n < 128) : Calm P Q s (holdCh b n t) :=
  h.of_moves (moves_holdCh b n t) fun _ hk hp => not_quiet_safe (by simpa using hn) hk (hP _ hp)

theorem refreshFault {n : Nat} (hn : n < 128) : Calm P Q s (refreshFault n t) :=
  h.of_moves (moves_refreshFault n t) fun _ hk hp => not_quiet_safe (by simpa using hn) hk (hP _ hp)

theorem dropCh (b : Nat) {n : Nat} (hn : n < 128) : Calm P Q s (dropCh b n t) :=
  h.of_moves (moves_dropCause ..) fun _ hk hp => by
    obtain rfl | hk := hk
    · exact not_quiet_low (by unfold aSafeCh; omega) (hP _ hp)
    · exact not_quiet_safe (by simpa using hn) hk (hP _ hp)

theorem holdGrp (b : Nat) {g : Nat} (hg : g < 8) : Calm P Q s (holdGrp b g t) :=
  h.of_moves (moves_holdCause ..) fun _ hk hp => by
    obtain rfl | hk := hk
    · exact not_quiet_low (by unfold aSafeGrp; omega) (hP _ hp)
    · exact not_quiet_safe (fun _ => grpChan_lt hg) hk (hP _ hp)

theorem clearGrp (b : Nat) (o : Obj) {g : Nat} (hg : g < 8) : Calm P Q s (clearCause (aSafeGrp g) b o t) :=
  h.of_moves (moves_clearCause (K := (· = aSafeGrp g)) (C := noReg) t _ b o rfl) fun _ hk hp =>
    not_quiet_low (by rw [hk]; unfold aSafeGrp; omega) (hP _ hp)

theorem holdFence {l : List Nat} (hl : ∀ n ∈ l, n < 128) : Calm P Q s (holdFence l t) :=
  h.forAll l fun n hn u => .ite ((refl u).holdCh hP 13 (hl n hn)) (.refl u)

theorem judgeFence {n : Nat} (hn : n < 128) : Calm P Q s (judgeFence n t) := .ite (h.holdCh hP 13 hn) (h.dropCh hP 13 hn)

theorem expireHold {n : Nat} (hn : n < 128) : Calm P Q s (expireHold n t) :=
  .emit (.withGates hP (by simpa using hn) (h.setFld _ _ _ fun hk => not_quiet_low (by unfold aChst; omega) (hP _ hk))) ..

theorem takeHold {n : Nat} (hn : n < 128) (e : Nat) : Calm P Q s (takeHold n e t) := by
  unfold Machine.takeHold
  split
  · split
    · exact .ite ((h.setCh ..).expireHold hP hn) (h.setCh ..)
    · exact h.expireHold hP hn
  · exact h

theorem refreshTarget (n : Nat) : Calm P Q s (refreshTarget n t) := by
  unfold Machine.refreshTarget
  extract_lets w
  split
  next hw => exact h.refreshFault hP (by have := channels_le t.member; omega)
  next => exact h

theorem rotMode (n : Nat) : Calm P Q s (rotMode n t) :=
  .ite (h.setFld _ _ _ fun hk => not_quiet_grA _ (by omega) (by omega) (hP _ hk)) h

theorem rotBringUp {g : Nat} (hq : ¬ Q g) : Calm P Q s (rotBringUp g t) :=
  .ite ((h.setGr _ hq).setFld _ _ _ fun hk => not_quiet_grA _ (by omega) (by omega) (hP _ hk)) h

omit hP in
theorem loadLatch (g : Nat) : Calm P Q s (loadLatch g t) := .ite (h.forAll _ fun n _ u => (refl u).setCh n _) h

theorem safeChanged {n : Nat} (hn : n < 128) (old : Nat) (v : BitVec 16) : Calm P Q s (safeChanged n old v t) := by
  have hl := h.loadLatch (n / 16)
  exact .ite hl (.ite (.ite (hl.expireHold hP hn) hl) (.ite (hl.setCh ..) (hl.setCh ..)))

theorem checkKind {n : Nat} (hn : n < 128) : Calm P Q s (checkKind n t) := by
  refine .ite (.withGates hP (by simpa using hn) (.safeChanged hP ?_ hn ..)) h
  exact ((h.chan hP (by omega) _).stat hP ..)

theorem latchIdle {g : Nat} (hg : g < 8) (hq : ¬ Q g) (hs : ¬ P (aGstat g)) : Calm P Q s (latchIdle g t) :=
  .withGates hP (fun _ => grpChan_lt hg) ((h.setGr _ hq).setFlag _ _ hs)

theorem reapply (n : Nat) (raw : Bool) : Calm P Q s (reapply n raw t) := by
  unfold Machine.reapply
  extract_lets m t1 t2 a t3 t4 b
  have h1 : Calm P Q s t1 := .ite h (h.slotValid hP n)
  have h2 : Calm P Q s t2 := .ite (h1.startFilter hP n raw) h1
  have h3 : Calm P Q s t3 := .ite ((h2.stat hP ..).setCh ..) h2
  have h4 : Calm P Q s t4 := .ite (h3.filterStart hP n) h3
  exact .ite ((h4.setCh ..).setCh ..) h4

theorem modeOn {n : Nat} (hn : n < 128) (raw : Bool) : Calm P Q s (modeOn n raw t) := by
  unfold Machine.modeOn
  extract_lets m t1 t2 a t3 t4 t5 t6
  have h1 : Calm P Q s t1 := .ite (h.startFilter hP n raw) h
  have h2 : Calm P Q s t2 := .ite (h1.loadCount hP n) h1
  have h3 : Calm P Q s t3 := .ite ((h2.setCh ..).setCh ..) h2
  have h4 : Calm P Q s t4 := .ite (h3.filterStart hP n) h3
  have h5 : Calm P Q s t5 := .ite (h4.slotValid hP n) h4
  have h6 : Calm P Q s t6 := .withGates hP (by simpa using hn) (h5.setCh ..)
  exact h6.holdFence hP (by simpa using hn)

theorem modeOff {n : Nat} (hn : n < 128) : Calm P Q s (modeOff n t) := by
  unfold Machine.modeOff
  extract_lets g t1 t2 t3 t4 t5 t6 t7 t8 t9 t10 a t11 t12
  have h1 : Calm P Q s t1 := (h.revokeFire hP n).endHold hP hn
  have h2 : Calm P Q s t2 := .withGates hP (by simpa using hn) (h1.setCh ..)
  have h3 : Calm P Q s t3 := h2.chan hP (by omega) _
  have h4 : Calm P Q s t4 := h3.chan hP (by omega) _
  have h5 : Calm P Q s t5 :=
    (((h4.chan hP (by omega) _).chan hP (by omega) _).chan hP (by omega) _).chan hP (by omega) _
  have h6 : Calm P Q s t6 := (h5.chan hP (by omega) _).refreshTarget hP n
  have h7 : Calm P Q s t7 := h6.rotMode hP n
  have h8 : Calm P Q s t8 := (h7.dropCh hP 12 hn).dropCh hP 14 hn
  have h9 : Calm P Q s t9 := .ite (h8.judgeFence hP hn) (h8.dropCh hP 13 hn)
  have h10 : Calm P Q s t10 := h9.checkKind hP hn
  have h11 : Calm P Q s t11 := h10.setCh ..
  have h12 : Calm P Q s t12 := (h11.leaveSafe hP hn).enterSafe hP hn
  exact h12.loadLatch g

/-- What a fenced unit of a group stops. -/
theorem stopsGrp {g : Nat} (hg : g < 8) (hq : ¬ Q g) (hs : ¬ P (aGstat g)) (k : GUn) : Calm P Q s (fenceStops (.grp g k) t) := by
  have ha {v : State} (hv : Calm P Q s v) (o : Nat) (ho : 0 < o ∧ o < 0x1000) (x : Word) : Calm P Q s (v.setReg (grA g o) x) :=
    hv.setReg x fun hk => not_quiet_grA g ho.1 ho.2 (hP _ hk)
  cases k with
  | sar => exact (ha (ha h _ (by omega) _) _ (by omega) _).setFlag _ _ hs
  | temp => exact (ha h _ (by omega) _).setFlag _ _ hs
  | link => exact (((h.latchAlone hP hg hq hs).setFlag _ _ hs).skipLost hP hg).setStale hP _
  | di => exact (h.forAll _ fun n _ v => (refl v).revokeFire hP n).setStale hP _
  | _ => exact h

theorem fenceGrp {g : Nat} (hg : g < 8) (hq : ¬ Q g) (hs : ¬ P (aGstat g)) (k : GUn) : Calm P Q s (fenceUnit false (.grp g k) t) := by
  have he : fenceUnit false (.grp g k) t = if t.fenced (.grp g k) || !t.hasUnit (.grp g k) then t else
      Machine.loadLatch g (Machine.holdFence (grpChans g) (Machine.fenceStops (.grp g k) (Machine.withGates (grpChans g)
        (fun t => t.setFlag (0x40 + 4 * g) k.bit true) (t.record 0x07 (Un.grp g k).fenceSrc 0 [])))) := rfl
  rw [he]
  have hbit : Calm P Q s (Machine.withGates (grpChans g) (fun t => t.setFlag (0x40 + 4 * g) k.bit true)
      (t.record 0x07 (Un.grp g k).fenceSrc 0 [])) :=
    .withGates hP (fun _ => grpChan_lt hg) ((h.record hP ..).setFlag _ _ fun hk => not_quiet_low (by omega) (hP _ hk))
  exact .ite h (((hbit.stopsGrp hP hg hq hs k).holdFence hP fun _ => grpChan_lt hg).loadLatch g)

theorem bringUp (kind : Nat) {g : Nat} (hg : g < 8) (hq : ¬ Q g) (hs : ¬ P (aGstat g)) (r : BringUp) : Calm P Q s (bringUp kind g r t) := by
  have hl {n : Nat} : n ∈ grpChans g → n < 128 := grpChan_lt hg
  unfold Machine.bringUp
  extract_lets t1 a1 t2 t3 t4 t5 t6 t7 a7
  have h1 : Calm P Q s t1 := h.foldl _ fun k _ u => (refl u).fenceGrp hP hg hq hs k
  have h2 : Calm P Q s t2 := h1.setGr _ hq
  have h3 : Calm P Q s t3 := (h2.setFlag _ _ hs).clearGrp hP 6 _ hg
  have h4 : Calm P Q s t4 := h3.forAll _ fun n hn u => (refl u).enterSafe hP (hl hn)
  have h5 : Calm P Q s t5 := .ite (h4.forAll _ fun n hn u => .ite ((refl u).expireHold hP (hl hn)) (refl u))
    (.ite (h4.forAll _ fun n hn u => (refl u).takeHold hP (hl hn) _) h4)
  have h6 : Calm P Q s t6 := (h5.loadLatch g).latchIdle hP hg hq hs
  have h7 : Calm P Q s t7 := h6.forAll _ fun n hn u =>
    .ite ((refl u).reapply hP n _) (((refl u).modeOff hP (hl hn)).modeOn hP (hl hn) _)
  exact .ite (h1.setGr _ hq) (.ite h6 ((h7.setGr _ hq).rotBringUp hP hq))

theorem groupUnpowered {g : Nat} (hg : g < 8) (hq : ¬ Q g) (hs : ¬ P (aGstat g)) : Calm P Q s (groupUnpowered g t) := by
  have h1 : Calm P Q s (supplyLost g t) := .withGates hP (fun _ => grpChan_lt hg) (h.setGr _ hq)
  exact (((((h1.setFlag _ _ hs).setFlag _ _ hs).emit ..).holdGrp hP 7 hg).groupLost hP hg hq).setGr _ hq

end
end Calm

end Sys2Proof.Machine
end

section
/-!
PROOFS. Cocoon sleep (R373 to R377): the entry round, the wake with its time, a missed mark and the line.
-/
namespace Sys2Proof.Machine

/-! ### A controller changes its state -/

/-- A controller that runs drops its slots when it leaves RUN; its registers are those of the part with the state written. -/
theorem ringTo_regs (c st : Nat) (s : State) : (ringTo c st s).regs = (s.setFld (rgA c 0) 0 4 st).regs := by
  unfold ringTo
  dsimp only
  split <;> rfl

theorem ringTo_clk (c st : Nat) (s : State) : (ringTo c st s).clk = s.clk := by
  unfold ringTo
  dsimp only
  split <;> rfl

theorem ringTo_reg_other {c st k : Nat} (hk : k ≠ rgA c 0) (s : State) : (ringTo c st s).reg k = s.reg k :=
  (reg_of_regs (ringTo_regs c st s) k).trans (State.reg_setFld_other s _ _ _ _ _ hk)

theorem ringTo_canon (c st : Nat) {s : State} (hw : swf resetWord s.regs = true) : swf resetWord (ringTo c st s).regs = true := by
  rw [ringTo_regs]; exact State.swf_setReg s _ _ hw

theorem ringTo_ringSt (c : Nat) {st : Nat} (hst : st < 16) {s : State} (hw : swf resetWord s.regs = true) : (ringTo c st s).ringSt c = st := by
  rw [State.ringSt, State.fld_of_reg (reg_of_regs (ringTo_regs c st s) _), State.fld_setFld_same _ _ _ _ _ hw (by omega)]
  exact Nat.mod_eq_of_lt hst

/-! ### The entry round -/

/-- The link of a group stops: its latch acts, and what crosses the link is lost. -/
def linkStopped (g : Nat) (s : State) : State := groupLost g ((latchAlone g s).setFlag (aGstat g) 1 false)

theorem calm_linkStopped {P Q : Nat → Prop} (hP : ∀ k, P k → quiet k) {g : Nat} (hg : g < 8) (hq : ¬ Q g) (hs : ¬ P (aGstat g)) (s : State) :
    Calm P Q s (linkStopped g s) := (((Calm.refl s).latchAlone hP hg hq hs).setFlag _ _ hs).groupLost hP hg hq

/-- The registers of the status of one group. -/
theorem quiet_gstat (g : Nat) : ∀ k, k = aGstat g → quiet k := fun _ hk => .inr (.inl ⟨g, hk⟩)

theorem aGstat_inj {g h : Nat} (e : aGstat g = aGstat h) : g = h := by unfold aGstat grA at e; omega

/-- The channels of a group with what their latches hold, when the latch begins to act alone. -/
def latchesHold (g : Nat) (s t : State) : State :=
  forAll (grpChans g) (fun n u =>
    let a := u.ch n
    let v := if bits a.latch.safe 0 2 = 3 ∧ isOut (s.feMode n) = true ∧ s.chst n ≠ 2 then some (s.drive n).2 else none
    u.setCh n { a with latch := { a.latch with held := v } }) t

/-- The latch of a group that begins to act alone. -/
def latchActs (g : Nat) (s t : State) : State :=
  let u := latchesHold g s t
  (u.setGr g { u.gr g with acts := true }).setFlag (aGstat g) 2 true

theorem latchAlone_acts {g : Nat} (hg : g < 8) {s : State} (hw : swf resetWord s.regs = true) (hv : (s.gr g).vf = true)
    (ha : (s.gr g).acts = false) : (latchAlone g s).flag (aGstat g) 2 = true := by
  have he : latchAlone g s = withGates (grpChans g) (latchActs g s) s := if_neg (by simp [hv, ha])
  have hgates : Calm (· = aGstat g) noReg (latchActs g s s) (withGates (grpChans g) (latchActs g s) s) :=
    .withGates (quiet_gstat g) (fun _ => grpChan_lt hg) (.refl _)
  have hhold : Calm noReg noReg s (latchesHold g s s) := (Calm.refl s).forAll _ fun n _ u => (Calm.refl u).setCh n _
  have hcanon := hhold.canon hw
  rw [he, State.flag_of_reg (hgates.reg _ rfl), latchActs]
  generalize latchesHold g s s = u at hcanon ⊢
  exact State.flag_setFlag_same _ _ _ _ (by rw [State.setGr_regs]; exact hcanon) (by omega)

/-- What the stop of a link leaves of its group: the link down, and the latch acting where the supply stands. -/
theorem linkStopped_sets {g : Nat} (hg : g < 8) {s : State} (hw : swf resetWord s.regs = true) :
    (linkStopped g s).linkUp g = false ∧ ((s.gr g).vf = true → (s.gr g).acts = false → (linkStopped g s).flag (aGstat g) 2 = true) := by
  have hlost := ((Calm.refl ((latchAlone g s).setFlag (aGstat g) 1 false)).groupLost (P := (· = aGstat g)) (Q := noReg)
    (quiet_gstat g) hg id).reg _ rfl
  have hcanon : swf resetWord (latchAlone g s).regs = true :=
    ((Calm.refl s).latchAlone (P := noReg) (Q := noReg) (fun _ => False.elim) hg id id).canon hw
  refine ⟨(State.flag_of_reg hlost 1).trans (State.flag_setFlag_same _ _ _ _ hcanon (by omega)), fun hv ha => ?_⟩
  exact (State.flag_of_reg hlost 2).trans ((State.flag_setFlag_beside _ _ _ _ _ hcanon (by omega)).trans (latchAlone_acts hg hw hv ha))

/-- Each group of a list of different groups is left as the stop of its own link leaves it. -/
theorem linksStopped_sets {l : List Nat} (hl : l.Nodup) (h8 : ∀ g ∈ l, g < 8) {g : Nat} (hg : g ∈ l) {s : State}
    (hw : swf resetWord s.regs = true) : (forAll l linkStopped s).linkUp g = false ∧
      ((s.gr g).vf = true → (s.gr g).acts = false → (forAll l linkStopped s).flag (aGstat g) 2 = true) := by
  obtain ⟨l1, l2, rfl⟩ := List.append_of_mem hg
  have hother (m : Nat) (hm : m ∈ l1 ∨ m ∈ l2) : m ≠ g := by
    rintro rfl
    have := List.nodup_middle.1 hl
    exact (List.nodup_cons.1 this).1 (List.mem_append.2 hm)
  have hcalm (l : List Nat) (hm : ∀ m ∈ l, m ≠ g ∧ m < 8) (u : State) : Calm (· = aGstat g) (· = g) u (forAll l linkStopped u) :=
    (Calm.refl u).forAll l fun m hmem v => calm_linkStopped (quiet_gstat g) (hm m hmem).2 (hm m hmem).1
      (fun e => (hm m hmem).1 (aGstat_inj e)) v
  have h1 := hcalm l1 (fun m hm => ⟨hother m (.inl hm), h8 m (by simp [hm])⟩) s
  have h2 := hcalm l2 (fun m hm => ⟨hother m (.inr hm), h8 m (by simp [hm])⟩) (linkStopped g (forAll l1 linkStopped s))
  have he : forAll (l1 ++ g :: l2) linkStopped s = forAll l2 linkStopped (linkStopped g (forAll l1 linkStopped s)) := by
    unfold forAll; rw [List.foldl_append]; rfl
  obtain ⟨hup, hacts⟩ := linkStopped_sets (h8 g hg) (h1.canon hw)
  rw [h1.gr g rfl] at hacts
  rw [he]
  exact ⟨(State.flag_of_reg (h2.reg _ rfl) 1).trans hup, fun hv ha => (State.flag_of_reg (h2.reg _ rfl) 2).trans (hacts hv ha)⟩

/-- The part as a controller falls asleep: the links of the powered groups stopped, and the sleep begun. -/
def asleepNow (c m : Nat) (s : State) : State :=
  let t := s.record 0x2C 0 0 [word c, word m]
  let t := forAll (t.groups.filter t.powered) linkStopped t
  ringTo c 6 { t with clk := { t.clk with sleep := 0 } }

theorem lt_of_mem_groups {f : Nat → Bool} {g : Nat} {s : State} (h : g ∈ s.groups.filter f) : g < 8 := by
  have := List.mem_range.1 (List.mem_filter.1 h).1
  have := groups_le s.member
  omega

/-- Nothing that the stop of the links does is noticed by the registers of a controller and those of the other groups. -/
theorem calm_linksStopped {l : List Nat} (h8 : ∀ g ∈ l, g < 8) (s : State) :
    Calm noReg noReg s (forAll l linkStopped s) :=
  (Calm.refl s).forAll l fun g hg u => calm_linkStopped (fun _ => False.elim) (h8 g hg) id id u

theorem asleepNow_ringSt (c m : Nat) {s : State} (hw : swf resetWord s.regs = true) : (asleepNow c m s).ringSt c = 6 := by
  have hrec := (Stays.refl none noReg s).record 0x2C 0 0 [word c, word m]
  unfold asleepNow
  dsimp only
  generalize s.record 0x2C 0 0 [word c, word m] = r at hrec ⊢
  have hcanon := (calm_linksStopped (l := r.groups.filter r.powered) (fun _ => lt_of_mem_groups) r).canon (hrec.canon hw)
  exact ringTo_ringSt c (by omega) hcanon

theorem asleepNow_stops {c : Nat} (hc : c < 2) (m : Nat) {s : State} (hw : swf resetWord s.regs = true) {g : Nat} (hg : g < s.member.groups)
    (hp : s.powered g = true) : (asleepNow c m s).linkUp g = false ∧
      ((s.gr g).vf = true → (s.gr g).acts = false → (asleepNow c m s).flag (aGstat g) 2 = true) := by
  have hrec := (Stays.refl none noReg s).record 0x2C 0 0 [word c, word m]
  unfold asleepNow
  dsimp only
  generalize s.record 0x2C 0 0 [word c, word m] = r at hrec ⊢
  have hmem : g ∈ r.groups.filter r.powered :=
    List.mem_filter.2 ⟨List.mem_range.2 (by rw [hrec.member]; exact hg), (hrec.powered g).trans hp⟩
  have hsets := linksStopped_sets (l := r.groups.filter r.powered) (List.nodup_range.filter _) (fun _ => lt_of_mem_groups) hmem (hrec.canon hw)
  rw [hrec.gr] at hsets
  generalize forAll (r.groups.filter r.powered) linkStopped r = v at hsets ⊢
  have hreg : (ringTo c 6 { v with clk := { v.clk with sleep := 0 } }).reg (aGstat g) = v.reg (aGstat g) :=
    ringTo_reg_other (by have := grA_ge g 0; unfold aGstat rgA; omega) _
  exact ⟨(State.flag_of_reg hreg 1).trans hsets.1, fun hv ha => (State.flag_of_reg hreg 2).trans (hsets.2 hv ha)⟩

/-! ### The wake -/

/-- The part as the sleep timer wakes it: the time slept added, the controller in LISTEN with its wake round, and the wake counted. -/
def wakened (c e : Nat) (s : State) : State :=
  let adv := roundDiv ((e * 400 : Nat) * (100000000 + s.sleepTrim)) 100000000
  let t := s.record 0x0A c 0 (halves (BitVec.ofNat 64 e))
  let t := { t with clk := { t.clk with ts := t.clk.ts + BitVec.ofInt 64 adv, sleep := BitVec.ofNat 40 e } }
  let t := ringTo c 1 t
  let a := t.rg c
  let t := t.setRg c { a with
    wake := a.sleep.map fun x => (x.1 + word x.2, x.2, e), cands := 0, fromSt := 1, bkWait := false, begun := false }
  let t := t.setFld (rgA c 0x50) 16 16 (t.fld (rgA c 0x50) 16 16 + 1)
  t.emit .ringWake (.unit (ringUn c)) []

/-- What a group meets at the wake: its bring-up, or the loss of its supply. -/
def wakeGroup (r : List (Nat × BringUp)) (g : Nat) (u : State) : State :=
  if (u.gr g).vf then bringUp 2 g (((r.find? fun x => decide (x.1 = g)).map (·.2)).getD {}) u else groupUnpowered g u

theorem calm_wakeGroup {g : Nat} (hg : g < 8) (r : List (Nat × BringUp)) (u : State) :
    Calm (fun k => 0x50000 ≤ k ∧ k < 0x50200) noReg u (wakeGroup r g u) := by
  have hP (k : Nat) (hk : 0x50000 ≤ k ∧ k < 0x50200) : quiet k := .inl hk
  have hs : ¬ (0x50000 ≤ aGstat g ∧ aGstat g < 0x50200) := fun h => by
    have := grA_ge g 0; unfold aGstat at h; omega
  exact .ite ((Calm.refl u).bringUp hP 2 hg id hs _) ((Calm.refl u).groupUnpowered hP hg id hs)

theorem wakened_facts {c : Nat} (hc : c < 2) (e : Nat) {s : State} (hw : swf resetWord s.regs = true) :
    (wakened c e s).ringSt c = 1 ∧
      (wakened c e s).clk.ts = s.clk.ts + BitVec.ofInt 64 (roundDiv ((e * 400 : Nat) * (100000000 + s.sleepTrim)) 100000000) ∧
      (wakened c e s).fld (rgA c 0x50) 16 16 = (s.fld (rgA c 0x50) 16 16 + 1) % 2 ^ 16 := by
  have hrec := (Stays.refl none noReg s).record 0x0A c 0 (halves (BitVec.ofNat 64 e))
  unfold wakened
  dsimp only
  generalize s.record 0x0A c 0 (halves (BitVec.ofNat 64 e)) = r at hrec ⊢
  generalize hr' : { r with clk := { r.clk with
    ts := r.clk.ts + BitVec.ofInt 64 (roundDiv ((e * 400 : Nat) * (100000000 + s.sleepTrim)) 100000000), sleep := BitVec.ofNat 40 e } } = v
  have hcanon : swf resetWord v.regs = true := by rw [← hr']; exact hrec.canon hw
  have hcount : v.fld (rgA c 0x50) 16 16 = s.fld (rgA c 0x50) 16 16 := by
    rw [← hr']; exact hrec.fldRgA hc (by omega) (by omega) ..
  have hts : v.clk.ts = s.clk.ts + BitVec.ofInt 64 (roundDiv ((e * 400 : Nat) * (100000000 + s.sleepTrim)) 100000000) := by
    rw [← hr', ← hrec.clk]
  have hring := ringTo_ringSt c (st := 1) (by omega) hcanon
  have hother : (ringTo c 1 v).fld (rgA c 0x50) 16 16 = v.fld (rgA c 0x50) 16 16 :=
    State.fld_of_reg (ringTo_reg_other (by unfold rgA; omega) v) ..
  have hcanon' := ringTo_canon c 1 hcanon
  have hclk := congrArg Clk.ts (ringTo_clk c 1 v)
  generalize ringTo c 1 v = w at hring hother hcanon' hclk ⊢
  refine ⟨?_, ?_, ?_⟩
  · exact (State.fld_of_reg (State.reg_setFld_other (w.setRg c _) _ _ _ _ _ (by unfold rgA; omega)) ..).trans hring
  · exact hclk.trans hts
  · exact (State.fld_setFld_same (w.setRg c _) _ _ _ _ hcanon' (by omega)).trans (by rw [← hcount, ← hother]; rfl)

end Sys2Proof.Machine

/-! ### CocoonSleep -/

open Sys2Proof Sys2Proof.Machine

/-- Settles O45. The stop of the links and the bring-up of the groups write no register of a controller; each group is stopped once. -/
theorem cocoonSleep : Obligations.CocoonSleep := by
  intro c s hw
  refine ⟨fun no m hrun hst hsleep hround => ?enter, fun e r hc hst hd he => ?wake, fun e r he => ?early, fun no m e hrun hst hrole hwake => ?miss,
    fun ln q no hi hc hp hq harm hst hoth hno h1 h2 hlen hwin => ?line⟩
  case early =>
    exact becomes_else rfl (by simp [he])
  case miss =>
    have hex : exec (.wakeMiss c) s = execWakeMiss c s := rfl
    refine becomes_done ?_
    rw [hex, execWakeMiss, if_pos (by simp [hrun, hst, hrole]), hwake]
  case line =>
    have ha : Stays (some ln.ep) noReg s (accepted ln {} s) := Stays.accepted noReg ln {} s
    have hrings := rings_le s.member
    have hc2 : c < 2 := by omega
    have hrg : (accepted ln {} s).rg c = s.rg c := by rw [State.rg, accepted_ring]; rfl
    have hper := ha.period hc2
    have hm : (accepted ln {} s).sleepRounds c q = s.sleepRounds c q := by rw [State.sleepRounds, State.sleepRounds, hper]
    refine does_acts_here rfl hp hi ?_ (by rw [hrg, hm]; rfl) (.setRg (.refl _) ..)
    have hguard (k : Nat) : (accepted ln {} s).guard c k = s.guard c k := by
      rw [State.guard, State.guard, State.rho, State.rho, hper, ha.flagRgA hc2 (by omega) (by omega), ha.fldRgA hc2 (by omega) (by omega)]
    have hlead : (accepted ln {} s).lead c = s.lead c := by rw [State.lead, State.lead, hper]
    have hother := ha.ringSt (1 - c) (by omega)
    simp only [hm, hper, hguard, hlead, hrg, ha.ringSt c hc2, hother, ha.sup, Option.getD_some]
    generalize (word no - (s.rg c).round).toNat = k at h1 h2 ⊢
    simp [ringObj, ha.member, hc2, hc, hq, harm, hst, hlen, hwin]
    omega
  case enter =>
    have hc2 : c < 2 := by
      have := rings_le s.member
      simp only [State.ringRuns, Bool.and_eq_true, decide_eq_true_eq] at hrun
      omega
    have hrec := (Stays.refl none noReg s).record 0x2C 0 0 [word c, word m]
    have hex : exec (.cocoonEnter c) s = done (asleepNow c m s) := by
      have hex : exec (.cocoonEnter c) s = execCocoonEnter c s := rfl
      rw [hex, execCocoonEnter, if_pos (by simp [hrun, hst, hsleep, hround]), hsleep]
      rfl
    refine ⟨_, hex, ?_, fun g hg hpow => ?_⟩
    · rw [(Stays.refl none noReg _).flush.ringSt c hc2]
      exact asleepNow_ringSt c m (Memory.wf_regs hw)
    · have hf := (Stays.refl none noReg (asleepNow c m s)).flush
      rw [hf.linkUp, State.flag_of_reg (k := aGstat g) (hf.regGrA g 0)]
      exact asleepNow_stops hc2 m (Memory.wf_regs hw) hg hpow
  case wake =>
    have hc2 : c < 2 := by have := rings_le s.member; omega
    have hex : exec (.sleepTimerFire c e r) s
        = done (forAll ((wakened c e s).groups.filter fun g => (wakened c e s).powered g && !(wakened c e s).gFenced g .link)
          (wakeGroup r) (wakened c e s)) :=
      congrArg done (if_pos (by simp [hc, hst, hd, ← he]))
    have hcalm : Calm (fun k => 0x50000 ≤ k ∧ k < 0x50200) noReg (wakened c e s) (forAll ((wakened c e s).groups.filter fun g =>
        (wakened c e s).powered g && !(wakened c e s).gFenced g .link) (wakeGroup r) (wakened c e s)) :=
      (Calm.refl _).forAll _ fun g hg u => calm_wakeGroup (lt_of_mem_groups hg) r u
    generalize forAll ((wakened c e s).groups.filter fun g => (wakened c e s).powered g && !(wakened c e s).gFenced g .link) (wakeGroup r)
      (wakened c e s) = u at hcalm hex
    have hf := (Stays.refl none noReg u).flush
    obtain ⟨hring, hts, hcount⟩ := wakened_facts hc2 e (Memory.wf_regs hw)
    refine ⟨_, hex, ?_, ?_, ?_⟩
    · rw [hf.ringSt c hc2, State.ringSt, State.fld_of_reg (hcalm.reg _ (by unfold rgA; omega))]; exact hring
    · rw [hf.clk, hcalm.ts, hts]
    · rw [hf.fldRgA hc2 (by omega) (by omega), State.fld_of_reg (hcalm.reg _ (by unfold rgA; omega)), hcount]
end

section
/-!
PROOFS. What a write of a record's target leaves of the modes (R420 to R422, R527).
-/
namespace Sys2Proof.Machine

/-! ### The operations behind a write of a register -/

theorem not_modeReg_high {k : Nat} (h : 0x18000000 ≤ k) : ¬ modeReg k := by
  rintro ⟨n, _, rfl | rfl⟩ <;> unfold chA at h <;> omega

theorem not_modeReg_grA (g o : Nat) (ho : o < 0x1000) : ¬ modeReg (grA g o) := by
  rintro ⟨n, _, h | h⟩ <;> unfold grA chA at h <;> omega

theorem mode_quiet (k : Nat) (h : modeReg k) : quiet k := .inr (.inr h)

namespace Calm
variable {P Q : Nat → Prop} {s t : State}

theorem withSafe (hP : ∀ k, P k → quiet k) {n : Nat} (hn : n < 128) {f : State → State} (hf : Calm P Q s (f t)) :
    Calm P Q s (withSafe n f t) := .withGates hP (by simpa using hn) (hf.safeChanged hP hn ..)

section
variable (hP : ∀ k, P k → quiet k) (h : Calm P Q s t)
include hP h

theorem cfgErr (n : Nat) (b : Bool) : Calm P Q s (cfgErr n b t) := .ite (h.stat hP ..) h
theorem grpCfgErr (g : Nat) (b : Bool) : Calm P Q s (grpCfgErr g b t) := h.forAll _ fun n _ u => (refl u).cfgErr hP n b

theorem takeLevel (n : Nat) : Calm P Q s (takeLevel n t) := ((h.setCh ..).chan hP (by omega) _).slotValid hP n
omit hP in
theorem persist (n : Nat) : Calm P Q s (persist n t) := .ite (h.trans ⟨fun _ _ => rfl, fun _ _ => rfl, rfl, id⟩) h

theorem setCount (n : Nat) (v : BitVec 64) : Calm P Q s (setCount n v t) :=
  ((h.chan hP (by omega) _).chan hP (o := 0x4C) (by omega) _).persist n

theorem setOut {n : Nat} (hn : n < 128) (v : Nat) : Calm P Q s (setOut n v t) :=
  .withGates hP (by simpa using hn) (h.chan hP (by omega) _)

theorem endTrip {n : Nat} (hn : n < 128) : Calm P Q s (endTrip n t) :=
  ((Calm.withGates hP (by simpa using hn) ((h.stat hP ..).stat hP ..)).setCh ..).refreshFault hP hn

theorem tripClear {n : Nat} (hn : n < 128) : Calm P Q s (tripClear n t) := .ite (.ite ((h.endTrip hP hn).emit ..) (h.setCh ..)) h

theorem rangeToggle (n b : Nat) : Calm P Q s (rangeToggle n b t) := .ite (((h.stat hP ..).stat hP ..).emit ..) (h.stat hP ..)

theorem rangeAgain (n : Nat) : Calm P Q s (rangeAgain n t) := by
  unfold Machine.rangeAgain
  extract_lets c due a u v
  have hu : Calm P Q s u := h.setCh ..
  have hv : Calm P Q s v := .ite (hu.rangeToggle hP ..) hu
  exact .ite (hv.rangeToggle hP ..) hv

theorem rot (g lo w v : Nat) : Calm P Q s (t.setFld (aRot g) lo w v) :=
  h.setFld _ _ _ fun hk => not_quiet_grA g (by omega) (by omega) (hP _ hk)

theorem rotResume (n : Nat) : Calm P Q s (rotResume n t) := .ite (h.rot hP ..) h
theorem rotStart (g : Nat) : Calm P Q s (rotStart g t) := .ite (h.rot hP ..) h
theorem checkTarget (n : Nat) : Calm P Q s (checkTarget n t) := h.cfgErr hP ..

theorem winTarget (n : Nat) (act : Bool) (tgt : Nat) : Calm P Q s (winTarget n act tgt t) := by
  unfold Machine.winTarget
  extract_lets old t1 t2 t3
  have h1 : Calm P Q s t1 := (h.chan hP (by omega) _).chan hP (by omega) _
  have h2 : Calm P Q s t2 := h1.checkTarget hP n
  have h3 : Calm P Q s t3 := by
    unfold t3
    split
    next hw => exact h2.refreshFault hP (by have := channels_le t2.member; omega)
    next => exact h2
  exact h3.refreshTarget hP n

theorem winReset (n : Nat) : Calm P Q s (winReset n t) := ((h.setCh ..).chan hP (by omega) _).refreshTarget hP n

theorem judgeAge {n : Nat} (hn : n < 128) : Calm P Q s (judgeAge n t) :=
  .ite ((((h.emit ..).holdCh hP 14 hn).setCh ..).holdFence hP (by simpa using hn)) h

theorem autoRelease {n : Nat} (hn : n < 128) : Calm P Q s (autoRelease n t) := .ite ((h.dropCh hP 14 hn).emit ..) h

theorem setAutorel {l : List Nat} (hl : ∀ n ∈ l, n < 128) (on : Bool) : Calm P Q s (setAutorel l on t) := h.forAll l fun n hn u =>
  ((refl u).setFlag _ _ fun hk => not_quiet_low (by have := hl n hn; omega) (hP _ hk)).autoRelease hP (hl n hn)

theorem endHoldsOf (k : Nat) : Calm P Q s (endHoldsOf k t) := h.forAll _ fun n hn u => by
  split
  · exact .ite ((refl u).endHold hP (lt_of_mem_chans hn)) (refl u)
  · exact refl u

theorem modeChanged {n : Nat} (hn : n < 128) : Calm P Q s (modeChanged n t) := by
  unfold Machine.modeChanged
  refine .ite (h.modeOff hP hn) ?_
  extract_lets u w
  have hu : Calm P Q s u := .withGates hP (by simpa using hn) (h.setCh ..)
  have hw : Calm P Q s w :=
    .ite (hu.holdFence hP (by simpa using hn)) (((hu.dropCh hP 12 hn).dropCh hP 13 hn).dropCh hP 14 hn)
  exact (hw.leaveSafe hP hn).enterSafe hP hn

/-! ### The registers of a channel -/

theorem writeSafe {n : Nat} (hn : n < 128) (v : Word) : Calm P Q s (writeSafe n v t) :=
  (Calm.withSafe hP hn (h.chan hP (by omega) _)).cfgErr hP ..

theorem writeOut {n : Nat} (hn : n < 128) (v : Word) : Calm P Q s (writeOut n v t) :=
  .ite h (.ite ((h.setOut hP hn _).cfgErr hP ..) (h.setOut hP hn _))

theorem writeDiCfg (n : Nat) (v : Word) : Calm P Q s (writeDiCfg n v t) := by
  unfold Machine.writeDiCfg
  extract_lets t3 e3 v1 v2 prog thr hy sub v3 u1 u2
  have h1 : Calm P Q s u1 := (h.chan hP (by omega) _).cfgErr hP ..
  have h2 : Calm P Q s u2 := .ite h1 (h1.stat hP ..)
  exact (h2.setCh ..).takeLevel hP n

theorem writeDebounce (n v : Nat) : Calm P Q s (writeDebounce n v t) := (h.chan hP (by omega) _).cfgErr hP ..
theorem writePersist (n : Nat) (v : Word) : Calm P Q s (writePersist n v t) :=
  .ite ((h.chan hP (by omega) _).setCh ..) (h.chan hP (by omega) _)
theorem writeAiCfg (n : Nat) (v : Word) : Calm P Q s (writeAiCfg n v t) := (h.chan hP (by omega) _).cfgErr hP ..
theorem writeAiDiag (n v : Nat) : Calm P Q s (writeAiDiag n v t) := ((h.chan hP (by omega) _).cfgErr hP ..).rangeAgain hP n
theorem writeAoDev {n : Nat} (hn : n < 128) (v : Word) : Calm P Q s (writeAoDev n v t) :=
  ((h.chan hP (by omega) _).cfgErr hP ..).refreshFault hP hn
theorem writeAoRbchk (n : Nat) (v : Word) : Calm P Q s (writeAoRbchk n v t) := (h.chan hP (by omega) _).cfgErr hP ..

theorem writeConvCfg (n : Nat) (v : Word) : Calm P Q s (writeConvCfg n v t) := by
  unfold Machine.writeConvCfg
  extract_lets r rate k notch t1 t2 t3
  have h3 : Calm P Q s t3 := ((h.chan hP (by omega) _).cfgErr hP ..).rotResume hP n
  exact .ite (h3.filterStart hP n) h3

theorem writeWinCfg (n : Nat) (v : Word) : Calm P Q s (writeWinCfg n v t) :=
  ((((h.chan hP (by omega) _).chan hP (by omega) _).cfgErr hP ..).winTarget hP n ..).winReset hP n

theorem writeWinLimit (n : Nat) {o : Nat} (ho : o = 0x8C ∨ o = 0x90 ∨ o = 0x94) (v : Word) : Calm P Q s (writeWinLimit n o v t) :=
  (h.chan hP (by omega) _).cfgErr hP ..

theorem writeCommon {n o : Nat} (hn : n < 128) (ho : o ≠ 0) (v : Word) : Calm P Q s (writeCommon n o v t) := by
  unfold Machine.writeCommon
  rw [if_neg ho]
  exact .ite (h.writeSafe hP hn v) (.ite (Calm.withSafe hP hn (h.chan hP (by omega) _))
    (.ite (h.writeOut hP hn v) (.ite (h.chan hP (by omega) _) h)))

theorem writeSet {n o : Nat} (hn : n < 128) (ho : o ≠ 0x40 ∨ t.mode n ≠ 3) (v : Word) : Calm P Q s (writeSet n o v t) := by
  have hchan {o : Nat} (ho : o < 0x1000 ∧ o ≠ 0 ∧ o ≠ 0x140) (v : Word) : Calm P Q s (t.setReg (chA n o) v) := h.chan hP ho v
  unfold Machine.writeSet
  extract_lets m x u x'
  refine .ite ?di ?rest
  case di =>
    refine .ite (h.writeDiCfg hP n v) (.ite (h.writeDebounce hP n _) (.ite h (.ite (h.setCount hP n _) (.ite (h.writePersist hP n v) ?_))))
    split
    next ho => exact hchan (by omega) v
    next => exact h
  case rest =>
    by_cases hm : m = 3
    · have ho' : o ≠ 0x40 := ho.resolve_right fun hne => hne hm
      rw [if_pos hm, if_neg ho']
      exact .ite ((hchan (by omega) _).cfgErr hP ..) (.ite ((hchan (by omega) _).cfgErr hP ..)
        (.ite (hchan (by omega) _) (.ite (.ite (h.tripClear hP hn) h) h)))
    · rw [if_neg hm]
      exact .ite (.ite (h.writeAiCfg hP n v) (.ite (h.writeAiDiag hP n _) h))
        (.ite (.ite (h.writeAoDev hP hn v) (.ite (h.writeAoRbchk hP n v) h)) h)

theorem writeConv {n o : Nat} (v : Word) : Calm P Q s (writeConv n o v t) := by
  unfold Machine.writeConv
  refine .ite (.ite (h.writeConvCfg hP n v) h) (.ite h (.ite (h.writeWinCfg hP n v) (.ite (h.chan hP (by omega) _) ?_)))
  split
  next ho => exact h.writeWinLimit hP n (by omega) v
  next => exact h

/-! ### The registers of a group and of the blocks -/

theorem grp (g : Nat) {o : Nat} (h0 : 0 < o) (ho : o < 0x1000) (v : Word) : Calm P Q s (t.setReg (grA g o) v) :=
  h.setReg v fun hk => not_quiet_grA g h0 ho (hP _ hk)

theorem writeRotCfg (g : Nat) (v : Word) : Calm P Q s (writeRotCfg g v t) := by
  unfold Machine.writeRotCfg
  extract_lets u st
  have hu : Calm P Q s u := (h.grp hP g (by omega) (by omega) _).grpCfgErr hP ..
  exact .ite (hu.rotStart hP g) (.ite (hu.rot hP ..) hu)

theorem writeGrp (g o : Nat) (hq : ¬ Q g) (v : Word) : Calm P Q s (writeGrp g o v t) := by
  have hg {o : Nat} (h0 : 0 < o) (ho : o < 0x1000) (v : Word) : Calm P Q s (t.setReg (grA g o) v) := h.grp hP g h0 ho v
  exact .ite (hg (by omega) (by omega) _) (.ite ((hg (by omega) (by omega) _).grpCfgErr hP ..) (.ite (h.writeRotCfg hP g v)
    (.ite (hg (by omega) (by omega) _) (.ite (hg (by omega) (by omega) _)
    (.ite (((hg (by omega) (by omega) _).grpCfgErr hP ..).setGr _ hq) (.ite (hg (by omega) (by omega) _) h))))))

end
end Calm

/-! ### A write that a record may make -/

/-- From s to t the registers of the modes stay, and the registers keep their canonical form. -/
def SameModes (s t : State) : Prop := (∀ k, modeReg k → t.reg k = s.reg k) ∧ (swf resetWord s.regs = true → swf resetWord t.regs = true)

theorem Calm.sameModes {s t : State} (h : Calm modeReg noReg s t) : SameModes s t := ⟨h.reg, h.canon⟩
theorem CopyLeaves.sameModes {s t : State} (h : CopyLeaves s t) : SameModes s t := ⟨h.modes, h.canon⟩
theorem SameModes.trans {s t u : State} (h : SameModes s t) (g : SameModes t u) : SameModes s u :=
  ⟨fun k hk => (g.1 k hk).trans (h.1 k hk), g.2 ∘ h.2⟩

theorem SameModes.cases {c : Prop} [Decidable c] {s a b : State} (ha : c → SameModes s a) (hb : ¬ c → SameModes s b) :
    SameModes s (if c then a else b) := by
  split
  next hc => exact ha hc
  next hc => exact hb hc

/-- A write of a register of the system that a record may target. -/
theorem writeSys_sameModes {a : Nat} (ha : a = 0x10010 ∨ a = 0x10018 ∨ (0x30000 ≤ a ∧ a < 0x40000)) (hrel : a ≠ 0x30008) (v : Word)
    (s : State) : SameModes s (writeSys a v s) := by
  have h : Calm modeReg noReg s s := .refl s
  have hset (v : Word) : Calm modeReg noReg s (s.setReg a v) := h.setReg v (not_modeReg_low (by omega))
  apply Calm.sameModes
  obtain rfl | rfl | ha := ha
  · exact hset _
  · exact hset _
  · have he : writeSys a v s = if 0x30040 ≤ a ∧ a < 0x30050 then
        let l := ((List.range 32).map fun j => 8 * (a - 0x30040) + j).filter fun n => decide (n < s.member.channels)
        setAutorel (l.filter fun n => bit v (n % 32)) true (setAutorel (l.filter fun n => !bit v (n % 32)) false s)
        else if 0x40000 ≤ a then s.setReg a v else s := by
      unfold writeSys
      rw [if_neg (by omega), if_neg (by omega), if_neg (by omega), if_neg (by omega), if_neg (by omega), if_neg (by omega),
        if_neg (by omega), if_neg (by omega), if_neg (by omega), if_neg hrel]
    have hl {f : Nat → Bool} (n : Nat) (hn : n ∈ (((List.range 32).map fun j => 8 * (a - 0x30040) + j).filter fun n =>
        decide (n < s.member.channels)).filter f) : n < 128 := by
      have := of_decide_eq_true (List.mem_filter.1 (List.mem_filter.1 hn).1).2
      have := channels_le s.member
      omega
    rw [he]
    exact .ite ((h.setAutorel mode_quiet hl false).setAutorel mode_quiet hl true) (.ite (hset _) h)

theorem writeRing_sameModes {c o : Nat} (h4 : o ≠ 4) (h34 : o ≠ 0x34) (hc : c < 2) (ho : o < 0x100) (v : Word) (s : State) :
    SameModes s (writeRing c o v s) := by
  have h : Calm modeReg noReg s s := .refl s
  have hset (v : Word) : Calm modeReg noReg s (s.setReg (rgA c o) v) := h.setReg v (not_modeReg_low (by unfold rgA; omega))
  apply Calm.sameModes
  unfold writeRing
  dsimp only
  rw [if_neg h4]
  refine .ite (hset _) (.ite (hset _) (.ite (hset _) (.ite (hset _) (.ite (hset _) ?_))))
  rw [if_neg h34]
  exact .ite (hset _) (.ite (hset _) (.ite (hset _) (.ite (hset _) h)))

theorem writeSkip_sameModes {k q : Nat} (hk : k < 0x100) (hq : q < 0x20) (v : Word) (s : State) : SameModes s (writeSkip k q v s) := by
  have hlow {q : Nat} (hq : q < 0x20) : ¬ modeReg (skA k q) := not_modeReg_low (by unfold skA; omega)
  have h : Calm modeReg noReg s s := .refl s
  have hset {q : Nat} (hq : q < 0x20) (v : Word) : Calm modeReg noReg s (s.setReg (skA k q) v) := h.setReg v (hlow hq)
  have herr (b : Bool) {u : State} (hu : Calm modeReg noReg s u) : Calm modeReg noReg s (if b then u.setFlag (skA k 0xC) 2 true else u) :=
    .ite (hu.setFlag _ _ (hlow (by omega))) hu
  apply Calm.sameModes
  exact .ite (herr _ (hset (by omega) _)) (.ite (herr _ (hset (by omega) _)) (.ite (hset (by omega) _) (.ite (hset (by omega) _) (hset hq _))))

theorem endEpoch_sameModes (s : State) : SameModes s (endEpoch s) :=
  (CopyLeaves.ite (((CopyLeaves.refl s).closeCap false).withChrys _).copyOn (.refl s)).sameModes

/-- A write of a register of the blocks that a record may target. -/
theorem writeBlock_sameModes {a : Nat} (ha : 0x50000 ≤ a ∧ a < 0x80000) (hwo : blockAcc a ≠ some .wo) (v : Word) (s : State) :
    SameModes s (writeBlock a v s) := by
  have h : Calm modeReg noReg s s := .refl s
  have hset (v : Word) : Calm modeReg noReg s (s.setReg a v) := h.setReg v (not_modeReg_low (by omega))
  refine .cases (fun hring => ?ring) fun hring => .cases (fun hbind => ?bind) fun hbind => .cases (fun _ => (hset _).sameModes) fun _ =>
    .cases (fun _ => ?enable) fun _ => .cases (fun hskip => writeSkip_sameModes (by omega) (by omega) v s) fun _ =>
    .cases (fun _ => ?ctrl) fun _ => .cases (fun _ => (hset _).sameModes) fun _ => .cases (fun _ => (hset _).sameModes) fun _ =>
    .cases (fun _ => (hset _).sameModes) fun _ => .cases (fun _ => (hset _).sameModes) fun _ => .cases (fun _ => (hset _).sameModes) fun hout =>
    absurd ha.2 hout
  case ring =>
    have hacc : blockAcc a = ringAcc (a / 0x100 % 2) (a % 0x100) := if_pos ⟨by omega, hring⟩
    refine writeRing_sameModes (fun h4 => hwo ?_) (fun h34 => hwo ?_) (by omega) (by omega) v s
    · rw [hacc, h4]; rfl
    · rw [hacc, h34]; rfl
  case bind => exact Calm.sameModes (.ite ((hset _).judgeAge mode_quiet (by omega)) ((hset _).judgeAge mode_quiet (by omega)))
  case enable =>
    exact Calm.sameModes (h.forAll _ fun k _ u =>
      have hu : Calm modeReg noReg u (u.setFlag 0x60008 k (bit v k)) := (Calm.refl u).setFlag _ _ (not_modeReg_low (by omega))
      .ite hu (hu.endHoldsOf mode_quiet k))
  case ctrl =>
    have hu := (hset (v &&& 3)).sameModes
    exact .cases (fun _ => hu) fun _ => hu.trans (endEpoch_sameModes _)

end Sys2Proof.Machine
end

section
/-!
PROOFS. Which slot a profile selects (R422) depends on the flash, the member and the modes alone: two states that agree on them load a record
in the same way.
-/
namespace Sys2Proof.Machine

/-- Two states of one member with canonical registers and the same registers of the modes. -/
structure Agree (u v : State) : Prop where
  member : u.member = v.member
  modes  : ∀ k, modeReg k → u.reg k = v.reg k
  left   : swf resetWord u.regs = true
  right  : swf resetWord v.regs = true

theorem modeReg_mode {n : Nat} (hn : n < 128) : modeReg (chA n 0) := ⟨n, hn, .inl rfl⟩
theorem modeReg_rating {n : Nat} (hn : n < 128) : modeReg (chA n 0x140) := ⟨n, hn, .inr rfl⟩

/-- A mode stored, and the other channel of a pair that ends set free. -/
def pairFreed (n m : Nat) (w4 : Bool) (s : State) : State :=
  let t := (s.setFld (chA n 0) 0 4 m).setFlag (chA n 0) 4 w4
  if n % 2 = 0 && s.flag (chA n 0) 4 && (!w4 || decide (m ≠ s.mode n)) then t.setFlag (chA (n + 1) 0) 5 false else t

/-- The other channel of a pair that begins. -/
def slaveTaken (p : Nat) (t : State) : State :=
  let u := ((t.setFld (chA p 0) 0 4 0).setFlag (chA p 0) 4 false).setFlag (chA p 0) 5 true
  if decide (t.mode p ≠ 0) || t.flag (chA p 0) 4 then modeChanged p u else u

theorem storeMode_eq (n m : Nat) (w4 : Bool) (s : State) : storeMode n m w4 s =
    if m ≠ s.mode n ∨ w4 ≠ s.flag (chA n 0) 4 then
      modeChanged n (if n % 2 = 0 && w4 then slaveTaken (n + 1) (pairFreed n m w4 s) else pairFreed n m w4 s)
    else if n % 2 = 0 && w4 then slaveTaken (n + 1) (pairFreed n m w4 s) else pairFreed n m w4 s := rfl

/-- The mode, the lead bit and the error that a write of the mode takes (Table 5.2). -/
def modeTaken (n : Nat) (v : Word) (s : State) : Nat × Bool × Bool :=
  let m := bits v 0 4
  let slave := s.flag (chA n 0) 5
  let excess := decide (m = 3) && decide (12000 < s.dohSumWith (n / 16) n (10 * s.fld (chA n 0x140) 0 8))
  let bad := decide (9 < m) || (slave && decide (m ≠ 0)) || excess
  let m := if bad then 0 else m
  let w4 := bit v 4
  let badW := w4 && (decide (n % 2 = 1) || decide (m ≠ 7))
  (m, w4 && !badW, bad || badW)

theorem writeMode_eq (n : Nat) (v : Word) (s : State) : writeMode n v s =
    let t := cfgErr n (modeTaken n v s).2.2 (storeMode n (modeTaken n v s).1 (modeTaken n v s).2.1
      ((s.setFlag (chA n 0) 6 (bit v 6)).setFlag (chA n 0) 7 (bit v 7)))
    if s.flag (chA n 0) 7 && !bit v 7 && decide (s.fld (chA n 4) 0 2 = 1) then checkKind n t else t := rfl

/-- The word and the error that a write of a switch's configuration takes. -/
def ratingTaken (v : Word) : Word × Bool :=
  let r := clamp 10 200 (bits v 0 8)
  let w := clamp 1 200 (bits v 16 8)
  let x := clamp 10 40 (bits v 24 6)
  let wire := if bits v 8 3 = 7 then 0 else bits v 8 3
  (setBits (setBits (setBits (setBits (v &&& 0x3FFF7FFF) 0 8 r) 16 8 w) 24 6 x) 8 3 wire,
    decide (r ≠ bits v 0 8) || decide (w ≠ bits v 16 8) || decide (x ≠ bits v 24 6) || decide (wire ≠ bits v 8 3))

theorem writeDohCfg_eq (n : Nat) (v : Word) (s : State) : writeDohCfg n v s =
    let t := cfgErr n (ratingTaken v).2 (s.setReg (chA n 0x140) (ratingTaken v).1)
    if decide (12000 < s.dohSumWith (n / 16) n (10 * clamp 10 200 (bits v 0 8))) then cfgErr n true (storeMode n 0 false t)
    else holdFence [n] t := rfl

namespace Agree
variable {u v u' v' : State}

theorem step (h : Agree u v) (hu : SameModes u u') (hv : SameModes v v') (mu : u'.member = u.member) (mv : v'.member = v.member) : Agree u' v' :=
  ⟨(mu.trans h.member).trans mv.symm, fun k hk => (hu.1 k hk).trans ((h.modes k hk).trans (hv.1 k hk).symm), hu.2 h.left, hv.2 h.right⟩

section
variable (h : Agree u v)
include h

theorem mode {n : Nat} (hn : n < 128) : u.mode n = v.mode n := State.fld_of_reg (h.modes _ (modeReg_mode hn)) ..
theorem flag {n : Nat} (hn : n < 128) (i : Nat) : u.flag (chA n 0) i = v.flag (chA n 0) i := State.flag_of_reg (h.modes _ (modeReg_mode hn)) _

theorem setReg {k : Nat} (w : Word) : Agree (u.setReg k w) (v.setReg k w) := by
  refine ⟨h.member, fun j hj => ?_, State.swf_setReg u k w h.left, State.swf_setReg v k w h.right⟩
  by_cases hjk : j = k
  · rw [hjk, State.reg_setReg_same u k w h.left, State.reg_setReg_same v k w h.right]
  · rw [State.reg_setReg_other u k j w hjk, State.reg_setReg_other v k j w hjk]
    exact h.modes j hj

theorem setFld {k : Nat} (hk : modeReg k) (lo w x : Nat) : Agree (u.setFld k lo w x) (v.setFld k lo w x) := by
  rw [State.setFld, State.setFld, h.modes k hk]
  exact h.setReg _

theorem setFlag {n : Nat} (hn : n < 128) (i : Nat) (b : Bool) : Agree (u.setFlag (chA n 0) i b) (v.setFlag (chA n 0) i b) :=
  h.setFld (modeReg_mode hn) ..

end

theorem ite {c d : Prop} [Decidable c] [Decidable d] (hcd : c ↔ d) {a b a' b' : State} (ha : Agree a a') (hb : Agree b b') :
    Agree (if c then a else b) (if d then a' else b') := by
  by_cases hc : c
  · rw [if_pos hc, if_pos (hcd.1 hc)]; exact ha
  · rw [if_neg hc, if_neg (hc ∘ hcd.2)]; exact hb

section
variable (h : Agree u v) {n : Nat} (hn : n < 128)
include h hn

omit hn in
theorem cfgErr (n : Nat) (b : Bool) : Agree (cfgErr n b u) (cfgErr n b v) :=
  h.step ((Calm.refl u).cfgErr mode_quiet n b).sameModes ((Calm.refl v).cfgErr mode_quiet n b).sameModes
    ((Tame.refl u).cfgErr n b).member ((Tame.refl v).cfgErr n b).member

theorem modeChanged : Agree (modeChanged n u) (modeChanged n v) :=
  h.step ((Calm.refl u).modeChanged mode_quiet hn).sameModes ((Calm.refl v).modeChanged mode_quiet hn).sameModes
    ((Tame.refl u).modeChanged n).member ((Tame.refl v).modeChanged n).member

theorem pairFreed (m : Nat) (w4 : Bool) : Agree (pairFreed n m w4 u) (pairFreed n m w4 v) := by
  have hs : Agree ((u.setFld (chA n 0) 0 4 m).setFlag (chA n 0) 4 w4) ((v.setFld (chA n 0) 0 4 m).setFlag (chA n 0) 4 w4) :=
    (h.setFld (modeReg_mode hn) ..).setFlag hn ..
  unfold Machine.pairFreed
  rw [h.mode hn, h.flag hn]
  by_cases he : n % 2 = 0
  · exact .ite .rfl (hs.setFlag (by omega) ..) hs
  · simp only [he, decide_false, Bool.false_and, Bool.false_eq_true, if_false]
    exact hs

theorem slaveTaken : Agree (slaveTaken n u) (slaveTaken n v) := by
  have hs := ((h.setFld (modeReg_mode hn) 0 4 0).setFlag hn 4 false).setFlag hn 5 true
  unfold Machine.slaveTaken
  rw [h.mode hn, h.flag hn]
  exact .ite .rfl (hs.modeChanged hn) hs

/-- The storing of a mode, with the pairing of two RTD channels. -/
theorem storeMode (m : Nat) (w4 : Bool) : Agree (storeMode n m w4 u) (storeMode n m w4 v) := by
  have hf := h.pairFreed hn m w4
  have ht : Agree (if n % 2 = 0 && w4 then Machine.slaveTaken (n + 1) (Machine.pairFreed n m w4 u) else Machine.pairFreed n m w4 u)
      (if n % 2 = 0 && w4 then Machine.slaveTaken (n + 1) (Machine.pairFreed n m w4 v) else Machine.pairFreed n m w4 v) := by
    by_cases he : n % 2 = 0
    · exact .ite .rfl (hf.slaveTaken (by omega)) hf
    · simp only [he, decide_false, Bool.false_and, Bool.false_eq_true, if_false]
      exact hf
  rw [storeMode_eq, storeMode_eq, h.mode hn, h.flag hn]
  exact .ite .rfl (ht.modeChanged hn) ht

/-- The load of the switches of a group. -/
theorem dohSumWith (mA : Nat) : u.dohSumWith (n / 16) n mA = v.dohSumWith (n / 16) n mA := by
  unfold State.dohSumWith
  congr 1
  refine List.map_congr_left fun m hm => ?_
  have hm' : m < 128 := grpChan_lt (by omega) hm
  rw [h.mode hm', State.fld_of_reg (h.modes _ (modeReg_rating hm'))]

theorem modeTaken (w : Word) : modeTaken n w u = modeTaken n w v := by
  unfold Machine.modeTaken
  rw [h.flag hn, State.fld_of_reg (h.modes _ (modeReg_rating hn)), h.dohSumWith hn]

theorem writeMode (w : Word) : Agree (writeMode n w u) (writeMode n w v) := by
  have hs := (h.setFlag hn 6 (bit w 6)).setFlag hn 7 (bit w 7)
  have ht := (hs.storeMode hn (Machine.modeTaken n w v).1 (Machine.modeTaken n w v).2.1).cfgErr n (Machine.modeTaken n w v).2.2
  rw [writeMode_eq, writeMode_eq, h.modeTaken hn]
  have hk (c : Bool) (t : State) : SameModes t (if c then checkKind n t else t) :=
    Calm.sameModes (.ite ((Calm.refl t).checkKind mode_quiet hn) (.refl t))
  have hm (c : Bool) (t : State) : (if c then checkKind n t else t).member = t.member :=
    (Tame.ite ((Tame.refl t).checkKind n) (.refl t)).member
  exact ht.step (hk ..) (hk ..) (hm ..) (hm ..)

theorem writeDohCfg (w : Word) : Agree (writeDohCfg n w u) (writeDohCfg n w v) := by
  have ht := (h.setReg (k := chA n 0x140) (ratingTaken w).1).cfgErr n (ratingTaken w).2
  have hfence := ht.step ((Calm.refl _).holdFence mode_quiet (l := [n]) (by simpa using hn)).sameModes
    ((Calm.refl _).holdFence mode_quiet (l := [n]) (by simpa using hn)).sameModes
    ((Tame.refl _).holdFence [n]).member ((Tame.refl _).holdFence [n]).member
  rw [writeDohCfg_eq, writeDohCfg_eq, h.dohSumWith hn]
  exact .ite .rfl ((ht.storeMode hn 0 false).cfgErr n true) hfence

end
end Agree

/-! ### The load of a slot -/

theorem recordOk_access {s : State} {a : Nat} (h : s.recordOk a = true) : recordRange a = true ∧ s.access a ≠ some .wo := by
  unfold State.recordOk at h
  obtain ⟨hr, ha⟩ := Bool.and_eq_true_iff.1 h
  refine ⟨hr, fun hw => ?_⟩
  rw [hw] at ha
  exact Bool.false_ne_true ha

theorem chanOf_lt {a : Nat} (h : a < 0x18000000 ∧ 0x10000000 ≤ a) : (chanOf a).1 < 128 := by
  have hg : a / 0x1000000 % 16 < 8 := by omega
  have hc : a / 0x1000 % 16 < 16 := Nat.mod_lt _ (by omega)
  show 16 * (a / 0x1000000 % 16) + a / 0x1000 % 16 < 128
  omega

/-- A write of a register of a channel beside those on which the modes depend. -/
theorem writeChan_sameModes {n q : Nat} (hn : n < 128) {s : State} (hq : q ≠ 0 ∧ (q ≠ 0x40 ∨ s.mode n ≠ 3)) (v : Word) :
    SameModes s (if q < 0x40 then writeCommon n q v s else if q ≤ 0x64 then writeSet n q v s else writeConv n q v s) :=
  Calm.sameModes (.ite ((Calm.refl s).writeCommon mode_quiet hn hq.1 v) (.ite ((Calm.refl s).writeSet mode_quiet hn hq.2 v)
    ((Calm.refl s).writeConv mode_quiet v)))

/-- The access code of an address under the mode that its channel has. -/
def accessUnder (mb : Member) (m a : Nat) : Option Acc :=
  if a < 0x50000 then sysAcc a
  else if a < 0x10000000 then blockAcc a
  else if a < 0x18000000 then
    let o := a % 0x1000000
    if o < 0x10000 then chanAcc m (chanOf a).2
    else if 0x100000 ≤ o then grpAcc (o - 0x100000)
    else none
  else if a < 0x80000000 then shadowAcc a
  else if a < 0x80400000 then some .seq
  else if 0xC0000000 ≤ a ∧ a < 0xC0000000 + mb.dieSize then some .trail
  else none

theorem access_eq (s : State) (a : Nat) : s.access a = accessUnder s.member (s.mode (chanOf a).1) a := rfl

/-- Outside the channels the access code is the same under every mode. -/
theorem accessUnder_beside {a : Nat} (ha : ¬ (a < 0x18000000 ∧ 0x10000000 ≤ a)) (mb : Member) (m m' : Nat) :
    accessUnder mb m a = accessUnder mb m' a := by
  unfold accessUnder
  by_cases h1 : a < 0x50000
  · rw [if_pos h1, if_pos h1]
  by_cases h2 : a < 0x10000000
  · rw [if_neg h1, if_neg h1, if_pos h2, if_pos h2]
  · have h3 : ¬ a < 0x18000000 := fun h3 => ha ⟨h3, by omega⟩
    rw [if_neg h1, if_neg h1, if_neg h2, if_neg h2, if_neg h3, if_neg h3]

namespace Agree
variable {u v : State} (h : Agree u v)
include h

theorem access (a : Nat) : u.access a = v.access a := by
  rw [access_eq, access_eq, h.member]
  by_cases ha : a < 0x18000000 ∧ 0x10000000 ≤ a
  · rw [h.mode (chanOf_lt ha)]
  · exact accessUnder_beside ha ..

theorem recordOk (a : Nat) : u.recordOk a = v.recordOk a := by
  unfold State.recordOk
  rw [h.access]
  by_cases ha : a < 0x18000000 ∧ 0x10000000 ≤ a
  · rw [h.mode (chanOf_lt ha)]
  · have hno : (decide (0x10000000 ≤ a) && decide (a < 0x18000000)) = false := by simp; omega
    rw [hno]
    rfl

theorem same {a : Nat} {w : Word} (hu : SameModes u (regWrite a w u)) (hv : SameModes v (regWrite a w v)) :
    Agree (regWrite a w u) (regWrite a w v) :=
  h.step hu hv ((Tame.refl u).regWrite a w).member ((Tame.refl v).regWrite a w).member

/-- The write of a register of a channel. -/
theorem regWrite_chan {a : Nat} (ha : a < 0x18000000 ∧ 0x10000000 ≤ a) (ho : a % 0x1000000 < 0x10000) (w : Word) :
    Agree (regWrite a w u) (regWrite a w v) := by
  have he (s : State) : regWrite a w s = if (chanOf a).2 < 0x40 then writeCommon (chanOf a).1 (chanOf a).2 w s
      else if (chanOf a).2 ≤ 0x64 then writeSet (chanOf a).1 (chanOf a).2 w s else writeConv (chanOf a).1 (chanOf a).2 w s := by
    unfold Machine.regWrite
    rw [if_neg (by omega), if_neg (by omega), if_pos ha.1]
    exact if_pos ho
  have hn := chanOf_lt ha
  have hmode := h.mode hn
  have htu := (Tame.refl u).regWrite a w
  have htv := (Tame.refl v).regWrite a w
  rw [he] at htu htv
  rw [he, he]
  generalize (chanOf a).1 = n at hn hmode htu htv ⊢
  generalize (chanOf a).2 = q at htu htv ⊢
  by_cases h0 : q = 0
  · subst h0
    exact h.writeMode hn w
  by_cases h40 : q = 0x40 ∧ u.mode n = 3
  · obtain ⟨rfl, hm⟩ := h40
    have hset (s : State) (hm : s.mode n = 3) : writeSet n 0x40 w s = Machine.writeDohCfg n w s := by
      unfold Machine.writeSet
      rw [hm]
      dsimp only
      rw [if_neg (by decide), if_pos rfl, if_pos rfl]
    rw [if_neg (by omega), if_pos (by omega), if_neg (by omega), if_pos (by omega), hset u hm, hset v (hmode ▸ hm)]
    exact h.writeDohCfg hn w
  · have hq : q ≠ 0x40 ∨ u.mode n ≠ 3 := by omega
    exact h.step (writeChan_sameModes hn ⟨h0, hq⟩ w) (writeChan_sameModes hn ⟨h0, hmode ▸ hq⟩ w) htu.member htv.member

theorem regWrite {a : Nat} (hr : u.recordOk a = true) (w : Word) : Agree (regWrite a w u) (regWrite a w v) := by
  have hwo := (recordOk_access hr).2
  have hrange := (recordOk_access hr).1
  simp only [recordRange, Bool.or_eq_true, Bool.and_eq_true, decide_eq_true_eq] at hrange
  by_cases h1 : a < 0x50000
  · have he (s : State) : Machine.regWrite a w s = writeSys a w s := if_pos h1
    have hrel : a ≠ 0x30008 := by
      rintro rfl
      exact hwo rfl
    exact h.same (he u ▸ writeSys_sameModes (by omega) hrel w u) (he v ▸ writeSys_sameModes (by omega) hrel w v)
  by_cases h2 : a < 0x10000000
  · have he (s : State) : Machine.regWrite a w s = writeBlock a w s := (if_neg h1).trans (if_pos h2)
    have hacc : blockAcc a ≠ some .wo := fun hb => hwo (((if_neg h1).trans (if_pos h2)).trans hb)
    exact h.same (he u ▸ writeBlock_sameModes (by omega) hacc w u) (he v ▸ writeBlock_sameModes (by omega) hacc w v)
  by_cases h3 : a < 0x18000000
  · by_cases ho : a % 0x1000000 < 0x10000
    · exact h.regWrite_chan ⟨h3, by omega⟩ ho w
    · have he (s : State) : Machine.regWrite a w s = writeGrp (a / 0x1000000 % 16) (a % 0x1000000 - 0x100000) w s :=
        (if_neg h1).trans ((if_neg h2).trans ((if_pos h3).trans (if_neg ho)))
      have hg (s : State) : SameModes s (Machine.regWrite a w s) := he s ▸ ((Calm.refl s).writeGrp mode_quiet _ _ id w).sameModes
      exact h.same (hg u) (hg v)
  · have he (s : State) : Machine.regWrite a w s = s.setReg a (w &&& shadowMask a) :=
      (if_neg h1).trans ((if_neg h2).trans ((if_neg h3).trans (if_pos (by omega))))
    have hs (s : State) : SameModes s (Machine.regWrite a w s) :=
      he s ▸ ((Calm.refl s).setReg _ (not_modeReg_high (by omega))).sameModes
    exact h.same (hs u) (hs v)

end Agree

/-- Two loads that end alike: both fail, or both succeed in states that agree. -/
def EndAlike (o p : Option State) : Prop := (o = none ∧ p = none) ∨ ∃ u v, o = some u ∧ p = some v ∧ Agree u v

theorem endAlike_loadValues (l : List Word) : ∀ (a : Nat) {u v : State}, Agree u v → EndAlike (loadValues a l u) (loadValues a l v) := by
  induction l with
  | nil => exact fun a u v h => .inr ⟨u, v, rfl, rfl, h⟩
  | cons w l ih =>
    intro a u v h
    rw [loadValues, loadValues, h.member, h.recordOk]
    by_cases hl : v.member.lacks a = true
    · rw [if_pos hl, if_pos hl]
      exact ih _ h
    rw [if_neg hl, if_neg hl]
    by_cases hr : v.recordOk a = true
    · rw [if_pos hr, if_pos hr]
      exact ih _ (h.regWrite ((h.recordOk a).trans hr) w)
    · rw [if_neg hr, if_neg hr]
      exact .inl ⟨rfl, rfl⟩

theorem endAlike_loadRecords (l : List (Nat × List Word)) : ∀ {u v : State}, Agree u v → EndAlike (loadRecords l u) (loadRecords l v) := by
  induction l with
  | nil => exact fun h => .inr ⟨_, _, rfl, rfl, h⟩
  | cons p l ih =>
    intro u v h
    rw [loadRecords, loadRecords]
    obtain ⟨hu, hv⟩ | ⟨u', v', hu, hv, h'⟩ := endAlike_loadValues p.2 p.1 h
    · rw [hu, hv]
      exact .inl ⟨rfl, rfl⟩
    · rw [hu, hv]
      exact ih h'

section
variable {s t : State} (hpf : t.pf = s.pf) (hm : t.member = s.member)
include hpf

theorem pfWord_of_pf (a : Nat) : t.pfWord a = s.pfWord a := by rw [State.pfWord, State.pfWord, hpf]

theorem records_of_pf (slot : Nat) : t.records slot = s.records slot := by
  unfold State.records
  generalize 0x8000 = fuel
  generalize 0 = off
  induction fuel generalizing off with
  | zero => rfl
  | succ fuel ih =>
    have hvals (a n : Nat) : t.recValues a n = s.recValues a n := by unfold State.recValues; simp only [pfWord_of_pf hpf]
    unfold State.parseRecords
    simp only [pfWord_of_pf hpf, ih, hvals]

theorem sealOk_of_pf (slot : Nat) : t.sealOk slot = s.sealOk slot := by
  unfold State.sealOk State.sealed State.slotBad State.slotCrc
  simp only [pfWord_of_pf hpf, hpf]

include hm

theorem candidate_of_pf (slot : Nat) : t.candidate slot = s.candidate slot := by
  have hagree : Agree t.blank s.blank := ⟨hm, fun _ _ => rfl, rfl, rfl⟩
  have hload : (loadSlot slot t.blank).isSome = (loadSlot slot s.blank).isSome := by
    unfold loadSlot
    rw [records_of_pf (s := s.blank) (t := t.blank) hpf]
    cases s.blank.records slot with
    | none => rfl
    | some l =>
      obtain ⟨hu, hv⟩ | ⟨u', v', hu, hv, _⟩ := endAlike_loadRecords l hagree
      · rw [Option.bind_some, Option.bind_some, hu, hv]
      · rw [Option.bind_some, Option.bind_some, hu, hv]
        rfl
  rw [State.candidate, State.candidate, sealOk_of_pf hpf, hload, State.slotLive, State.slotLive, pfWord_of_pf hpf]

/-- The slot that R422 selects depends on the flash and the member alone. -/
theorem bestSlot_of_pf : t.bestSlot = s.bestSlot := by
  unfold State.bestSlot State.slotGen
  rw [candidate_of_pf hpf hm, candidate_of_pf hpf hm, pfWord_of_pf hpf, pfWord_of_pf hpf]

end

end Sys2Proof.Machine
end

section
/-!
PROOFS. The prof, tally and cvu lines (R187, R398, R412 to R433).
-/
open Sys2Proof Sys2Proof.Machine

/-- Settles O49: reads answer what the flash holds, an erase starts its operation, and the others wait for theirs with their line. -/
theorem profileLines : Obligations.ProfileLines := by
  refine fun ln s hi => ⟨fun hp => ?_, fun hp => ?_, fun hp hf hb0 hb1 hq hpw pw hpw' => ?password⟩
  · have ha := Stays.accepted noReg ln { locked := false } s
    refine ⟨fun hb0 hb1 => ?get, fun ch hg hc => ?tally, fun u i hu hh => ?cvu⟩
    case get =>
      have hr := (regated_readSlot 0 (accepted ln { locked := false } s)).trans (regated_readSlot 1 _)
      have hd := does_passes (c := .profGet ln) (s := s) rfl hp hi (fun u hu => by simp [hu.pfBusy, hb0, hb1])
        (congrArg Port.tx (hr.mute.port ln.ep))
      have hpw : (readSlot 1 (readSlot 0 (accepted ln { locked := false } s))).pwSet = s.pwSet := by
        rw [← ha.pwSet, State.pwSet, State.pwSet, hr.pf]
      refine ⟨_, hd, ?_⟩
      rw [← hpw, ← ha.session, ← hr.session]
      simp
    case tally =>
      refine ⟨_, does_value rfl hp hi (fun u hu => chObj_passes (hu.member ▸ hg) hc) rfl, ?_⟩
      rw [← ha.ladder]
      simp
    case cvu =>
      have hn : ∀ g k, u = .grp g k → g < 0x4000 := by rintro g k rfl; cases hu
      exact does_value rfl hp hi (fun v _ => by simp [hu]) (by
        simp only [ha.hasUnit, hh, hu, ha.unit u hn, ha.katAge]
        rfl)
  · have ha := Stays.accepted noReg ln {} s
    have hm := Mute.refl (accepted ln {} s)
    refine ⟨fun u i hu hh => ?cvuclear, fun x hx h4 hb => ?word, fun b hb => ?crc, fun hf => ?_⟩
    case cvuclear =>
      exact does_acts rfl hp hi (fun v hv => by simp [hu, hv.hasUnit, hh]) (by simp only [hu]; rfl) ((hm.setReg ..).setReg ..)
    case word =>
      have hbank : pfBank (x / 8 * 8) = pfBank x := by unfold pfBank; omega
      have hr := regated_pfRead (x / 8 * 8) (accepted ln {} s)
      have hd := does_passes (c := .profWord ln (0x80000000 + x)) (s := s) rfl hp hi (fun u hu => List.forall_mem_append.2 ⟨by
          simp [pfAddr]; omega, by simp [hbank, hu.pfBusy, hb]⟩) (by
          rw [Nat.add_sub_cancel_left]
          exact congrArg Port.tx ((hr.mute.record ..).port ln.ep))
      dsimp only at hd
      rw [Nat.add_sub_cancel_left] at hd
      refine ⟨_, hd.unrecorded, ?_⟩
      rw [← pfRead_value ha.pf]
      simp
    case crc =>
      have hd := does_passes (c := .profCrc ln b) (s := s) rfl hp hi (fun u hu => by simp [hu.pfBusy, hb])
        (congrArg Port.tx ((regated_readSlot b.toNat (accepted ln {} s)).mute.port ln.ep))
      dsimp only at hd
      rwa [ha.slotCrc] at hd
    refine ⟨?save, fun ch hg hc => ?saveone, fun x hx hfix hgd hb hq => ?erase, fun b hbest hgd hb hq => ?eraseslot,
      fun b hb2 hb hq => ?wipe, fun x v hx h8 hfix hgd hb hq hpc => ?program, fun k hk hb hq hpw hpc => ?protect,
      fun b crc hs hgen hcrc hg0 hg1 hb0 hb1 hq => ?swap⟩
    case save =>
      exact does_acts rfl hp hi (fun u hu => by simp [hu.unit .pflash (fun _ _ => nofun), hf]) (by rw [ha.chans])
        (hm.forAll _ fun n u => (Mute.refl u).persist n)
    case saveone =>
      exact does_acts rfl hp hi (fun u hu => List.forall_mem_append.2 ⟨chObj_passes (hu.member ▸ hg) hc, by
        simp [hu.unit .pflash (fun _ _ => nofun), hf]⟩) rfl (hm.persist _)
    case erase =>
      have hbank : pfBank (x / 4096 * 4096) = pfBank x := by unfold pfBank; omega
      have he : 0x80000000 + x - 0x80000000 = x := Nat.add_sub_cancel_left ..
      refine does_acts (c := .profErase ln (0x80000000 + x)) rfl hp hi (fun u hu => List.forall_mem_append.2
        ⟨List.forall_mem_append.2 ⟨by simp [pfAddr]; omega, ?_⟩, ?_⟩) ?_ (hm.setPfOp ..)
      · simp [he, hfix, hu.guarded, hgd]
      · rw [he, hbank]
        exact hu.pfChecks hf hb
      · rw [he, hbank]
        exact profErase_idle ((congrArg PfSeq.step (ha.pfSeq _)).trans hq)
    case eraseslot =>
      exact does_acts rfl hp hi (fun u hu => List.forall_mem_append.2 ⟨by
          simp [hu.guarded, hgd, bestSlot_of_pf hu.pf hu.member, hbest], hu.pfChecks hf hb⟩)
        (profErase_idle ((congrArg PfSeq.step (ha.pfSeq _)).trans hq)) (hm.setPfOp ..)
    case wipe =>
      exact does_acts rfl hp hi (fun u hu => List.forall_mem_cons.2 ⟨by simp; omega, hu.pfChecks hf hb⟩)
        (profErase_idle ((congrArg PfSeq.step (ha.pfSeq _)).trans hq)) (hm.setPfOp ..)
    case program =>
      have he : 0x80000000 + x - 0x80000000 = x := Nat.add_sub_cancel_left ..
      have hd := starts_op (go := pfStartProgram x v) hp hi (checks := fun t => pfAddr (0x80000000 + x) 8 ++
          [(.range, pfFixed x), (.locked, t.guarded x)] ++ pfChecks (pfBank x) t)
        (v := setPfOp (pfBank x) (some (.program x v)) (setPfWho (pfBank x) (some ln) s))
        (List.forall_mem_append.2 ⟨List.forall_mem_append.2 ⟨by simp [pfAddr]; omega, by simp [hfix, ha.guarded, hgd]⟩, ha.pfChecks hf hb⟩)
        hq fun u hu => ?_
      · change ∃ t, done (startLine ln {} _ (profStart (pfBank (0x80000000 + x - 0x80000000)) ln _) s) = _ ∧ _
        rw [he]
        exact hd
      · have hw := hu.setPfWho (pfBank x) (some ln)
        rw [pfStartProgram_open hfix (hw.guarded x ▸ hgd), hw.pfWord, setPfWho_pfWord, hpc]
        exact hw.setPfOp ..
    case protect =>
      have hd := starts_op (go := pfStartProtect k) hp hi (checks := fun t => (.range, decide (8 ≤ k)) :: pfChecks (k / 4) t)
        (v := setPfOp (k / 4) (some (.protect k)) (setPfWho (k / 4) (some ln) s))
        (List.forall_mem_cons.2 ⟨by simp; omega, ha.pfChecks hf hb⟩) hq fun u hu => ?_
      · exact hd
      · have hw := hu.setPfWho (k / 4) (some ln)
        rw [pfStartProtect, hw.pwSet, hw.pfWord, setPfWho_pfWord, setPfWho_pwSet, hpc, hpw]
        exact hw.setPfOp ..
    case swap =>
      have hck := List.forall_mem_append.2 ⟨List.forall_mem_append.2 ⟨(by simp [ha.sealed, hs, ha.newGen, hgen, hcrc, ha.guarded, hg0, hg1] :
        ∀ p ∈ [(Code.arg, (accepted ln {} s).sealed b.toNat),
          (.range, decide (0xFFFFFFFE < (accepted ln {} s).newGen) || decide (0xFFFF < crc)),
          (.locked, (accepted ln {} s).guarded (sealA 0) || (accepted ln {} s).guarded (sealA 1))], p.2 = false),
        ha.pfChecks hf hb0⟩, ha.pfChecks hf hb1⟩
      refine starts_op hp hi hck hq fun u hu => ?_
      have hw := hu.setPfWho b.toNat (some ln)
      dsimp only
      rw [hw.newGen, setPfWho_newGen]
      exact (hw.setPfOp ..).setPfOp ..
  case password =>
    have ha := Stays.accepted noReg ln { secret := true } s
    have hck : ∀ p ∈ (Code.arg, (some pw).isNone) :: (pfChecks 0 (accepted ln { secret := true } s) ++
        pfChecks 1 (accepted ln { secret := true } s)), p.2 = false :=
      List.forall_mem_cons.2 ⟨rfl, List.forall_mem_append.2 ⟨ha.pfChecks hf hb0, ha.pfChecks hf hb1⟩⟩
    refine starts_op hp hi hck hq fun u hu => ?_
    have hw := hu.setPfWho 0 (some ln)
    rw [pfStartPassword, hw.pwSet, setPfWho_pwSet, if_neg (by simp [hpw]), Option.getD_some, if_neg hpw']
    exact (hw.setPfOp ..).setPfOp ..
end
